-- ==== Sys2Proof/Word.lean ====
section
/-! DEFINITION. Sys2Proof/Word.lean: the plain words and tables every other file uses.
A register of BAR0, a scalar register and an instruction word are 64 bits (R28, R147, R168); a command
descriptor is 64 bytes (R465); a line is 512 bytes and a sector 64 bytes (R19). -/

namespace Sys2Proof

/-- A 64-bit word: a BAR0 register, a scalar register, an instruction word. -/
abbrev Word := BitVec 64

/-- One byte of memory. -/
abbrev Byte := BitVec 8

/-- A 32-bit vector-register lane, accumulator word or lane mask. -/
abbrev Lane32 := BitVec 32

/-- A 64-byte block: a command descriptor, a completion or error record, a sector. -/
abbrev Block64 := BitVec 512

/-- A 512-byte line (R19). -/
abbrev LineData := BitVec 4096

/-- Sparse data by key in one canonical form: keys strictly rising, and no entry equal to what an
unlisted key reads as. The default is a function of the key and belongs to each use. -/
abbrev Tab (α : Type) := List (Nat × α)

end Sys2Proof
end

