-- ==== Sys2Proof/Syntax.lean ====
section
/-! DEFINITION. Sys2Proof/Syntax.lean: the commands of the VT-8850, one constructor per row of the command table. -/

namespace Sys2Proof

/-- Where a bit error of a core's or cluster's storage lies (R138, R206, R239, R247): a lane of a vector register, a scalar or predicate
register of the group, a 4-byte word of the core's local memory, an accumulator tile, a granule of the cluster's scratchpad, a local register
of a processing element (8 is o), or the active fabric context. A parity error lies in a line of the core's L1, or in its instruction cache. -/
inductive SramPlace where
  | vector (reg : Fin 255) (lane : Fin 32)
  | scalar (reg : Fin 64)
  | pred (reg : Fin 7) (lane : Fin 32)
  | localMem (word : Nat)
  | tile (t : Fin 8)
  | scratch (granule : Fin 98304)
  | element (pe : Fin 256) (reg : Fin 9)
  | context
  | l1 (line : Nat)
  | icache
deriving DecidableEq, Repr

/-- A Caerko instruction as a core's group slot receives it (R168). The constructor gives the row's GRP and OP, bits [7:0]; `hdr` is bits
[11:8] (PNEG, PRED), `body` bits [63:12], and `poison` says the word was fetched with poison (R206). `opcode` is bits [7:0] as fetched where
they are not the row's own: a reserved opcode (R155, R170). `sram` is a bit error found as the instruction issues, and whether it is a
double-bit error. -/
structure IWord where
  core : Fin 768
  slot : Fin 16
  hdr : BitVec 4
  body : BitVec 52
  poison : Bool
  opcode : Option (BitVec 8) := none
  sram : Option (SramPlace × Bool) := none
deriving DecidableEq, Repr

/-- A data-mover operation (R249, R250): a command of a channel, by its key, or an operation of a cluster's DMA engine. -/
inductive OpRef where
  | chan (key : Nat)
  | cluster (cl : Fin 192) (id : Nat)
deriving DecidableEq, Repr

/-- What a tier's response carries. From a far port (R391, R395): the DevLoad field (2 moderate, 3 severe overload) and the sectors that
arrive with CXL poison. From a stack (R382, R383, R386): the sectors whose on-die result is a correction, those whose on-die result is
uncorrectable, and those that are still uncorrectable when they are read back after a rewrite. -/
structure CxlResp where
  load : Fin 4
  poison : BitVec 8
  onDie : BitVec 8 := 0
  onDieBad : BitVec 8 := 0
  hard : BitVec 8 := 0
deriving DecidableEq, Repr

/-- What the storage that a command reads shows beyond its data: the answer of the tier that holds a line, or an error of a scratchpad
granule, which a single-bit error leaves correct and a double-bit error poisons (R247, R268). -/
inductive Flaw where
  | none
  | tier (line : Nat) (resp : CxlResp)
  | spad (cl : Fin 192) (granule : Fin 98304) (double : Bool)
deriving DecidableEq, Repr

/-- What a home finds wrong with its storage as it serves an access (R318): nothing; a single-bit error or an error in one address
copy; an uncorrectable error in a sector's data, in a sector of the copy at the entry point, in both address copies, in a directory field,
in the dirty-frame map word of a frame, in a miss table, in the reorder buffer's entry of an ordered operation, in the ordered-sector table's
entry of a sector, or in a sequencer cache the home recalls. -/
inductive HomeFault where
  | ok
  | corrected
  | data (sector : Fin 8)
  | guest (sector : Fin 8)
  | address
  | directory
  | map (frame : Fin 2097152)
  | table
  | reorder (id : Nat)
  | ordered (sector : Nat)
  | sequencer (i : Fin 4)
  | flaw (f : Flaw)
deriving DecidableEq, Repr

/-- How a far port's training and enumeration end (R392, R396): no usable expander, or its volatile capacity in MiB, x8 and 64 GT/s. -/
inductive FarTrain where
  | absent
  | found (mib : Nat) (x8 gt64 : Bool)
deriving DecidableEq, Repr

/-- A read outstanding on a host port: a descriptor read of a ring, or a core's load (R476, R522). -/
inductive HostRead where
  | fetch (chan : Fin 16) (ring : Fin 64)
  | load (core : Fin 768) (id : Nat)
deriving DecidableEq, Repr

/-- A configuration write of a host port (R455, R456): the MSI-X enable of PF0 (0) or VF n (n + 1), the mask of a vector, the SR-IOV VF
enable, and the AtomicOp requester enable. -/
inductive CfgWrite where
  | msixEnable (fn : Fin 17) (on : Bool)
  | maskVector (vf : Option (Fin 16)) (vector : Fin 2048)
  | vfEnable (on : Bool)
  | atomicEnable (on : Bool)
deriving DecidableEq, Repr

/-- A Tandem packet (R742): the fields of its header but OP, which its row gives; `res` says that a res field is set, `ce` that it was
marked CE on the way (R752); and its payload. -/
structure Packet where
  op : BitVec 4
  ver : BitVec 4
  res : Bool
  tc : BitVec 3
  masked : Bool
  poison : Bool
  dt : BitVec 3
  src : BitVec 12
  dst : BitVec 12
  eng : BitVec 16
  psn : BitVec 32
  ack : BitVec 32
  addr : Word
  len : BitVec 12
  tag : BitVec 32
  ce : Bool
  payload : List Byte
  /-- The frame that carried it is framed as ENCAP says, and its FCS and UDP checksum are right (R741). -/
  intact : Bool := true
  /-- Uncorrectable FEC codewords among those that carried the frame (R740, R764). -/
  fec : Nat := 0
deriving DecidableEq, Repr

/-- What the training of a die link finds (R423, R428): the rates at which every module trains within 2 ms (bit 0 16, 1 24, 2 32, 3 48,
4 64 GT/s), and whether the lane order is reversed. -/
structure LinkTrain where
  rates : BitVec 5
  reversed : Bool
deriving DecidableEq, Repr

/-- How the training of one module of a link ends (R429): at x16, at x8 on its good half, or not at all. -/
inductive ModTrain where
  | x16 | x8 | off
deriving DecidableEq, Repr

/-- What starts a lane repair (R429): CRC errors counted by the module's adapter in a 1 ms window, or a failed lane. -/
inductive RepairCause where
  | crc (errors : BitVec 32)
  | lane
deriving DecidableEq, Repr

/-- A bay's request (R438, R439): a read, a byte-masked write, or a reduce-add of type `dt` on the elements the mask selects, each within
one granule at a device virtual address. -/
inductive BayReq where
  | read (va : Nat) (len : Fin 65)
  | write (va : Nat) (data : Block64) (mask : BitVec 64)
  | red (va : Nat) (dt : Fin 8) (data : Block64) (mask : BitVec 64)
deriving DecidableEq, Repr

/-- Temperatures in °C at a sampling instant (R594): the hottest junction of each region, of each hub, and each stack, in index order;
a sensor not given reads 0. -/
structure Temps where
  regions : List (Fin 256)
  hubs : List (Fin 256)
  stackT : List (Fin 256)
deriving DecidableEq, Repr

/-- One setting a region could run at and Rein's prediction for it (R580, R585): point p, f in steps of 10 MHz above 1.0 GHz, the steps by
which every pulse-filter count is lowered, and the predicted power in mW. -/
structure Setting where
  region : Fin 32
  p : Fin 16
  f : Fin 161
  cut : Fin 16
  mw : BitVec 24
deriving DecidableEq, Repr

/-- What Rein reads at a tick (R585, R588, R591): measured input power and region meter powers in mW over the last tick, its predictions,
the 1 ms average input power in mW without filler and the most that filler could hold it at, the Curb ratios that suit each cluster, and the
sensors. -/
structure TickMeas where
  pin : BitVec 24
  meters : List (BitVec 24)
  settings : List Setting
  bare : BitVec 24
  reach : BitVec 24
  ratios : List (Fin 17 × Fin 17)
  temps : Temps
deriving DecidableEq, Repr

/-- What the meters say of one run in an interval (R600): its tagged energy by region, its block residency by region, its bytes at the
stack controllers and through the hubs' ports. Energies are in nJ, residencies in block-microseconds. -/
structure RunMeas where
  key : Nat
  dyn : List (Fin 32 × Nat)
  res : List (Fin 32 × Nat)
  bS : Nat
  bH : Nat
deriving DecidableEq, Repr

/-- What is measured of a 1 ms interval (R600), energies in nJ: input; dynamic energy and leakage of each region; stacks and hubs, active and
idle; die uncore; filler; the runs; bytes at the stacks and the hubs' ports; the residency of each slice in ns, summed over regions; input
voltage in 10 mV, current in 10 mA, power over the last 10 ms in W; the sensors. -/
structure EnergyMeas where
  ein : Nat
  dyn : List Nat
  leak : List Nat
  sdyn : Nat
  hdyn : Nat
  sidle : Nat
  hidle : Nat
  u : Nat
  fill : Nat
  runs : List RunMeas
  bS : Nat
  bH : Nat
  own : List Nat
  vin : BitVec 16
  iin : BitVec 16
  p10 : BitVec 12
  temps : Temps
deriving DecidableEq, Repr

/-- What loses its rail or PLL (R655): a region, or a die (compute dies 0 to 7, HN 8, HO 9). -/
inductive RailPart where
  | region (r : Fin 32)
  | die (d : Fin 10)
deriving DecidableEq, Repr

/-- The commands of the module: one constructor per row of the command table, in the table's order. -/
inductive Instr where
  /-- SETUP_WRITE (R23). -/
  | setupWrite (port : Fin 2) (off : BitVec 26) (half : Bool) (data : Word)
  /-- BAR0_ACCESS_ERROR (R29). -/
  | bar0AccessError (port : Fin 2) (off : BitVec 26) (len : Fin 4097) (write : Bool)
  /-- LOWER_HALF_EXPIRY (R30). -/
  | lowerHalfExpiry (port : Fin 2)
  /-- CLAIM (R458); `tie` says that it reaches the identity block in the same cycle as the other port's CLAIM before it. -/
  | claim (port : Fin 2) (lease : BitVec 6) (tie : Bool := false)
  /-- RELEASE (R458). -/
  | release (port : Fin 2)
  /-- LEASE_EXPIRY (R458). -/
  | leaseExpiry
  /-- DOORBELL (R468). -/
  | doorbell (port : Fin 2) (vf : Option (Fin 16)) (page : Fin 4096) (off : Fin 4096) (len : Fin 65) (data : Word)
  /-- RING_FETCH (R471). -/
  | ringFetch (chan : Fin 16) (ring : Fin 64) (mapped : Bool)
  /-- DESCRIPTOR_ARRIVAL (R474). -/
  | descriptorArrival (chan : Fin 16) (ring : Fin 64) (descs : List Block64)
  /-- FETCH_FAILURE (R476). -/
  | fetchFailure (chan : Fin 16) (ring : Fin 64)
  /-- DISPATCH (R472). -/
  | dispatch (chan : Fin 16)
  /-- BLOCK_PLACEMENT (R530). -/
  | blockPlacement (owner : Fin 18)
  /-- KERNEL (R480). -/
  | kernel (key : Nat)
  /-- COPY (R255). -/
  | copy (op : OpRef) (flaw : Flaw := .none)
  /-- FILL (R257). -/
  | fill (op : OpRef) (flaw : Flaw := .none)
  /-- REDUCE (R258). -/
  | reduce (op : OpRef) (flaw : Flaw := .none)
  /-- GATHER (R259). -/
  | gather (op : OpRef) (flaw : Flaw := .none)
  /-- PREFETCH (R260). -/
  | prefetch (op : OpRef) (flaw : Flaw := .none)
  /-- SIGNAL (R487). -/
  | signal (key : Nat)
  /-- WAIT (R488). -/
  | wait (key : Nat)
  /-- WAIT_REREAD (R488). -/
  | waitReread (key : Nat)
  /-- FENCE (R489). -/
  | fence (key : Nat)
  /-- MARK (R485). -/
  | mark (key : Nat)
  /-- MODEL_SWITCH (R540). -/
  | modelSwitch (key : Nat)
  /-- COMMAND_TIMEOUT (R494). -/
  | commandTimeout (key : Nat)
  /-- MOD_US_EXPIRY (R495). -/
  | modUsExpiry (chan : Fin 16) (cq : Fin 64)
  /-- RECORD_WRITE_FAILURE (R476). -/
  | recordWriteFailure (chan : Fin 16) (cq : Fin 64)
  /-- DL_DOWN (R496). -/
  | dlDown (port : Fin 2)
  /-- SQ_ENABLE (R506). -/
  | sqEnable (port : Fin 2) (chan : Fin 16) (ring : Fin 64) (data : Word)
  /-- SQ_DISABLE (R506). -/
  | sqDisable (port : Fin 2) (chan : Fin 16) (ring : Fin 64) (data : Word)
  /-- CQ_ENABLE (R510). -/
  | cqEnable (port : Fin 2) (chan : Fin 16) (ring : Fin 64) (data : Word)
  /-- CQ_DISABLE (R510). -/
  | cqDisable (port : Fin 2) (chan : Fin 16) (ring : Fin 64) (data : Word)
  /-- CHANNEL_RESET (R504). -/
  | channelReset (port : Fin 2) (chan : Fin 16)
  /-- BAR4_WRITE (R357). -/
  | bar4Write (port : Fin 2) (addr : Nat) (data : List Byte) (flaw : Flaw := .none)
  /-- BAR4_READ (R285). -/
  | bar4Read (port : Fin 2) (addr : Nat) (len : Nat) (flaw : Flaw := .none)
  /-- START (R519). -/
  | start (port : Fin 2) (slice : Fin 16)
  /-- HOBBLE (R522). -/
  | hobble (port : Fin 2) (slice : Fin 16) (cache : Fin 4) (save : Bool)
  /-- HOBBLE_FORCE_ABORT (R522). -/
  | hobbleForceAbort (slice : Fin 16)
  /-- SLICE_RESET (R521). -/
  | sliceReset (port : Fin 2) (slice : Fin 16)
  /-- REMOVE (R521). -/
  | remove (port : Fin 2) (slice : Fin 16)
  /-- TLB_FLUSH (R514). -/
  | tlbFlush (port : Fin 2) (slice : Fin 16)
  /-- REGION_LEAVE (R520). -/
  | regionLeave (port : Fin 2) (slice : Fin 16) (regions : BitVec 32)
  /-- PAGE_GROOM (R526). -/
  | pageGroom (port : Fin 2) (nfm1 : BitVec 16)
  /-- PAGE_GROOM_DONE (R526). -/
  | pageGroomDone
  /-- QUANTUM_EXPIRY (R534). -/
  | quantumExpiry (region : Fin 32)
  /-- PREEMPT_GRACE_EXPIRY (R535). -/
  | preemptGraceExpiry (key : Nat)
  /-- CYCLIC_ENABLE (R544). -/
  | cyclicEnable (port : Fin 2) (chan : Fin 16) (data : Word)
  /-- FRAME_START (R543). -/
  | frameStart (chan : Fin 16)
  /-- WINDOW_LEAD (R545). -/
  | windowLead (chan : Fin 16)
  /-- WINDOW_OPEN (R545). -/
  | windowOpen (chan : Fin 16)
  /-- WINDOW_CLOSE (R546). -/
  | windowClose (chan : Fin 16)
  /-- DLOG_SYNC (R550). -/
  | dlogSync (port : Fin 2) (slice : Fin 16) (data : Word)
  /-- DLOG_STAGE_WRITE (R550). -/
  | dlogStageWrite (slice : Fin 16) (map : Fin 3) (word : Nat)
  /-- NOP (R801). -/
  | nop (iw : IWord)
  /-- BRA (R158). -/
  | bra (iw : IWord)
  /-- SPLIT (R158). -/
  | split (iw : IWord)
  /-- JOIN (R158). -/
  | join (iw : IWord)
  /-- LOOP (R158). -/
  | loop (iw : IWord)
  /-- BREAK (R158). -/
  | breakI (iw : IWord)
  /-- EXIT (R158). -/
  | exit (iw : IWord)
  /-- TOKEN_WAIT (R123). -/
  | tokenWait (iw : IWord)
  /-- TRAP (R205). -/
  | trap (iw : IWord)
  /-- SALU (R802). -/
  | salu (iw : IWord)
  /-- SCMP (R802). -/
  | scmp (iw : IWord)
  /-- SALUI (R802). -/
  | salui (iw : IWord)
  /-- SCMPI (R802). -/
  | scmpi (iw : IWord)
  /-- MOV (R802). -/
  | mov (iw : IWord)
  /-- MOVI (R802). -/
  | movi (iw : IWord)
  /-- MOVHI (R802). -/
  | movhi (iw : IWord)
  /-- MOVSR (R802). -/
  | movsr (iw : IWord)
  /-- P2S (R802). -/
  | p2s (iw : IWord)
  /-- VREAD (R802). -/
  | vread (iw : IWord)
  /-- VALU (R802). -/
  | valu (iw : IWord)
  /-- VALU64 (R802). -/
  | valu64 (iw : IWord)
  /-- VALUI (R802). -/
  | valui (iw : IWord)
  /-- FALU (R802). -/
  | falu (iw : IWord)
  /-- FALUI (R802). -/
  | falui (iw : IWord)
  /-- DALU (R802). -/
  | dalu (iw : IWord)
  /-- HALU (R802). -/
  | halu (iw : IWord)
  /-- CVT (R156). -/
  | cvt (iw : IWord)
  /-- CVTD (R802). -/
  | cvtd (iw : IWord)
  /-- CVT2D (R802). -/
  | cvt2d (iw : IWord)
  /-- FCMP (R802). -/
  | fcmp (iw : IWord)
  /-- ICMP (R802). -/
  | icmp (iw : IWord)
  /-- DCMP (R802). -/
  | dcmp (iw : IWord)
  /-- SEL (R802). -/
  | sel (iw : IWord)
  /-- PLOG (R802). -/
  | plog (iw : IWord)
  /-- SHFL (R802). -/
  | shfl (iw : IWord)
  /-- BCAST (R802). -/
  | bcast (iw : IWord)
  /-- VOTE (R802). -/
  | vote (iw : IWord)
  /-- LD (R162). -/
  | ld (iw : IWord)
  /-- ST (R164). -/
  | st (iw : IWord)
  /-- LDS (R174). -/
  | lds (iw : IWord)
  /-- STS (R174). -/
  | sts (iw : IWord)
  /-- LDL (R160). -/
  | ldl (iw : IWord)
  /-- STL (R160). -/
  | stl (iw : IWord)
  /-- ATOM (R182). -/
  | atom (iw : IWord)
  /-- LDR (R183). -/
  | ldr (iw : IWord)
  /-- STC (R184). -/
  | stc (iw : IWord)
  /-- FENCE_L (R189). -/
  | fenceL (iw : IWord)
  /-- FENCE_S (R190). -/
  | fenceS (iw : IWord)
  /-- FENCE_LS (R192). -/
  | fenceLs (iw : IWord)
  /-- BAR (R195). -/
  | bar (iw : IWord)
  /-- BARRIER_COMPLETE (R194). -/
  | barrierComplete (core : Fin 768) (slot : Fin 16)
  /-- BARRIER_WATCHDOG (R196). -/
  | barrierWatchdog (core : Fin 768) (slot : Fin 16)
  /-- LOAD_RESPONSE (R356). -/
  | loadResponse (core : Fin 768) (id : Nat)
  /-- SB_SEND (R352). -/
  | sbSend (core : Fin 768)
  /-- SB_OPEN_EXPIRY (R352). -/
  | sbOpenExpiry (core : Fin 768) (seq : Nat)
  /-- SB_ACK (R349). -/
  | sbAck (core : Fin 768) (seq : Nat)
  /-- MMA (R101). -/
  | mma (iw : IWord)
  /-- ALOAD (R132). -/
  | aload (iw : IWord)
  /-- DRAIN (R128). -/
  | drain (iw : IWord)
  /-- MATRIX_LANE_START (R121). -/
  | matrixLaneStart (core : Fin 768)
  /-- MMA_COMPLETE (R124). -/
  | mmaComplete (core : Fin 768)
  /-- ALOAD_COMPLETE (R124). -/
  | aloadComplete (core : Fin 768)
  /-- DRAIN_COMPLETE (R124). -/
  | drainComplete (core : Fin 768)
  /-- DMA (R199). -/
  | dma (iw : IWord)
  /-- DMA_OP_COMPLETE (R267). -/
  | dmaOpComplete (op : OpRef)
  /-- FLOAD (R232). -/
  | fload (iw : IWord)
  /-- FLOAD_VALIDATED (R233). -/
  | floadValidated (cl : Fin 192)
  /-- FSWAP (R235). -/
  | fswap (iw : IWord)
  /-- FSWAP_EFFECT (R235). -/
  | fswapEffect (cl : Fin 192)
  /-- FRUN (R200). -/
  | frun (iw : IWord)
  /-- FRUN_START (R234). -/
  | frunStart (cl : Fin 192) (sram : Option (SramPlace × Bool) := none)
  /-- FABRIC_BEAT (R220). -/
  | fabricBeat (cl : Fin 192) (port : Fin 8) (sram : Option (SramPlace × Bool) := none)
  /-- RUN_END (R223). -/
  | runEnd (cl : Fin 192) (sram : Option (SramPlace × Bool) := none)
  /-- HOME_READ (R286). -/
  | homeRead (core : Fin 768) (id : Nat) (fault : HomeFault)
  /-- HOME_WRITE (R286). -/
  | homeWrite (core : Fin 768) (seq : Nat) (fault : HomeFault := .ok)
  /-- MISS_FILL (R292). -/
  | missFill (slice : Fin 32) (line : Nat) (resp : CxlResp)
  /-- FLUSH (R296). -/
  | flush (port : Fin 2) (tagsel : Bool) (tag : Fin 32)
  /-- INVALIDATE (R296). -/
  | invalidate (port : Fin 2) (tagsel : Bool) (tag : Fin 32)
  /-- FLUSH_INV (R296). -/
  | flushInv (port : Fin 2) (tagsel : Bool) (tag : Fin 32)
  /-- RANGE_DONE (R298). -/
  | rangeDone
  /-- HOME_ATOMIC (R301). -/
  | homeAtomic (core : Fin 768) (id : Nat) (fault : HomeFault := .ok)
  /-- ADDER_OPERATION (R388). -/
  | adderOperation (core : Fin 768) (id : Nat) (flaw : Flaw := .none)
  /-- ADDER_FLUSH_EXPIRY (R389). -/
  | adderFlushExpiry (sector : Nat)
  /-- ORDERED_REDUCTION (R308). -/
  | orderedReduction (id : Nat)
  /-- ORED_ARM (R308). -/
  | oredArm (port : Fin 2) (slice : Fin 16) (data : Word)
  /-- HEARTBEAT_EXPIRY (R311). -/
  | heartbeatExpiry (silent : BitVec 36)
  /-- MODE_WRITE (R337). -/
  | modeWrite (port : Fin 2) (mode : Bool)
  /-- FAR_WRITE_TIMEOUT (R368). -/
  | farWriteTimeout (f : Fin 4)
  /-- HOST_CREDIT_TIMEOUT (R368). -/
  | hostCreditTimeout (port : Fin 2)
  /-- SCRUB_READ (R385). -/
  | scrubRead (sector : Nat) (flaw : Flaw := .none)
  /-- RECOVER (R396). -/
  | recover (port : Fin 2) (f : Fin 4)
  /-- FAR_RETRAIN_DONE (R396). -/
  | farRetrainDone (f : Fin 4) (result : FarTrain)
  /-- UNLATCH (R396). -/
  | unlatch (port : Fin 2) (f : Fin 4)
  /-- DEVLOAD_EXPIRY (R391). -/
  | devloadExpiry (f : Fin 4)
  /-- LOAD (R402). -/
  | load (port : Fin 2) (entries : Fin 1025)
  /-- INJECT (R418). -/
  | inject (port : Fin 2) (kind : Fin 4) (sector : BitVec 42)
  /-- STACK_LOSS (R656). -/
  | stackLoss (stack : Fin 16)
  /-- LINK_TRAINING (R423). -/
  | linkTraining (link : Fin 16) (found : LinkTrain)
  /-- LANE_REPAIR (R429). -/
  | laneRepair (link : Fin 16) (module : Fin 12) (cause : RepairCause) (resends : BitVec 32) (undelivered : Bool) (result : ModTrain)
  /-- RETRAIN (R451). -/
  | retrain (port : Fin 2) (link : Fin 16) (module : Fin 16) (result : ModTrain)
  /-- BAY_ADMISSION (R434). -/
  | bayAdmission (bay : Fin 2) (desc : Option (BitVec 4096))
  /-- BAY_RESET (R442). -/
  | bayReset (port : Fin 2) (bay : Fin 2) (data : Word)
  /-- BIND (R442). -/
  | bind (port : Fin 2) (bay : Fin 2) (data : Word)
  /-- BAY_REQUEST (R439). -/
  | bayRequest (bay : Fin 2) (req : BayReq)
  /-- BAY_OVER_POWER (R599). -/
  | bayOverPower (bay : Fin 2)
  /-- SCAN_OUT (R697): the chain-select value it loads, if any, and the instruction it loads into a die's TAP, if any (R445, R446). -/
  | scanOut (select : Option (BitVec 12)) (ir : Option (Fin 10 × BitVec 10) := none)
  /-- REIN_TICK (R585). -/
  | reinTick (m : TickMeas)
  /-- REIN_MISSED (R590). -/
  | reinMissed
  /-- CURB (R591). -/
  | curb (vin : BitVec 16) (iin : BitVec 16)
  /-- CURB_RELEASE (R592). -/
  | curbRelease (vin : BitVec 16) (iin : BitVec 16)
  /-- BRAKE (R591). -/
  | brake
  /-- BRAKE_RELEASE (R592). -/
  | brakeRelease
  /-- THERMAL_TRIP (R596). -/
  | thermalTrip (sensor : Fin 50) (temp : Fin 256)
  /-- LEAK (R598). -/
  | leak
  /-- INPUT_SHUTDOWN (R571). -/
  | inputShutdown (vin : BitVec 16)
  /-- ENERGY_SETTLE (R600). -/
  | energySettle (m : EnergyMeas)
  /-- AGEING_TEST (R579). -/
  | ageingTest (core : Fin 768) (p : Fin 16) (low : Bool)
  /-- DROOP (R582). -/
  | droop (cl : Fin 192) (mv : Fin 1024)
  /-- DROOP_RELEASE (R582). -/
  | droopRelease (cl : Fin 192)
  /-- CLOCK_GATE (R576). -/
  | clockGate (cl : Fin 192)
  /-- POWER_GATE (R576). -/
  | powerGate (region : Fin 32)
  /-- SELF_REFRESH (R576). -/
  | selfRefresh (die : Fin 8)
  /-- CLUSTER_WAKE (R576). -/
  | clusterWake (cl : Fin 192)
  /-- REGION_WAKE (R577). -/
  | regionWake (region : Fin 32)
  /-- DIE_WAKE (R576). -/
  | dieWake (die : Fin 8)
  /-- BUDGET_WRITE (R604). -/
  | budgetWrite (port : Fin 2) (data : Word)
  /-- RAMP_WRITE (R605). -/
  | rampWrite (port : Fin 2) (data : Word)
  /-- REFCLK_LOSS (R791). -/
  | refclkLoss
  /-- REFCLK_VALID (R789). -/
  | refclkValid
  /-- STAND (R615). -/
  | stand (modId : Fin 32)
  /-- PRIMARY_ARBITRATION (R719). -/
  | primaryArbitration (hnRunning : Bool)
  /-- PERST_ASSERT (R617). -/
  | perstAssert (port : Fin 2)
  /-- PERST_RELEASE (R618). -/
  | perstRelease (port : Fin 2)
  /-- REGION_SELFTEST_DONE (R623). -/
  | regionSelftestDone (region : Fin 32) (pass : Bool)
  /-- HALTER_CUTOFF (R624). -/
  | halterCutoff
  /-- SADDLE (R624). -/
  | saddle (pmin : Fin 4096)
  /-- SADDLE_TIMEOUT (R625). -/
  | saddleTimeout
  /-- DEVICE_RESET (R630). -/
  | deviceReset (port : Fin 2)
  /-- GET_INFO (R640). -/
  | getInfo
  /-- SELFTEST (R626). -/
  | selftest
  /-- SELFTEST_RESULT (R640). -/
  | selftestResult
  /-- STAGE_LOG (R640). -/
  | stageLog
  /-- FW_QUERY (R732). -/
  | fwQuery
  /-- FW_BEGIN (R732). -/
  | fwBegin
  /-- FW_WRITE (R732). -/
  | fwWrite
  /-- FW_VERIFY (R732). -/
  | fwVerify
  /-- FW_ACTIVATE (R733). -/
  | fwActivate
  /-- FW_COMMIT (R730). -/
  | fwCommit
  /-- FW_ABORT (R732). -/
  | fwAbort
  /-- MAILBOX_RESPONSE (R639). -/
  | mailboxResponse
  /-- UPDATE_IDLE_EXPIRY (R731). -/
  | updateIdleExpiry
  /-- TRIAL_BOOT_FAILURE (R733). -/
  | trialBootFailure
  /-- RAIL_FAILURE (R655). -/
  | railFailure (part : RailPart)
  /-- EVENT_RING_ENABLE (R671). -/
  | eventRingEnable (port : Fin 2) (ring : Fin 2) (data : Word)
  /-- EVENT_RING_HEAD (R672). -/
  | eventRingHead (port : Fin 2) (ring : Fin 2) (head : BitVec 16)
  /-- SNAPSHOT (R686). -/
  | snapshot
  /-- COUNTER_SAMPLE (R687). -/
  | counterSample
  /-- TRACE_BUFFER_ENABLE (R712). -/
  | traceBufferEnable (port : Fin 2) (buf : Fin 2) (data : Word)
  /-- TSYNC_STEP (R678). -/
  | tsyncStep (port : Fin 2) (delta : Word)
  /-- SYNC_EDGE (R783). -/
  | syncEdge (rising : Bool)
  /-- HOLDOVER_EXPIRY (R677). -/
  | holdoverExpiry
  /-- TIME_REQUEST (R753). -/
  | timeRequest
  /-- WHOA_STOP (R693). -/
  | whoaStop (port : Fin 2)
  /-- STOP_IO (R694). -/
  | stopIo
  /-- RESUME (R698). -/
  | resume (port : Fin 2)
  /-- DUMP_GO (R699). -/
  | dumpGo (port : Fin 2) (hub : Fin 2) (data : Word)
  /-- CHANNEL_WATCHDOG (R699). -/
  | channelWatchdog (chan : Fin 16)
  /-- DUMP_FROZEN (R700). -/
  | dumpFrozen (hub : Fin 2)
  /-- RESUME_HELD (R700). -/
  | resumeHeld (port : Fin 2) (hub : Fin 2) (data : Word)
  /-- ABORT_HELD (R700). -/
  | abortHeld (port : Fin 2) (hub : Fin 2) (data : Word)
  /-- DEBUG_TOKEN (R736). -/
  | debugToken (serial : Word) (nonce : BitVec 128) (sig : BitVec 768)
  /-- DEBUG_DISABLE (R736). -/
  | debugDisable
  /-- GET_TID (R722). -/
  | getTid
  /-- GET_PLDM_VERSION (R722). -/
  | getPldmVersion (type : Fin 64)
  /-- GET_PLDM_TYPES (R722). -/
  | getPldmTypes
  /-- GET_PLDM_COMMANDS (R722). -/
  | getPldmCommands (type : Fin 64)
  /-- GET_SENSOR_READING (R724). -/
  | getSensorReading (id : BitVec 16)
  /-- GET_STATE_SENSOR_READINGS (R724). -/
  | getStateSensorReadings (id : BitVec 16)
  /-- SET_NUMERIC_EFFECTER_VALUE (R725). -/
  | setNumericEffecterValue (id : BitVec 16) (value : BitVec 32)
  /-- SET_STATE_EFFECTER_STATES (R725). -/
  | setStateEffecterStates (id : BitVec 16) (temps : Temps)
  /-- ACTIVATE_FIRMWARE (R733). -/
  | activateFirmware (selfContained : Bool)
  /-- GET_VERSION (R722). -/
  | getVersion
  /-- GET_CAPABILITIES (R722). -/
  | getCapabilities
  /-- NEGOTIATE_ALGORITHMS (R722). -/
  | negotiateAlgorithms (p384 : Bool) (sha384 : Bool) (secp384r1 : Bool) (gcm : Bool)
  /-- GET_DIGESTS (R723). -/
  | getDigests
  /-- GET_CERTIFICATE (R723). -/
  | getCertificate (slot : Fin 8)
  /-- CHALLENGE (R722). -/
  | challenge (slot : Fin 8)
  /-- GET_MEASUREMENTS (R723). -/
  | getMeasurements (index : BitVec 8)
  /-- KEY_EXCHANGE (R722). -/
  | keyExchange
  /-- FINISH (R722). -/
  | finish (session : Nat)
  /-- HEARTBEAT (R722). -/
  | heartbeat (session : Nat)
  /-- KEY_UPDATE (R722). -/
  | keyUpdate (session : Nat)
  /-- END_SESSION (R722). -/
  | endSession (session : Nat)
  /-- GET_DEVICE_INTERFACE_REPORT (R734). -/
  | getDeviceInterfaceReport (port : Fin 2) (slice : Fin 16)
  /-- IDE_KM (R734). -/
  | ideKm (port : Fin 2) (session : Nat) (stream : Fin 257)
  /-- SO_ENABLE (R749). -/
  | soEnable (port : Fin 2) (data : Word)
  /-- WRITE (R751). -/
  | write (port : Fin 48) (p : Packet)
  /-- READ_REQ (R751). -/
  | readReq (port : Fin 48) (p : Packet)
  /-- READ_RSP (R751). -/
  | readRsp (port : Fin 48) (p : Packet)
  /-- TANDEM_REDUCE (R751). -/
  | tandemReduce (port : Fin 48) (p : Packet)
  /-- ACK (R748). -/
  | ack (port : Fin 48) (p : Packet)
  /-- NAK (R750). -/
  | nak (port : Fin 48) (p : Packet)
  /-- CNP (R752). -/
  | cnp (port : Fin 48) (p : Packet)
  /-- TIME (R753). -/
  | time (port : Fin 48) (p : Packet)
  /-- FLOW_RESET (R755). -/
  | flowReset (port : Fin 48) (p : Packet)
  /-- RESEND_TIMEOUT (R748). -/
  | resendTimeout (eng : BitVec 16) (m : BitVec 12) (tc : BitVec 3) (psn : BitVec 32)
  /-- RATE_INCREASE (R752). -/
  | rateIncrease (eng : BitVec 16) (m : BitVec 12) (tc : BitVec 3)
  /-- PORT_DOWN (R754). -/
  | portDown (port : Fin 48)
  /-- PORT_UP (R756). -/
  | portUp (port : Fin 48)
  /-- FLOW_FAIL_EXPIRY (R754). -/
  | flowFailExpiry (eng : BitVec 16) (m : BitVec 12) (tc : BitVec 3)
  /-- PEER_RESET (R755). -/
  | peerReset (port : Fin 2) (m : BitVec 12)
  /-- DL_UP (R619). -/
  | dlUp (port : Fin 2)
  /-- FAR_LINK_DOWN (R368). -/
  | farLinkDown (f : Fin 4)
  /-- CXL_EVENT_RECORD (R395). -/
  | cxlEventRecord (f : Fin 4) (deferred : Bool) (addr : Nat)
  /-- PEER_ACK_TIMEOUT (R368). -/
  | peerAckTimeout (eng : BitVec 16) (m : BitVec 12) (tc : BitVec 3)
  /-- FLOW_CONTEXT_FREE (R746). -/
  | flowContextFree (eng : BitVec 16) (m : BitVec 12) (tc : BitVec 3)
  /-- REFCLK_RESTART (R791). -/
  | refclkRestart
  /-- MANAGEMENT_PLANE_RESTART (R54). -/
  | managementPlaneRestart (up : Bool)
  /-- STACK_TRAINING (R619). -/
  | stackTraining (ok : BitVec 16)
  /-- NEAR_TIER_ZEROING (R619). -/
  | nearTierZeroing
  /-- FAR_PORT_ENUMERATION (R392). -/
  | farPortEnumeration (f : Fin 4) (result : FarTrain)
  /-- HOST_COMPLETION_TIMEOUT (R522). -/
  | hostCompletionTimeout (r : HostRead)
  /-- ATS_INVALIDATION (R455). -/
  | atsInvalidation (port : Fin 2) (pasid : Nat) (page : Nat) (count : Nat)
  /-- PAGE_REQUEST_RESPONSE (R476). -/
  | pageRequestResponse (port : Fin 2) (pasid : Nat) (page : Nat) (ok : Bool)
  /-- CONFIGURATION_WRITE (R456). -/
  | configurationWrite (port : Fin 2) (w : CfgWrite)
  /-- MSIX_VECTOR_UNMASK (R495). -/
  | msixVectorUnmask (port : Fin 2) (vf : Option (Fin 16)) (v : Fin 2048)
  /-- STOP_IO_RELEASE (R698). -/
  | stopIoRelease
  /-- FRAME_OUT_PULSE_END (R783). -/
  | frameOutPulseEnd
  /-- PLATFORM_EVENT_ACK (R781). -/
  | platformEventAck
  /-- SET_EVENT_RECEIVER (R722). -/
  | setEventReceiver (eid : Option (BitVec 8))
  /-- SET_ENDPOINT_ID (R721). -/
  | setEndpointId (eid : BitVec 8)
  /-- DYNAMIC_ADDRESS_ASSIGNMENT (R782). -/
  | dynamicAddressAssignment (pid : Fin 32) (addr : BitVec 7)
  /-- DEBUG_NONCE (R736). -/
  | debugNonce (nonce : BitVec 128)
  /-- LOCK_INTERFACE (R735). -/
  | lockInterface (port : Fin 2) (slice : Fin 16)
  /-- START_INTERFACE (R735). -/
  | startInterface (port : Fin 2) (slice : Fin 16)
  /-- STOP_INTERFACE (R735). -/
  | stopInterface (port : Fin 2) (slice : Fin 16)
  /-- REQUEST_UPDATE (R731). -/
  | requestUpdate (len : Nat)
  /-- UPDATE_COMPONENT (R731). -/
  | updateComponent (comp : Fin 4) (size : Nat)
  /-- FIRMWARE_DATA (R731). -/
  | firmwareData (offset : Nat) (data : List Byte)
  /-- CANCEL_UPDATE (R731). -/
  | cancelUpdate
deriving DecidableEq, Repr

end Sys2Proof
end

