-- ==== Sys2Proof/Decode.lean ====
section
/-! DEFINITION. Sys2Proof/Decode.lean: the opcode map of Caerko (R168, R170), as a decoder of the words a core fetches, its encoder, and the
commands spelled by words of the command table, which gives no row any bits. -/

namespace Sys2Proof

/-- The command that a word of `nbits` bits spells by the table's bits: none, since no row of the table gives bits. -/
def decodeTableWord (_nbits _w : Nat) : Option Instr := none

/-- R188: FENCE by its KIND; the reserved kind 0 goes to FENCE.L, which refuses it (R171). -/
def decodeFence (kind : Nat) (iw : IWord) : Instr :=
  if kind = 2 then .fenceS iw else if kind = 3 then .fenceLs iw else .fenceL iw

/-- R111, R198: MX by the operation of its control word; a reserved operation goes to MMA, which refuses it. -/
def decodeMx (mx : Nat) (iw : IWord) : Instr :=
  if mx = 2 then .aload iw else if mx = 3 then .drain iw else .mma iw

/-- The parts of a word that every instruction carries (R168). -/
def wordParts (core : Fin 768) (slot : Fin 16) (poison : Bool) (w : Word) : IWord :=
  { core := core, slot := slot, hdr := w.extractLsb' 8 4, body := w.extractLsb' 12 52, poison := poison }

/-- R168, R170, R802: the instruction that a fetched word is, by GRP (bits [7:4]) and OP (bits [3:0]); `mx` is the operation that an MX's
control word names. A word with an opcode the map does not list is reserved; it issues, as a NOP
with that opcode (DESIGN CHOICE, log 47), and raises the illegal-instruction exception (R171). -/
def decodeWord (core : Fin 768) (slot : Fin 16) (poison : Bool) (mx : Nat) (w : Word) : Instr :=
  let iw := wordParts core slot poison w
  match (w.extractLsb' 0 8).toNat with
  | 0x00 => .nop iw
  | 0x01 => .bra iw
  | 0x02 => .split iw
  | 0x03 => .join iw
  | 0x04 => .loop iw
  | 0x05 => .breakI iw
  | 0x06 => .exit iw
  | 0x07 => .tokenWait iw
  | 0x08 => .trap iw
  | 0x10 => .salu iw
  | 0x11 => .scmp iw
  | 0x18 => .salui iw
  | 0x19 => .scmpi iw
  | 0x20 => .mov iw
  | 0x21 => .movi iw
  | 0x22 => .movhi iw
  | 0x23 => .movsr iw
  | 0x24 => .p2s iw
  | 0x25 => .vread iw
  | 0x30 => .valu iw
  | 0x31 => .valu64 iw
  | 0x38 => .valui iw
  | 0x40 => .falu iw
  | 0x48 => .falui iw
  | 0x50 => .dalu iw
  | 0x60 => .halu iw
  | 0x70 => .cvt iw
  | 0x71 => .cvtd iw
  | 0x72 => .cvt2d iw
  | 0x80 => .fcmp iw
  | 0x81 => .icmp iw
  | 0x82 => .dcmp iw
  | 0x83 => .sel iw
  | 0x84 => .plog iw
  | 0x90 => .shfl iw
  | 0x91 => .bcast iw
  | 0x92 => .vote iw
  | 0xA0 => .ld iw
  | 0xA1 => .st iw
  | 0xA2 => .lds iw
  | 0xA3 => .sts iw
  | 0xB0 => .ldl iw
  | 0xB1 => .stl iw
  | 0xC0 => .atom iw
  | 0xC1 => .ldr iw
  | 0xC2 => .stc iw
  | 0xD0 => decodeFence (w.extractLsb' 16 2).toNat iw
  | 0xD1 => .bar iw
  | 0xE0 => decodeMx mx iw
  | 0xE1 => .dma iw
  | 0xE2 => .fload iw
  | 0xE3 => .fswap iw
  | 0xE4 => .frun iw
  | _ => .nop { iw with opcode := some (w.extractLsb' 0 8) }

/-- The opcode of an instruction of Caerko, and the word's parts; `none` for a command that is none. -/
def opcodeOf : Instr → Option (BitVec 8 × IWord)
  | .nop iw => some (0x00, iw)
  | .bra iw => some (0x01, iw)
  | .split iw => some (0x02, iw)
  | .join iw => some (0x03, iw)
  | .loop iw => some (0x04, iw)
  | .breakI iw => some (0x05, iw)
  | .exit iw => some (0x06, iw)
  | .tokenWait iw => some (0x07, iw)
  | .trap iw => some (0x08, iw)
  | .salu iw => some (0x10, iw)
  | .scmp iw => some (0x11, iw)
  | .salui iw => some (0x18, iw)
  | .scmpi iw => some (0x19, iw)
  | .mov iw => some (0x20, iw)
  | .movi iw => some (0x21, iw)
  | .movhi iw => some (0x22, iw)
  | .movsr iw => some (0x23, iw)
  | .p2s iw => some (0x24, iw)
  | .vread iw => some (0x25, iw)
  | .valu iw => some (0x30, iw)
  | .valu64 iw => some (0x31, iw)
  | .valui iw => some (0x38, iw)
  | .falu iw => some (0x40, iw)
  | .falui iw => some (0x48, iw)
  | .dalu iw => some (0x50, iw)
  | .halu iw => some (0x60, iw)
  | .cvt iw => some (0x70, iw)
  | .cvtd iw => some (0x71, iw)
  | .cvt2d iw => some (0x72, iw)
  | .fcmp iw => some (0x80, iw)
  | .icmp iw => some (0x81, iw)
  | .dcmp iw => some (0x82, iw)
  | .sel iw => some (0x83, iw)
  | .plog iw => some (0x84, iw)
  | .shfl iw => some (0x90, iw)
  | .bcast iw => some (0x91, iw)
  | .vote iw => some (0x92, iw)
  | .ld iw => some (0xA0, iw)
  | .st iw => some (0xA1, iw)
  | .lds iw => some (0xA2, iw)
  | .sts iw => some (0xA3, iw)
  | .ldl iw => some (0xB0, iw)
  | .stl iw => some (0xB1, iw)
  | .atom iw => some (0xC0, iw)
  | .ldr iw => some (0xC1, iw)
  | .stc iw => some (0xC2, iw)
  | .fenceL iw => some (0xD0, iw)
  | .fenceS iw => some (0xD0, iw)
  | .fenceLs iw => some (0xD0, iw)
  | .bar iw => some (0xD1, iw)
  | .mma iw => some (0xE0, iw)
  | .aload iw => some (0xE0, iw)
  | .drain iw => some (0xE0, iw)
  | .dma iw => some (0xE1, iw)
  | .fload iw => some (0xE2, iw)
  | .fswap iw => some (0xE3, iw)
  | .frun iw => some (0xE4, iw)
  | _ => none

/-- R168: the word of an instruction of Caerko: its body, its header bits, and its opcode, a reserved one where it carries that. -/
def encodeWord (i : Instr) : Option Word :=
  (opcodeOf i).map (fun x => (x.2.body ++ x.2.hdr ++ x.2.opcode.getD x.1 : BitVec 64))

end Sys2Proof
end

