-- ==== Sys2Proof/Config.lean ====
section
/-! DEFINITION. Sys2Proof/Config.lean: the free values, constants without a body that nothing in Lean can evaluate.
Each stands for a value the spec leaves open; State's counter `free` makes successive uses independent. -/

namespace Sys2Proof

/-- A byte of host memory the device reads (R63, R329): what the host holds is outside the module. Arguments: the
counter, the port, the host address. Free value (log 4). -/
opaque Config.hostByte : Nat → Nat → Nat → Byte

/-- The data bits of a sector delivered as poison where no stored data stands behind it (R368, R383, R656).
Free value (log 5). -/
opaque Config.poisonData : Nat → BitVec 512

/-- A byte a peer module returns for a read of its window inside one data-mover command: what the peer holds is
outside the module. Arguments: the counter, the window address. Free value (log 4). -/
opaque Config.peerByte : Nat → Nat → Byte
/-- Whether the data of an engine's read of a peer window comes poisoned (R751). -/
opaque Config.peerPoison : Nat → Bool

/-- The interruption in nanoseconds that a DOMAIN_DROP record reports (R647, R658), within the 40 µs of R657: the spec bounds it
and this model has no time within a step. Free value (log 11). -/
opaque Config.dropNs : Nat → BitVec 32

/-- The traffic class in which an engine's accesses to a module leave (R746): the spec names classes and gives no rule that chooses
one. Arguments: source engine, module. Free value (log 24). -/
opaque Config.trafficClass : Nat → Nat → BitVec 3

/-- The energy in nJ of a run in the 1 ms interval in which it ends (R600, R602): a measurement. Free value (log 25). -/
opaque Config.tailEnergy : Nat → BitVec 40

/-- SHA-384 of a message, as a number; the spec names the standard function and not its definition (R436, R727). Arguments: length in
bytes, the message as a little-endian number. Free value (log 20). -/
opaque Config.sha384 : Nat → Nat → Nat

/-- ECDSA P-384 verification (R436, R727, R736). Arguments: the key (0 to 3 root-key slots, 4 bay qualification, 5 debug), the digest
signed, the signature. Free value (log 20). -/
opaque Config.ecdsaOk : Nat → Nat → Nat → Bool

/-- A qualification number stands on a bay revocation list, by the list's digest (R437). Free value (log 20). -/
opaque Config.bayRevoked : Nat → Nat → Bool

/-- How a module of a link retrains where a held RETRAIN acts at resume (R451, R695): 0 x16, 1 x8, else disabled. Free value (log 26). -/
opaque Config.modTrain : Nat → Nat

/-- The Device Serial Number of R456 and R736, which each module has of its own (log 23). -/
opaque Config.serialNumber : Word

/-- The fused MAC base of the module (R741), which each module has of its own (log 23). -/
opaque Config.macBase : BitVec 48

/-- How many outer lines a DRAIN that is stopped in its transfer has written (R143): the spec gives no point of time. Free value (log 86). -/
opaque Config.cutLines : Nat → Nat

/-- Flits that a message between dies takes on a link (R421, R683): the spec counts them and does not give their number. Free value (log 92). -/
opaque Config.flits : Nat → BitVec 16

/-- The instruction codes of the TAPs for IDCODE (0), SAMPLE/PRELOAD (1) and EXTEST (2), of 10 bits (R444, R446): the spec names the
instructions and not their codes. Free value (log 94). -/
opaque Config.tapCode : Nat → BitVec 10

/-- The die revision of each die and Fowekin's JEP106 code, which an IDCODE shows (R446); the spec gives neither. Free values (log 94). -/
opaque Config.dieRevision : Nat → BitVec 4
opaque Config.jep106 : BitVec 11

/-- Words of the dirty-log bitmaps that a hub's event SRAM stages at once (R550, R551): the spec gives its bytes and not the size of an
entry. Free value (log 95). -/
opaque Config.stagingWords : Nat

end Sys2Proof
end

