-- ==== Sys2Proof/Machine/Tabs.lean ====
section
/-! DEFINITION. Sys2Proof/Machine/Tabs.lean: the operations on sparse tables and the bit-field helpers.
A table holds memory bytes, registers, tile words and every other indexed collection of the device. -/

namespace Sys2Proof.Machine

open Sys2Proof

/-- The value at `k`: the listed one, else the default. -/
def tabGet {α : Type} (d : Nat → α) : Tab α → Nat → α
  | [], k => d k
  | e :: t, k => if e.1 = k then e.2 else tabGet d t k

/-- Remove every entry of key `k`. -/
def tabDel {α : Type} (t : Tab α) (k : Nat) : Tab α := t.filter (fun e => e.1 != k)

/-- Insert an entry before the first greater key. -/
def tabIns {α : Type} (k : Nat) (v : α) : Tab α → Tab α
  | [] => [(k, v)]
  | e :: t => if k < e.1 then (k, v) :: e :: t else e :: tabIns k v t

/-- Write `v` at `k`, keeping the canonical form: a value equal to the default leaves no entry. -/
def tabSet {α : Type} [DecidableEq α] (d : Nat → α) (t : Tab α) (k : Nat) (v : α) : Tab α :=
  if v = d k then tabDel t k else tabIns k v (tabDel t k)

/-- Keys strictly rising. -/
def tabSorted {α : Type} : Tab α → Bool
  | [] => true
  | [_] => true
  | e :: f :: t => decide (e.1 < f.1) && tabSorted (f :: t)

/-- The canonical form: keys strictly rising and no entry at its default. -/
def tabWf {α : Type} [DecidableEq α] (d : Nat → α) (t : Tab α) : Bool :=
  tabSorted t && t.all (fun e => !decide (e.2 = d e.1))

/-- Apply `f` to the value at `k`. -/
def tabMod {α : Type} [DecidableEq α] (d : Nat → α) (t : Tab α) (k : Nat) (f : α → α) : Tab α :=
  tabSet d t k (f (tabGet d t k))

/-! ## Bit fields -/

/-- The field `[msb:lsb]` of a number (R20). -/
def nField (w msb lsb : Nat) : Nat := (w / 2 ^ lsb) % 2 ^ (msb + 1 - lsb)

/-- The field `[msb:lsb]` of a bit vector, as a number (R20). -/
def fld {n : Nat} (w : BitVec n) (msb lsb : Nat) : Nat := nField w.toNat msb lsb

/-- Bit `i` of a bit vector. -/
def bit {n : Nat} (w : BitVec n) (i : Nat) : Bool := w.getLsbD i

/-- Replace the field `[msb:lsb]` by `v` modulo its width. -/
def putFld {n : Nat} (w : BitVec n) (msb lsb v : Nat) : BitVec n :=
  let width := msb + 1 - lsb
  let old := nField w.toNat msb lsb
  BitVec.ofNat n (w.toNat - old * 2 ^ lsb + (v % 2 ^ width) * 2 ^ lsb)

/-- Set or clear bit `i`. -/
def putBit {n : Nat} (w : BitVec n) (i : Nat) (b : Bool) : BitVec n := putFld w i i b.toNat

/-- The signed value of the low `n` bits of a number. -/
def sextNat (n v : Nat) : Int :=
  if v % 2 ^ n < 2 ^ (n - 1) then ((v % 2 ^ n : Nat) : Int) else ((v % 2 ^ n : Nat) : Int) - ((2 ^ n : Nat) : Int)

/-- The low `n` bits of an integer, as a number. -/
def wrapNat (n : Nat) (x : Int) : Nat := (x % ((2 ^ n : Nat) : Int)).toNat

/-- Byte `i` of a bit vector (R21: byte 0 is the least significant). -/
def byteOf {n : Nat} (w : BitVec n) (i : Nat) : Byte := BitVec.ofNat 8 (w.toNat / 2 ^ (8 * i))

/-- The number a little-endian list of bytes holds (R21). -/
def leNat : List Byte → Nat
  | [] => 0
  | b :: t => b.toNat + 256 * leNat t

/-- The `n` bytes of a number, least significant first (R21). -/
def leBytes : Nat → Nat → List Byte
  | 0, _ => []
  | n + 1, v => BitVec.ofNat 8 v :: leBytes n (v / 256)

/-- Saturating increment of a count of `w` bits. -/
def satAdd (w old add : Nat) : Nat := min (old + add) (2 ^ w - 1)

/-- The numbers `0 .. n-1` whose bit is set. -/
def bitsOf (n v : Nat) : List Nat := (List.range n).filter (fun i => v.testBit i)

/-- The mask with the listed bits set. -/
def maskOf (l : List Nat) : Nat := l.foldl (fun a i => a ||| 2 ^ i) 0

/-- Rounded-up quotient. -/
def ceilDiv (a b : Nat) : Nat := (a + b - 1) / b

/-- Replace the head-first element that satisfies `p` by `f` of it. -/
def updFirst {α : Type} (p : α → Bool) (f : α → α) : List α → List α
  | [] => []
  | x :: t => if p x then f x :: t else x :: updFirst p f t

/-- Replace every element that satisfies `p` by `f` of it. -/
def updAll {α : Type} (p : α → Bool) (f : α → α) (l : List α) : List α :=
  l.map (fun x => if p x then f x else x)

end Sys2Proof.Machine
end

