-- ==== Sys2Proof/Machine/Flags.lean ====
section
/-! DEFINITION. Sys2Proof/Machine/Flags.lean: number formats, rounding, conversion, the arithmetic flags and
the matrix chunk functions ("Number formats and arithmetic", R68 to R100). All arithmetic is exact on
signs, magnitudes and binary exponents, with one rounding per result. -/

namespace Sys2Proof.Machine

open Sys2Proof

/-! ## Formats (R68 to R74) -/

/-- The formats a 4-bit code names (R68), and FP64 of the vector pipes. -/
inductive NumFmt where
  | fp32 | bf16 | fp16 | e4m3 | e5m2 | e2m1 | int32 | int8 | int4 | t2 | fp64
deriving DecidableEq, Repr

/-- R68: the format of a code; codes 0xA to 0xF are reserved. -/
def fmtOfCode (c : Nat) : Option NumFmt :=
  match c with
  | 0 => some .fp32 | 1 => some .bf16 | 2 => some .fp16 | 3 => some .e4m3 | 4 => some .e5m2
  | 5 => some .e2m1 | 6 => some .int32 | 7 => some .int8 | 8 => some .int4 | 9 => some .t2
  | _ => none

/-- Width of an element in bits. -/
def fmtBits : NumFmt → Nat
  | .fp32 => 32 | .bf16 => 16 | .fp16 => 16 | .e4m3 => 8 | .e5m2 => 8 | .e2m1 => 4
  | .int32 => 32 | .int8 => 8 | .int4 => 4 | .t2 => 2 | .fp64 => 64

/-- Exponent bits, fraction bits and bias of a floating-point format (R70). -/
def fmtXFB : NumFmt → Nat × Nat × Nat
  | .fp32 => (8, 23, 127) | .bf16 => (8, 7, 127) | .fp16 => (5, 10, 15) | .e4m3 => (4, 3, 7)
  | .e5m2 => (5, 2, 15) | .e2m1 => (2, 1, 1) | .fp64 => (11, 52, 1023) | _ => (0, 0, 0)

/-- Whether the format is a floating-point one. -/
def fmtIsFloat : NumFmt → Bool
  | .int32 | .int8 | .int4 | .t2 => false
  | _ => true

/-- Whether the format has infinities (R70). -/
def fmtHasInf : NumFmt → Bool
  | .fp32 | .bf16 | .fp16 | .e5m2 | .fp64 => true
  | _ => false

/-- The one NaN the device writes (R76); none in E2M1 and the integer formats. -/
def fmtNaN : NumFmt → Option Nat
  | .fp32 => some 0x7FC00000 | .bf16 => some 0x7FC0 | .fp16 => some 0x7E00 | .e4m3 => some 0x7F
  | .e5m2 => some 0x7E | .fp64 => some 0x7FF8000000000000 | _ => none

/-- Encoding of the largest finite magnitude (R70, R93). -/
def fmtMaxBits : NumFmt → Nat
  | .fp32 => 0x7F7FFFFF | .bf16 => 0x7F7F | .fp16 => 0x7BFF | .e4m3 => 0x7E | .e5m2 => 0x7B
  | .e2m1 => 0x7 | .fp64 => 0x7FEFFFFFFFFFFFFF | _ => 0

/-- Encoding of +infinity where the format has one. -/
def fmtInfBits : NumFmt → Nat
  | .fp32 => 0x7F800000 | .bf16 => 0x7F80 | .fp16 => 0x7C00 | .e5m2 => 0x7C
  | .fp64 => 0x7FF0000000000000 | _ => 0

/-- May the format be a matrix operand (R68). -/
def fmtOperand : NumFmt → Bool
  | .int32 | .fp64 => false
  | _ => true

/-- May the format be the output of a drain or conversion (R68). -/
def fmtOutput : NumFmt → Bool
  | .t2 | .fp64 => false
  | _ => true

/-- An element's value: NaN, a signed infinity, or `(-1)^s * m * 2^q` (R74). -/
inductive FVal where
  | nan
  | inf (s : Bool)
  | fin (s : Bool) (m : Nat) (q : Int)
deriving DecidableEq, Repr

/-- R74: the decode procedure on a layout of `x` exponent and `f` fraction bits. -/
def decodeLayout (x f b bits : Nat) : FVal :=
  let s := bits.testBit (x + f)
  let ef := nField bits (x + f - 1) f
  let fr := bits % 2 ^ f
  if ef = 0 then .fin s fr (1 - (b : Int) - (f : Int))
  else .fin s (2 ^ f + fr) ((ef : Int) - (b : Int) - (f : Int))

/-- The value of an encoding in any format (R70 to R74). The reserved T2 code reads as 0 (R72). -/
def decodeVal (fm : NumFmt) (bits : Nat) : FVal :=
  match fm with
  | .int32 => let v := sextNat 32 bits; .fin (v < 0) v.natAbs 0
  | .int8 => let v := sextNat 8 bits; .fin (v < 0) v.natAbs 0
  | .int4 => let v := sextNat 4 bits; .fin (v < 0) v.natAbs 0
  | .t2 =>
    match bits % 4 with
    | 1 => .fin false 1 0
    | 3 => .fin true 1 0
    | _ => .fin false 0 0
  | fm =>
    let (x, f, b) := fmtXFB fm
    let ef := nField bits (x + f - 1) f
    let fr := bits % 2 ^ f
    let s := bits.testBit (x + f)
    if fmtHasInf fm && ef == 2 ^ x - 1 then (if fr = 0 then .inf s else .nan)
    else if fm == .e4m3 && bits % 128 == 127 then .nan
    else decodeLayout x f b bits

/-- The exact signed integer of an INT8, INT4, INT32 or T2 element (R71, R72). -/
def decodeInt (fm : NumFmt) (bits : Nat) : Int :=
  match decodeVal fm bits with
  | .fin s m q => if s then -((m * 2 ^ q.toNat : Nat) : Int) else ((m * 2 ^ q.toNat : Nat) : Int)
  | _ => 0

/-! ## Flags (R77) -/

/-- The 8-bit set of sticky arithmetic flags of a command (R77). -/
abbrev ArithFlags := BitVec 8

/-- NV, bit 0 of R77. -/
def flagNV : ArithFlags := 1#8
/-- OF, bit 1 of R77. -/
def flagOF : ArithFlags := 2#8
/-- IOV, bit 2 of R77. -/
def flagIOV : ArithFlags := 4#8
/-- NI, bit 3 of R77. -/
def flagNI : ArithFlags := 8#8
/-- T2R, bit 4 of R77. -/
def flagT2R : ArithFlags := 16#8

/-! ## Rounding (R80, R91, R92, R97) -/

/-- The rounding modes of R91; code 0b11 is reserved. -/
inductive Rnd where
  | rne | rtz | sr
deriving DecidableEq, Repr

/-- R91: the RND encodings. -/
def rndOfCode (c : Nat) : Option Rnd :=
  match c with
  | 0 => some .rne | 1 => some .rtz | 2 => some .sr | _ => none

/-- Round the magnitude `m * 2^q` to an integer count of units `2^qu` (R92, R97). `r` is the random word,
used by stochastic rounding alone. -/
def roundUnits (mode : Rnd) (r m : Nat) (q qu : Int) : Nat :=
  if qu ≤ q then m * 2 ^ (q - qu).toNat
  else
    let sh := (qu - q).toNat
    let t := m / 2 ^ sh
    let rem := m % 2 ^ sh
    match mode with
    | .rne => if 2 ^ sh < 2 * rem ∨ (2 * rem = 2 ^ sh ∧ t % 2 = 1) then t + 1 else t
    | .rtz => t
    | .sr => if 2 ^ 32 ≤ rem * 2 ^ 32 / 2 ^ sh + r then t + 1 else t

/-- Binary exponent of a nonzero magnitude: `floor(log2 (m * 2^q))`. -/
def magExp (m : Nat) (q : Int) : Int := (m.log2 : Int) + q

/-- Is `t * 2^q` above `m * 2^p`. -/
def magGt (t : Nat) (q : Int) (m : Nat) (p : Int) : Bool :=
  if q ≤ p then decide (m * 2 ^ (p - q).toNat < t) else decide (m < t * 2 ^ (q - p).toNat)

/-- The encoding of `(-1)^s * t * 2^qu`, where `t` is at most `2^(F+1)` and `qu` is the unit of R92. -/
def encodeFin (fm : NumFmt) (s : Bool) (t : Nat) (qu : Int) : Nat :=
  let (x, f, b) := fmtXFB fm
  let sg := if s then 2 ^ (x + f) else 0
  if t < 2 ^ f then sg + t
  else
    let t' := if t = 2 ^ (f + 1) then 2 ^ f else t
    let e := (if t = 2 ^ (f + 1) then qu + 1 else qu) + (f : Int) + (b : Int)
    sg + e.toNat * 2 ^ f + (t' - 2 ^ f)

/-- The result of an overflow by the overflow table of R93. `finite` tells a finite source from an infinite one. -/
def overflowBits (fm : NumFmt) (mode : Rnd) (sat s finite : Bool) : Nat :=
  let (x, f, _) := fmtXFB fm
  let sg := if s then 2 ^ (x + f) else 0
  match fm with
  | .e2m1 => sg + 7
  | fm =>
    if sat then sg + fmtMaxBits fm
    else if mode == .rtz && finite then sg + fmtMaxBits fm
    else if fm == .e4m3 then 0x7F
    else sg + fmtInfBits fm

/-- Round an exact finite value to a floating-point format (R92, R93, R97), with the flags it sets. -/
def roundFloat (fm : NumFmt) (mode : Rnd) (sat : Bool) (r : Nat) (s : Bool) (m : Nat) (q : Int) :
    Nat × ArithFlags :=
  let (x, f, b) := fmtXFB fm
  let sg := if s then 2 ^ (x + f) else 0
  if m = 0 then (sg, 0)
  else
    let emin : Int := 1 - (b : Int)
    let qu := max (magExp m q) emin - (f : Int)
    let t := roundUnits mode r m q qu
    match decodeLayout x f b (fmtMaxBits fm) with
    | .fin _ mm mq =>
      if magGt t qu mm mq then (overflowBits fm mode sat s true, flagOF)
      else (encodeFin fm s t qu, 0)
    | _ => (sg, 0)

/-- Convert an exact finite value to an integer format (R92, R93). -/
def roundInt (fm : NumFmt) (mode : Rnd) (sat : Bool) (r : Nat) (s : Bool) (m : Nat) (q : Int) :
    Nat × ArithFlags :=
  let n := fmtBits fm
  let t : Int := (roundUnits mode r m q 0 : Nat)
  let v : Int := if s then -t else t
  let hi : Int := 2 ^ (n - 1) - 1
  let lo : Int := -(2 ^ (n - 1))
  if v ≤ hi ∧ lo ≤ v then (wrapNat n v, 0)
  else if sat then (wrapNat n (if v < 0 then lo else hi), flagOF)
  else (wrapNat n v, flagOF)

/-- R92 to R97: convert a value to the output format `fm`. `src32` says the source is FP32, whose
infinities and finite values reach FP32 unchanged (the caller keeps their bits). -/
def convertVal (fm : NumFmt) (mode : Rnd) (sat : Bool) (r : Nat) (v : FVal) : Nat × ArithFlags :=
  match v with
  | .nan =>
    match fmtNaN fm with
    | some n => (n, 0)
    | none => (0, flagNV)
  | .inf s =>
    if fmtIsFloat fm then (overflowBits fm mode sat s false, flagOF)
    else (wrapNat (fmtBits fm) (if s then -(2 ^ (fmtBits fm - 1)) else 2 ^ (fmtBits fm - 1) - 1), flagOF)
  | .fin s m q =>
    if fmtIsFloat fm then roundFloat fm mode sat r s m q else roundInt fm mode sat r s m q

/-- Conversion of an element of format `src` (R92: FP32 to FP32 keeps every value but a NaN). -/
def convertBits (src fm : NumFmt) (mode : Rnd) (sat : Bool) (r bits : Nat) : Nat × ArithFlags :=
  match decodeVal src bits with
  | .nan => convertVal fm mode sat r .nan
  | v => if src == .fp32 && fm == .fp32 then (bits % 2 ^ 32, 0) else convertVal fm mode sat r v

/-- R95: an INT32 value wrapped or clamped to an integer output format. -/
def intConvert (fm : NumFmt) (sat : Bool) (v : Int) : Nat × ArithFlags :=
  roundInt fm .rne sat 0 (v < 0) v.natAbs 0

/-! ## The stochastic generator (R96) -/

/-- R96: the 32-bit random word of a seed, a stream and an element index. -/
def srBits (seed : BitVec 64) (stream : Nat) (index : Nat) : Nat :=
  let x : BitVec 64 := seed ^^^ (BitVec.ofNat 64 stream * 0x9E3779B97F4A7C15#64)
  let x := x + BitVec.ofNat 64 index * 0xA3B195C74E2D6F19#64
  let x := x ^^^ (x >>> 31)
  let x := x * 0xE7F32B6D1C859A43#64
  let x := x ^^^ (x >>> 29)
  let x := x * 0xA3B195C74E2D6F19#64
  let x := x ^^^ (x >>> 32)
  x.toNat % 2 ^ 32

/-- The element index of row `i` and column `j` (R96). -/
def srIndex (i j : Nat) : Nat := (i % 2 ^ 24) * 2 ^ 24 + j % 2 ^ 24

/-! ## IEEE arithmetic with the canonical NaN (R76, R98) -/

/-- An exact sum of two finite values, or of their infinities; `none` is an invalid operation. -/
def addVal (a b : FVal) : Option FVal :=
  match a, b with
  | .nan, _ => some .nan
  | _, .nan => some .nan
  | .inf s, .inf t => if s = t then some (.inf s) else none
  | .inf s, .fin _ _ _ => some (.inf s)
  | .fin _ _ _, .inf t => some (.inf t)
  | .fin s m q, .fin t n p =>
    let lo := min q p
    let x : Int := (m * 2 ^ (q - lo).toNat : Nat)
    let y : Int := (n * 2 ^ (p - lo).toNat : Nat)
    let sum := (if s then -x else x) + (if t then -y else y)
    if sum = 0 then some (.fin (s && t) 0 lo) else some (.fin (decide (sum < 0)) sum.natAbs lo)

/-- An exact product; `none` is infinity times zero. -/
def mulVal (a b : FVal) : Option FVal :=
  match a, b with
  | .nan, _ => some .nan
  | _, .nan => some .nan
  | .inf s, .inf t => some (.inf (s ^^ t))
  | .inf s, .fin t n _ => if n = 0 then none else some (.inf (s ^^ t))
  | .fin s m _, .inf t => if m = 0 then none else some (.inf (s ^^ t))
  | .fin s m q, .fin t n p => some (.fin (s ^^ t) (m * n) (q + p))

/-- A quotient carried to enough bits with a sticky last bit, so that one rounding is correct. `none` is
zero by zero or infinity by infinity. DEDUCED (log 21): a nonzero value by zero is a signed infinity, no flag. -/
def divVal (a b : FVal) : Option FVal :=
  match a, b with
  | .nan, _ => some .nan
  | _, .nan => some .nan
  | .inf _, .inf _ => none
  | .inf s, .fin t _ _ => some (.inf (s ^^ t))
  | .fin s _ _, .inf t => some (.fin (s ^^ t) 0 0)
  | .fin s m q, .fin t n p =>
    if n = 0 then (if m = 0 then none else some (.inf (s ^^ t)))
    else
      let k := 130 + n.log2
      let d := m * 2 ^ k / n
      let st := if m * 2 ^ k % n = 0 then 0 else 1
      some (.fin (s ^^ t) (2 * d + st) (q - p - (k : Int) - 1))

/-- Integer square root by bits, structurally recursive on the number of result bits. -/
def isqrtBits (n : Nat) : Nat → Nat → Nat
  | 0, r => r
  | k + 1, r =>
    let c := r + 2 ^ k
    isqrtBits n k (if c * c ≤ n then c else r)

/-- A square root carried to enough bits with a sticky last bit; `none` for a negative nonzero value. -/
def sqrtVal (a : FVal) : Option FVal :=
  match a with
  | .nan => some .nan
  | .inf s => if s then none else some (.inf false)
  | .fin s m q =>
    if m = 0 then some (.fin s 0 0)
    else if s then none
    else
      let q2 := if q % 2 = 0 then q else q - 1
      let m2 := if q % 2 = 0 then m else 2 * m
      let big := m2 * 2 ^ 260
      let r := isqrtBits big 170 0
      let st := if r * r = big then 0 else 1
      some (.fin false (2 * r + st) (q2 / 2 - 130 - 1))

/-- Whether a value is NaN. -/
def isNaN : FVal → Bool
  | .nan => true
  | _ => false

/-- Order of two values that are not NaN: `-0` is below `+0` when `zeros` is set (R155), equal otherwise (R802). -/
def valLt (zeros : Bool) (a b : FVal) : Bool :=
  match a, b with
  | .nan, _ => false
  | _, .nan => false
  | .inf s, .inf t => s && !t
  | .inf s, .fin _ _ _ => s
  | .fin _ _ _, .inf t => !t
  | .fin s m q, .fin t n p =>
    let lo := min q p
    let x : Int := (m * 2 ^ (q - lo).toNat : Nat)
    let y : Int := (n * 2 ^ (p - lo).toNat : Nat)
    let x := if s then -x else x
    let y := if t then -y else y
    decide (x < y) || (zeros && decide (x = 0) && decide (y = 0) && s && !t)

/-- Value equality of two values (R802: `-0` equals `+0`, a NaN equals nothing). -/
def valEq (a b : FVal) : Bool := !isNaN a && !isNaN b && !valLt false a b && !valLt false b a

/-- Finish a floating-point operation: an invalid one gives the canonical NaN and NV; a NaN among the
inputs gives the canonical NaN and NI; else one rounding (R76, R77, R98). -/
def finishOp (fm : NumFmt) (mode : Rnd) (ni : Bool) (v : Option FVal) : Nat × ArithFlags :=
  let nanBits := (fmtNaN fm).getD 0
  if ni then (nanBits, flagNI)
  else
    match v with
    | none => (nanBits, flagNV)
    | some .nan => (nanBits, flagNI)
    | some (.inf s) =>
      let (x, f, _) := fmtXFB fm
      ((if s then 2 ^ (x + f) else 0) + fmtInfBits fm, 0)
    | some (.fin s m q) => roundFloat fm mode false 0 s m q

/-- FP add (R98). -/
def fpAdd (fm : NumFmt) (mode : Rnd) (a b : Nat) : Nat × ArithFlags :=
  let x := decodeVal fm a
  let y := decodeVal fm b
  finishOp fm mode (isNaN x || isNaN y) (addVal x y)

/-- Negate the sign of an encoding. -/
def fpNeg (fm : NumFmt) (a : Nat) : Nat :=
  let (x, f, _) := fmtXFB fm
  Nat.xor a (2 ^ (x + f))

/-- FP subtract (R98). -/
def fpSub (fm : NumFmt) (mode : Rnd) (a b : Nat) : Nat × ArithFlags :=
  let x := decodeVal fm a
  let y := decodeVal fm b
  finishOp fm mode (isNaN x || isNaN y) (addVal x (decodeVal fm (fpNeg fm b)))

/-- FP multiply (R98). -/
def fpMul (fm : NumFmt) (mode : Rnd) (a b : Nat) : Nat × ArithFlags :=
  let x := decodeVal fm a
  let y := decodeVal fm b
  finishOp fm mode (isNaN x || isNaN y) (mulVal x y)

/-- Fused multiply-add `a * b + c` with one rounding (R98). -/
def fpFma (fm : NumFmt) (mode : Rnd) (a b c : Nat) : Nat × ArithFlags :=
  let x := decodeVal fm a
  let y := decodeVal fm b
  let z := decodeVal fm c
  finishOp fm mode (isNaN x || isNaN y || isNaN z)
    (match mulVal x y with
     | none => none
     | some p => addVal p z)

/-- FP divide, correctly rounded (R155). -/
def fpDiv (fm : NumFmt) (mode : Rnd) (a b : Nat) : Nat × ArithFlags :=
  let x := decodeVal fm a
  let y := decodeVal fm b
  finishOp fm mode (isNaN x || isNaN y) (divVal x y)

/-- FP square root, correctly rounded (R155). -/
def fpSqrt (fm : NumFmt) (mode : Rnd) (a : Nat) : Nat × ArithFlags :=
  let x := decodeVal fm a
  finishOp fm mode (isNaN x) (sqrtVal x)

/-- FP minimum of IEEE 754-2019 (R155). -/
def fpMin (fm : NumFmt) (a b : Nat) : Nat × ArithFlags :=
  let x := decodeVal fm a
  let y := decodeVal fm b
  if isNaN x || isNaN y then ((fmtNaN fm).getD 0, flagNI)
  else if valLt true y x then (b, 0) else (a, 0)

/-- FP maximum of IEEE 754-2019 (R155). -/
def fpMax (fm : NumFmt) (a b : Nat) : Nat × ArithFlags :=
  let x := decodeVal fm a
  let y := decodeVal fm b
  if isNaN x || isNaN y then ((fmtNaN fm).getD 0, flagNI)
  else if valLt true x y then (b, 0) else (a, 0)

/-- R89: the binary32 product of the scale steps. -/
def mul32 (a b : Nat) : Nat × ArithFlags := fpMul .fp32 .rne a b

/-- R90: INT32 to FP32, round to nearest even. -/
def int32ToFp32 (v : Nat) : Nat :=
  let x := sextNat 32 v
  (roundFloat .fp32 .rne false 0 (x < 0) x.natAbs 0).1

/-! ## Matrix chunks (R78 to R87) -/

/-- One exact term of a chunk: sign, magnitude, exponent. -/
abbrev Term := Bool × Nat × Int

/-- The finite parts of a value as a term. -/
def termOf : FVal → Term
  | .fin s m q => (s, m, q)
  | _ => (false, 0, 0)

/-- R85: the high and low part of a finite FP32 operand. -/
def split32 (v : FVal) : Term × Term :=
  let (s, m, q) := termOf v
  ((s, m / 2 ^ 12, q + 12), (s, m % 2 ^ 12, q))

/-- The exact product of two terms. -/
def mulTerm (a b : Term) : Term := (a.1 ^^ b.1, a.2.1 * b.2.1, a.2.2 + b.2.2)

/-- R79, R86: the product terms of one position of k. -/
def productTerms (pass : Nat) (a b : FVal) : List Term :=
  if pass = 0 then [mulTerm (termOf a) (termOf b)]
  else
    let (ah, al) := split32 a
    let (bh, bl) := split32 b
    if pass = 1 then [mulTerm ah bh]
    else if pass = 2 then [mulTerm ah bh, mulTerm ah bl, mulTerm al bh]
    else [mulTerm ah bh, mulTerm ah bl, mulTerm al bh, mulTerm al bl]

/-- Whether a value is a zero. -/
def isZeroVal : FVal → Bool
  | .fin _ m _ => m == 0
  | _ => false

/-- Whether a value is an infinity. -/
def isInfVal : FVal → Bool
  | .inf _ => true
  | _ => false

/-- Sign of a value. -/
def signVal : FVal → Bool
  | .inf s => s
  | .fin s _ _ => s
  | .nan => false

/-- R80: round the exact sum `S * 2^w` to FP32. -/
def roundFp32Rne (sum : Int) (w : Int) : Nat × ArithFlags :=
  if sum = 0 then (0, 0) else roundFloat .fp32 .rne false 0 (decide (sum < 0)) sum.natAbs w

/-- The infinities that take part in a chunk: those of the products and of the accumulator (R79). -/
def chunkInfs (acc : FVal) (ab : List (FVal × FVal)) : List Bool :=
  ((ab.filter (fun p => isInfVal p.1 || isInfVal p.2)).map (fun p => signVal p.1 ^^ signVal p.2))
    ++ (if isInfVal acc then [signVal acc] else [])

/-- R79: the truncated sum over the alignment window. -/
def windowSum (w : Int) (terms : List Term) : Int :=
  terms.foldl (fun acc t =>
    let mag : Nat := if w ≤ t.2.2 then t.2.1 * 2 ^ (t.2.2 - w).toNat else t.2.1 / 2 ^ (w - t.2.2).toNat
    if t.1 then acc - (mag : Int) else acc + (mag : Int)) 0

/-- R79: the floating-point chunk function on `n` operand pairs. -/
def fpChunk (acc : Nat) (ab : List (FVal × FVal)) (pass : Nat) : Nat × ArithFlags :=
  let av := decodeVal .fp32 acc
  if isNaN av || ab.any (fun p => isNaN p.1 || isNaN p.2) then (0x7FC00000, flagNI)
  else if ab.any (fun p => (isInfVal p.1 && isZeroVal p.2) || (isZeroVal p.1 && isInfVal p.2)) then
    (0x7FC00000, flagNV)
  else
    let infs := chunkInfs av ab
    if infs.contains true && infs.contains false then (0x7FC00000, flagNV)
    else if infs.contains false then (0x7F800000, 0)
    else if infs.contains true then (0xFF800000, 0)
    else
      let terms := termOf av :: ab.flatMap (fun p => productTerms pass p.1 p.2)
      let wbits : Int := if pass = 3 then 50 else 27
      let nz := terms.filter (fun t => t.2.1 != 0)
      match nz with
      | [] => (if terms.all (fun t => t.1) then 0x80000000 else 0, 0)
      | t0 :: rest =>
        let emax := rest.foldl (fun e t => max e (magExp t.2.1 t.2.2)) (magExp t0.2.1 t0.2.2)
        let w := emax - (wbits - 1)
        roundFp32Rne (windowSum w nz) w

/-- R82: the integer chunk function; `iacc` selects saturation. -/
def intChunk (acc : Nat) (ab : List (Int × Int)) (iacc : Bool) : Nat × ArithFlags :=
  let s := ab.foldl (fun a p => a + p.1 * p.2) (sextNat 32 acc)
  if (2 : Int) ^ 31 - 1 < s ∨ s < -((2 : Int) ^ 31) then
    if iacc then (wrapNat 32 (if s < 0 then -((2 : Int) ^ 31) else (2 : Int) ^ 31 - 1), flagIOV)
    else (wrapNat 32 s, flagIOV)
  else (wrapNat 32 s, 0)

/-- R102 and the chunk table: K of a width class in bits; FP32 counts as the 16-bit class. -/
def classK (bits : Nat) : Nat :=
  if bits = 32 then 64 else if bits = 16 then 64 else if bits = 8 then 128 else if bits = 4 then 256 else 512

end Sys2Proof.Machine
end

