-- ==== Sys2Proof/Machine/Registers.lean ====
section
/-! DEFINITION. Sys2Proof/Machine/Registers.lean: the BAR0 register map (R66) with every register's offset, reset
word, fields, access codes and listed encodings, from the register tables of the spec's chapters. A register
word is the one home of its fields; a reset entry "fuse" or "fw" is zero here and is loaded by the
start-up commands (R27). Encodings a field's table does not list are reserved (R25). -/

namespace Sys2Proof.Machine

open Sys2Proof

/-- Access codes of R23. -/
inductive Acc where
  | ro | rw | wo | w1c | w1s | rwl
deriving DecidableEq, Repr

/-- One field of a register: bits, access code, and the ranges of encodings its table lists ([] = all). -/
structure FieldSpec where
  msb : Nat
  lsb : Nat
  acc : Acc
  legal : List (Nat × Nat)
deriving DecidableEq, Repr

/-- One register family: BAR0 offset of its first instance, two array dimensions (count, stride), its
reset word, and its fields. -/
structure RegSpec where
  base : Nat
  n1 : Nat
  s1 : Nat
  n2 : Nat
  s2 : Nat
  reset : Nat
  fields : List FieldSpec
deriving DecidableEq, Repr

/-- A field by place: BAR0 offset of its register, and its bits. -/
structure Fld where
  off : Nat
  msb : Nat
  lsb : Nat
deriving DecidableEq, Repr

/-- CD_CFG (R320 of 07_unified_cache.md). -/
def specCDCFG : RegSpec :=
  ⟨0x300000, 1, 0x8, 1, 0x8, 0x4001018, [⟨63, 63, .w1s, []⟩, ⟨26, 16, .rwl, [(0, 1024)]⟩, ⟨12, 8, .rwl, [(0, 24)]⟩, ⟨5, 4, .rwl, [(0, 2)]⟩,
    ⟨3, 0, .rwl, [(0, 8)]⟩]⟩

/-- BAR0 offset of CD_CFG. -/
def offCD_CFG : Nat := 0x300000

/-- CD_CFG.LOCK. -/
def fCD_CFG_LOCK : Fld := ⟨offCD_CFG, 63, 63⟩
/-- CD_CFG.DGUEST_MAX. -/
def fCD_CFG_DGUEST_MAX : Fld := ⟨offCD_CFG, 26, 16⟩
/-- CD_CFG.KEEP_MAX. -/
def fCD_CFG_KEEP_MAX : Fld := ⟨offCD_CFG, 12, 8⟩
/-- CD_CFG.GUEST_MODE. -/
def fCD_CFG_GUEST_MODE : Fld := ⟨offCD_CFG, 5, 4⟩
/-- CD_CFG.GUEST_WAYS. -/
def fCD_CFG_GUEST_WAYS : Fld := ⟨offCD_CFG, 3, 0⟩

/-- CD_ORDER (R321 of 07_unified_cache.md). -/
def specCDORDER : RegSpec :=
  ⟨0x300008, 1, 0x8, 1, 0x8, 0x1, [⟨0, 0, .rw, []⟩]⟩

/-- BAR0 offset of CD_ORDER. -/
def offCD_ORDER : Nat := 0x300008

/-- CD_ORDER.MODE. -/
def fCD_ORDER_MODE : Fld := ⟨offCD_ORDER, 0, 0⟩

/-- CD_STATUS (R322 of 07_unified_cache.md). -/
def specCDSTATUS : RegSpec :=
  ⟨0x300010, 1, 0x8, 1, 0x8, 0x3F0000000000, [⟨63, 48, .ro, []⟩, ⟨45, 40, .ro, []⟩, ⟨36, 36, .ro, []⟩, ⟨35, 0, .ro, []⟩]⟩

/-- BAR0 offset of CD_STATUS. -/
def offCD_STATUS : Nat := 0x300010

/-- CD_STATUS.DROP_COUNT. -/
def fCD_STATUS_DROP_COUNT : Fld := ⟨offCD_STATUS, 63, 48⟩
/-- CD_STATUS.LAST_DEAD. -/
def fCD_STATUS_LAST_DEAD : Fld := ⟨offCD_STATUS, 45, 40⟩
/-- CD_STATUS.DROP_ACTIVE. -/
def fCD_STATUS_DROP_ACTIVE : Fld := ⟨offCD_STATUS, 36, 36⟩
/-- CD_STATUS.MEMBERS. -/
def fCD_STATUS_MEMBERS : Fld := ⟨offCD_STATUS, 35, 0⟩

/-- CD_SLICE_CFG (R323 of 07_unified_cache.md). -/
def specCDSLICECFG : RegSpec :=
  ⟨0x300100, 16, 0x8, 1, 0x8, 0x0, [⟨12, 8, .rw, []⟩, ⟨1, 1, .rw, []⟩, ⟨0, 0, .rw, []⟩]⟩

/-- BAR0 offset of CD_SLICE_CFG. -/
def offCD_SLICE_CFG (i : Nat) : Nat := 0x300100 + 0x8 * i

/-- CD_SLICE_CFG.ORED_NM1. -/
def fCD_SLICE_CFG_ORED_NM1 (i : Nat) : Fld := ⟨offCD_SLICE_CFG i, 12, 8⟩
/-- CD_SLICE_CFG.ORED_ARM. -/
def fCD_SLICE_CFG_ORED_ARM (i : Nat) : Fld := ⟨offCD_SLICE_CFG i, 1, 1⟩
/-- CD_SLICE_CFG.DEAD_TRAP. -/
def fCD_SLICE_CFG_DEAD_TRAP (i : Nat) : Fld := ⟨offCD_SLICE_CFG i, 0, 0⟩

/-- CD_DEADRR (R324 of 07_unified_cache.md). -/
def specCDDEADRR : RegSpec :=
  ⟨0x300180, 16, 0x8, 1, 0x8, 0x0, [⟨31, 0, .rw, []⟩]⟩

/-- BAR0 offset of CD_DEADRR. -/
def offCD_DEADRR (i : Nat) : Nat := 0x300180 + 0x8 * i

/-- CD_DEADRR.COUNT. -/
def fCD_DEADRR_COUNT (i : Nat) : Fld := ⟨offCD_DEADRR i, 31, 0⟩

/-- CD_ORANK (R325 of 07_unified_cache.md). -/
def specCDORANK : RegSpec :=
  ⟨0x300200, 16, 0x20, 4, 0x8, 0xFFFFFFFFFFFFFFFF, [⟨63, 56, .rw, [(0, 223), (255, 255)]⟩, ⟨55, 48, .rw, [(0, 223), (255, 255)]⟩, ⟨47, 40, .rw, [(0, 223), (255, 255)]⟩, ⟨39, 32, .rw, [(0, 223), (255, 255)]⟩,
    ⟨31, 24, .rw, [(0, 223), (255, 255)]⟩, ⟨23, 16, .rw, [(0, 223), (255, 255)]⟩, ⟨15, 8, .rw, [(0, 223), (255, 255)]⟩, ⟨7, 0, .rw, [(0, 223), (255, 255)]⟩]⟩

/-- BAR0 offset of CD_ORANK. -/
def offCD_ORANK (i j : Nat) : Nat := 0x300200 + 0x20 * i + 0x8 * j


/-- CD_RANGE_BASE (R326 of 07_unified_cache.md). -/
def specCDRANGEBASE : RegSpec :=
  ⟨0x300400, 1, 0x8, 1, 0x8, 0x0, [⟨47, 9, .rw, []⟩]⟩

/-- BAR0 offset of CD_RANGE_BASE. -/
def offCD_RANGE_BASE : Nat := 0x300400

/-- CD_RANGE_BASE.BASE. -/
def fCD_RANGE_BASE_BASE : Fld := ⟨offCD_RANGE_BASE, 47, 9⟩

/-- CD_RANGE_LEN (R327 of 07_unified_cache.md). -/
def specCDRANGELEN : RegSpec :=
  ⟨0x300408, 1, 0x8, 1, 0x8, 0x0, [⟨39, 0, .rw, [(1, 549755813888)]⟩]⟩

/-- BAR0 offset of CD_RANGE_LEN. -/
def offCD_RANGE_LEN : Nat := 0x300408

/-- CD_RANGE_LEN.LINES. -/
def fCD_RANGE_LEN_LINES : Fld := ⟨offCD_RANGE_LEN, 39, 0⟩

/-- CD_RANGE_CMD (R328 of 07_unified_cache.md). -/
def specCDRANGECMD : RegSpec :=
  ⟨0x300410, 1, 0x8, 1, 0x8, 0x0, [⟨63, 63, .ro, []⟩, ⟨20, 16, .rw, [(0, 17)]⟩, ⟨8, 8, .rw, []⟩, ⟨5, 4, .rw, []⟩,
    ⟨0, 0, .wo, []⟩]⟩

/-- BAR0 offset of CD_RANGE_CMD. -/
def offCD_RANGE_CMD : Nat := 0x300410

/-- CD_RANGE_CMD.BUSY. -/
def fCD_RANGE_CMD_BUSY : Fld := ⟨offCD_RANGE_CMD, 63, 63⟩
/-- CD_RANGE_CMD.TAG. -/
def fCD_RANGE_CMD_TAG : Fld := ⟨offCD_RANGE_CMD, 20, 16⟩
/-- CD_RANGE_CMD.TAGSEL. -/
def fCD_RANGE_CMD_TAGSEL : Fld := ⟨offCD_RANGE_CMD, 8, 8⟩
/-- CD_RANGE_CMD.OP. -/
def fCD_RANGE_CMD_OP : Fld := ⟨offCD_RANGE_CMD, 5, 4⟩
/-- CD_RANGE_CMD.GO. -/
def fCD_RANGE_CMD_GO : Fld := ⟨offCD_RANGE_CMD, 0, 0⟩

/-- MT_CFG (R407 of 09_memory_tiers.md). -/
def specMTCFG : RegSpec :=
  ⟨0x400000, 1, 0x8, 1, 0x8, 0x180110, [⟨63, 63, .w1s, []⟩, ⟨23, 16, .rwl, []⟩, ⟨8, 8, .rwl, []⟩, ⟨4, 4, .rwl, []⟩]⟩

/-- BAR0 offset of MT_CFG. -/
def offMT_CFG : Nat := 0x400000

/-- MT_CFG.LOCK. -/
def fMT_CFG_LOCK : Fld := ⟨offMT_CFG, 63, 63⟩
/-- MT_CFG.SCRUB_H. -/
def fMT_CFG_SCRUB_H : Fld := ⟨offMT_CFG, 23, 16⟩
/-- MT_CFG.SPPR_EN. -/
def fMT_CFG_SPPR_EN : Fld := ⟨offMT_CFG, 8, 8⟩
/-- MT_CFG.REPAIR_EN. -/
def fMT_CFG_REPAIR_EN : Fld := ⟨offMT_CFG, 4, 4⟩

/-- MT_STATUS (R408 of 09_memory_tiers.md). -/
def specMTSTATUS : RegSpec :=
  ⟨0x400008, 1, 0x8, 1, 0x8, 0x0, [⟨16, 16, .ro, []⟩, ⟨15, 0, .ro, []⟩]⟩

/-- BAR0 offset of MT_STATUS. -/
def offMT_STATUS : Nat := 0x400008

/-- MT_STATUS.NEAR_ZEROED. -/
def fMT_STATUS_NEAR_ZEROED : Fld := ⟨offMT_STATUS, 16, 16⟩
/-- MT_STATUS.STACK_OK. -/
def fMT_STATUS_STACK_OK : Fld := ⟨offMT_STATUS, 15, 0⟩

/-- MT_ZONE_N (R409 of 09_memory_tiers.md). -/
def specMTZONEN : RegSpec :=
  ⟨0x400100, 4, 0x8, 1, 0x8, 0x0, [⟨1, 0, .rw, [(0, 2)]⟩, ⟨3, 2, .rw, [(0, 2)]⟩, ⟨5, 4, .rw, [(0, 2)]⟩, ⟨7, 6, .rw, [(0, 2)]⟩,
    ⟨9, 8, .rw, [(0, 2)]⟩, ⟨11, 10, .rw, [(0, 2)]⟩, ⟨13, 12, .rw, [(0, 2)]⟩, ⟨15, 14, .rw, [(0, 2)]⟩,
    ⟨17, 16, .rw, [(0, 2)]⟩, ⟨19, 18, .rw, [(0, 2)]⟩, ⟨21, 20, .rw, [(0, 2)]⟩, ⟨23, 22, .rw, [(0, 2)]⟩,
    ⟨25, 24, .rw, [(0, 2)]⟩, ⟨27, 26, .rw, [(0, 2)]⟩, ⟨29, 28, .rw, [(0, 2)]⟩, ⟨31, 30, .rw, [(0, 2)]⟩,
    ⟨33, 32, .rw, [(0, 2)]⟩, ⟨35, 34, .rw, [(0, 2)]⟩, ⟨37, 36, .rw, [(0, 2)]⟩, ⟨39, 38, .rw, [(0, 2)]⟩,
    ⟨41, 40, .rw, [(0, 2)]⟩, ⟨43, 42, .rw, [(0, 2)]⟩, ⟨45, 44, .rw, [(0, 2)]⟩, ⟨47, 46, .rw, [(0, 2)]⟩,
    ⟨49, 48, .rw, [(0, 2)]⟩, ⟨51, 50, .rw, [(0, 2)]⟩, ⟨53, 52, .rw, [(0, 2)]⟩, ⟨55, 54, .rw, [(0, 2)]⟩,
    ⟨57, 56, .rw, [(0, 2)]⟩, ⟨59, 58, .rw, [(0, 2)]⟩, ⟨61, 60, .rw, [(0, 2)]⟩, ⟨63, 62, .rw, [(0, 2)]⟩]⟩

/-- BAR0 offset of MT_ZONE_N. -/
def offMT_ZONE_N (i : Nat) : Nat := 0x400100 + 0x8 * i


/-- MT_ZONE_O (R409 of 09_memory_tiers.md). -/
def specMTZONEO : RegSpec :=
  ⟨0x400120, 4, 0x8, 1, 0x8, 0x0, [⟨1, 0, .rw, [(0, 2)]⟩, ⟨3, 2, .rw, [(0, 2)]⟩, ⟨5, 4, .rw, [(0, 2)]⟩, ⟨7, 6, .rw, [(0, 2)]⟩,
    ⟨9, 8, .rw, [(0, 2)]⟩, ⟨11, 10, .rw, [(0, 2)]⟩, ⟨13, 12, .rw, [(0, 2)]⟩, ⟨15, 14, .rw, [(0, 2)]⟩,
    ⟨17, 16, .rw, [(0, 2)]⟩, ⟨19, 18, .rw, [(0, 2)]⟩, ⟨21, 20, .rw, [(0, 2)]⟩, ⟨23, 22, .rw, [(0, 2)]⟩,
    ⟨25, 24, .rw, [(0, 2)]⟩, ⟨27, 26, .rw, [(0, 2)]⟩, ⟨29, 28, .rw, [(0, 2)]⟩, ⟨31, 30, .rw, [(0, 2)]⟩,
    ⟨33, 32, .rw, [(0, 2)]⟩, ⟨35, 34, .rw, [(0, 2)]⟩, ⟨37, 36, .rw, [(0, 2)]⟩, ⟨39, 38, .rw, [(0, 2)]⟩,
    ⟨41, 40, .rw, [(0, 2)]⟩, ⟨43, 42, .rw, [(0, 2)]⟩, ⟨45, 44, .rw, [(0, 2)]⟩, ⟨47, 46, .rw, [(0, 2)]⟩,
    ⟨49, 48, .rw, [(0, 2)]⟩, ⟨51, 50, .rw, [(0, 2)]⟩, ⟨53, 52, .rw, [(0, 2)]⟩, ⟨55, 54, .rw, [(0, 2)]⟩,
    ⟨57, 56, .rw, [(0, 2)]⟩, ⟨59, 58, .rw, [(0, 2)]⟩, ⟨61, 60, .rw, [(0, 2)]⟩, ⟨63, 62, .rw, [(0, 2)]⟩]⟩

/-- BAR0 offset of MT_ZONE_O. -/
def offMT_ZONE_O (i : Nat) : Nat := 0x400120 + 0x8 * i


/-- MT_FZONE (R410 of 09_memory_tiers.md). -/
def specMTFZONE : RegSpec :=
  ⟨0x400140, 4, 0x8, 1, 0x8, 0x0, [⟨1, 0, .rw, [(0, 2)]⟩, ⟨3, 2, .rw, [(0, 2)]⟩, ⟨5, 4, .rw, [(0, 2)]⟩, ⟨7, 6, .rw, [(0, 2)]⟩,
    ⟨9, 8, .rw, [(0, 2)]⟩, ⟨11, 10, .rw, [(0, 2)]⟩, ⟨13, 12, .rw, [(0, 2)]⟩, ⟨15, 14, .rw, [(0, 2)]⟩,
    ⟨17, 16, .rw, [(0, 2)]⟩, ⟨19, 18, .rw, [(0, 2)]⟩, ⟨21, 20, .rw, [(0, 2)]⟩, ⟨23, 22, .rw, [(0, 2)]⟩,
    ⟨25, 24, .rw, [(0, 2)]⟩, ⟨27, 26, .rw, [(0, 2)]⟩, ⟨29, 28, .rw, [(0, 2)]⟩, ⟨31, 30, .rw, [(0, 2)]⟩,
    ⟨33, 32, .rw, [(0, 2)]⟩, ⟨35, 34, .rw, [(0, 2)]⟩, ⟨37, 36, .rw, [(0, 2)]⟩, ⟨39, 38, .rw, [(0, 2)]⟩,
    ⟨41, 40, .rw, [(0, 2)]⟩, ⟨43, 42, .rw, [(0, 2)]⟩, ⟨45, 44, .rw, [(0, 2)]⟩, ⟨47, 46, .rw, [(0, 2)]⟩,
    ⟨49, 48, .rw, [(0, 2)]⟩, ⟨51, 50, .rw, [(0, 2)]⟩, ⟨53, 52, .rw, [(0, 2)]⟩, ⟨55, 54, .rw, [(0, 2)]⟩,
    ⟨57, 56, .rw, [(0, 2)]⟩, ⟨59, 58, .rw, [(0, 2)]⟩, ⟨61, 60, .rw, [(0, 2)]⟩, ⟨63, 62, .rw, [(0, 2)]⟩]⟩

/-- BAR0 offset of MT_FZONE. -/
def offMT_FZONE (i : Nat) : Nat := 0x400140 + 0x8 * i


/-- MT_FAR_CAP (R411 of 09_memory_tiers.md). -/
def specMTFARCAP : RegSpec :=
  ⟨0x400200, 4, 0x20, 1, 0x8, 0x0, [⟨25, 24, .ro, []⟩, ⟨17, 17, .ro, []⟩, ⟨16, 16, .ro, []⟩, ⟨9, 0, .ro, []⟩]⟩

/-- BAR0 offset of MT_FAR_CAP. -/
def offMT_FAR_CAP (i : Nat) : Nat := 0x400200 + 0x20 * i

/-- MT_FAR_CAP.STATE. -/
def fMT_FAR_CAP_STATE (i : Nat) : Fld := ⟨offMT_FAR_CAP i, 25, 24⟩
/-- MT_FAR_CAP.X8. -/
def fMT_FAR_CAP_X8 (i : Nat) : Fld := ⟨offMT_FAR_CAP i, 17, 17⟩
/-- MT_FAR_CAP.GT64. -/
def fMT_FAR_CAP_GT64 (i : Nat) : Fld := ⟨offMT_FAR_CAP i, 16, 16⟩
/-- MT_FAR_CAP.CAP_GIB. -/
def fMT_FAR_CAP_CAP_GIB (i : Nat) : Fld := ⟨offMT_FAR_CAP i, 9, 0⟩

/-- MT_FAR_CTL (R412 of 09_memory_tiers.md). -/
def specMTFARCTL : RegSpec :=
  ⟨0x400208, 4, 0x20, 1, 0x8, 0x0, [⟨1, 1, .wo, []⟩, ⟨0, 0, .wo, []⟩]⟩

/-- BAR0 offset of MT_FAR_CTL. -/
def offMT_FAR_CTL (i : Nat) : Nat := 0x400208 + 0x20 * i

/-- MT_FAR_CTL.UNLATCH. -/
def fMT_FAR_CTL_UNLATCH (i : Nat) : Fld := ⟨offMT_FAR_CTL i, 1, 1⟩
/-- MT_FAR_CTL.RECOVER. -/
def fMT_FAR_CTL_RECOVER (i : Nat) : Fld := ⟨offMT_FAR_CTL i, 0, 0⟩

/-- MT_BACK_BASE (R413 of 09_memory_tiers.md). -/
def specMTBACKBASE : RegSpec :=
  ⟨0x400300, 1, 0x8, 1, 0x8, 0x0, [⟨47, 6, .rw, []⟩]⟩

/-- BAR0 offset of MT_BACK_BASE. -/
def offMT_BACK_BASE : Nat := 0x400300

/-- MT_BACK_BASE.BASE. -/
def fMT_BACK_BASE_BASE : Fld := ⟨offMT_BACK_BASE, 47, 6⟩

/-- MT_BACK_CTL (R414 of 09_memory_tiers.md). -/
def specMTBACKCTL : RegSpec :=
  ⟨0x400308, 1, 0x8, 1, 0x8, 0x0, [⟨63, 63, .ro, []⟩, ⟨16, 16, .wo, []⟩, ⟨10, 0, .rw, [(0, 1024)]⟩]⟩

/-- BAR0 offset of MT_BACK_CTL. -/
def offMT_BACK_CTL : Nat := 0x400308

/-- MT_BACK_CTL.LOADED. -/
def fMT_BACK_CTL_LOADED : Fld := ⟨offMT_BACK_CTL, 63, 63⟩
/-- MT_BACK_CTL.LOAD. -/
def fMT_BACK_CTL_LOAD : Fld := ⟨offMT_BACK_CTL, 16, 16⟩
/-- MT_BACK_CTL.ENTRIES. -/
def fMT_BACK_CTL_ENTRIES : Fld := ⟨offMT_BACK_CTL, 10, 0⟩

/-- MT_STACK (R415 of 09_memory_tiers.md). -/
def specMTSTACK : RegSpec :=
  ⟨0x400400, 16, 0x8, 1, 0x8, 0x0, [⟨63, 48, .ro, []⟩, ⟨47, 40, .ro, []⟩, ⟨39, 32, .ro, []⟩, ⟨31, 0, .rw, []⟩]⟩

/-- BAR0 offset of MT_STACK. -/
def offMT_STACK (i : Nat) : Nat := 0x400400 + 0x8 * i

/-- MT_STACK.SPARES. -/
def fMT_STACK_SPARES (i : Nat) : Fld := ⟨offMT_STACK i, 63, 48⟩
/-- MT_STACK.TEMP. -/
def fMT_STACK_TEMP (i : Nat) : Fld := ⟨offMT_STACK i, 47, 40⟩
/-- MT_STACK.SOFT_PPR. -/
def fMT_STACK_SOFT_PPR (i : Nat) : Fld := ⟨offMT_STACK i, 39, 32⟩
/-- MT_STACK.CE_COUNT. -/
def fMT_STACK_CE_COUNT (i : Nat) : Fld := ⟨offMT_STACK i, 31, 0⟩

/-- MT_RETIRE_CNT (R416 of 09_memory_tiers.md). -/
def specMTRETIRECNT : RegSpec :=
  ⟨0x400500, 1, 0x8, 1, 0x8, 0x0, [⟨63, 48, .ro, []⟩, ⟨47, 16, .ro, []⟩, ⟨10, 0, .ro, []⟩]⟩

/-- BAR0 offset of MT_RETIRE_CNT. -/
def offMT_RETIRE_CNT : Nat := 0x400500

/-- MT_RETIRE_CNT.OVERFLOW. -/
def fMT_RETIRE_CNT_OVERFLOW : Fld := ⟨offMT_RETIRE_CNT, 63, 48⟩
/-- MT_RETIRE_CNT.REPEATS. -/
def fMT_RETIRE_CNT_REPEATS : Fld := ⟨offMT_RETIRE_CNT, 47, 16⟩
/-- MT_RETIRE_CNT.COUNT. -/
def fMT_RETIRE_CNT_COUNT : Fld := ⟨offMT_RETIRE_CNT, 10, 0⟩

/-- MT_RETIRE (R417 of 09_memory_tiers.md). -/
def specMTRETIRE : RegSpec :=
  ⟨0x401000, 1024, 0x8, 1, 0x8, 0x0, [⟨63, 63, .ro, []⟩, ⟨47, 16, .ro, []⟩, ⟨1, 0, .ro, []⟩]⟩

/-- BAR0 offset of MT_RETIRE. -/
def offMT_RETIRE (i : Nat) : Nat := 0x401000 + 0x8 * i

/-- MT_RETIRE.VALID. -/
def fMT_RETIRE_VALID (i : Nat) : Fld := ⟨offMT_RETIRE i, 63, 63⟩
/-- MT_RETIRE.FRAME. -/
def fMT_RETIRE_FRAME (i : Nat) : Fld := ⟨offMT_RETIRE i, 47, 16⟩
/-- MT_RETIRE.CAUSE. -/
def fMT_RETIRE_CAUSE (i : Nat) : Fld := ⟨offMT_RETIRE i, 1, 0⟩

/-- MT_INJECT (R418 of 09_memory_tiers.md). -/
def specMTINJECT : RegSpec :=
  ⟨0x400600, 1, 0x8, 1, 0x8, 0x0, [⟨63, 62, .rw, [(0, 2)]⟩, ⟨47, 6, .rw, []⟩, ⟨0, 0, .wo, []⟩]⟩

/-- BAR0 offset of MT_INJECT. -/
def offMT_INJECT : Nat := 0x400600

/-- MT_INJECT.KIND. -/
def fMT_INJECT_KIND : Fld := ⟨offMT_INJECT, 63, 62⟩
/-- MT_INJECT.ADDR. -/
def fMT_INJECT_ADDR : Fld := ⟨offMT_INJECT, 47, 6⟩
/-- MT_INJECT.GO. -/
def fMT_INJECT_GO : Fld := ⟨offMT_INJECT, 0, 0⟩

/-- DL_CFG (R447 of 10_die_links.md). -/
def specDLCFG : RegSpec :=
  ⟨0x900000, 1, 0x8, 1, 0x8, 0x400602, [⟨63, 63, .w1s, []⟩, ⟨23, 16, .rwl, [(1, 255)]⟩, ⟨11, 8, .rwl, [(1, 12)]⟩, ⟨2, 0, .rwl, [(1, 4)]⟩]⟩

/-- BAR0 offset of DL_CFG. -/
def offDL_CFG : Nat := 0x900000

/-- DL_CFG.LOCK. -/
def fDL_CFG_LOCK : Fld := ⟨offDL_CFG, 63, 63⟩
/-- DL_CFG.REPAIR_THR. -/
def fDL_CFG_REPAIR_THR : Fld := ⟨offDL_CFG, 23, 16⟩
/-- DL_CFG.MIN_MOD. -/
def fDL_CFG_MIN_MOD : Fld := ⟨offDL_CFG, 11, 8⟩
/-- DL_CFG.BAY_MIN_MOD. -/
def fDL_CFG_BAY_MIN_MOD : Fld := ⟨offDL_CFG, 2, 0⟩

/-- DL_TAP (R448 of 10_die_links.md). -/
def specDLTAP : RegSpec :=
  ⟨0x900010, 1, 0x8, 1, 0x8, 0x300, [⟨16, 16, .ro, []⟩, ⟨11, 0, .ro, []⟩]⟩

/-- BAR0 offset of DL_TAP. -/
def offDL_TAP : Nat := 0x900010

/-- DL_TAP.DEBUG. -/
def fDL_TAP_DEBUG : Fld := ⟨offDL_TAP, 16, 16⟩
/-- DL_TAP.INCHAIN. -/
def fDL_TAP_INCHAIN : Fld := ⟨offDL_TAP, 11, 0⟩

/-- DL_LINK (R449 of 10_die_links.md). -/
def specDLLINK : RegSpec :=
  ⟨0x901000, 16, 0x20, 1, 0x8, 0x0, [⟨63, 62, .ro, []⟩, ⟨61, 60, .ro, []⟩, ⟨59, 56, .ro, []⟩, ⟨55, 55, .ro, []⟩,
    ⟨49, 49, .ro, []⟩, ⟨48, 48, .ro, []⟩, ⟨47, 40, .ro, []⟩, ⟨27, 16, .ro, []⟩,
    ⟨11, 0, .ro, []⟩]⟩

/-- BAR0 offset of DL_LINK. -/
def offDL_LINK (i : Nat) : Nat := 0x901000 + 0x20 * i

/-- DL_LINK.STATE. -/
def fDL_LINK_STATE (i : Nat) : Fld := ⟨offDL_LINK i, 63, 62⟩
/-- DL_LINK.GEN. -/
def fDL_LINK_GEN (i : Nat) : Fld := ⟨offDL_LINK i, 61, 60⟩
/-- DL_LINK.RATE. -/
def fDL_LINK_RATE (i : Nat) : Fld := ⟨offDL_LINK i, 59, 56⟩
/-- DL_LINK.REVERSED. -/
def fDL_LINK_REVERSED (i : Nat) : Fld := ⟨offDL_LINK i, 55, 55⟩
/-- DL_LINK.TAG14. -/
def fDL_LINK_TAG14 (i : Nat) : Fld := ⟨offDL_LINK i, 49, 49⟩
/-- DL_LINK.MCAST_COPY. -/
def fDL_LINK_MCAST_COPY (i : Nat) : Fld := ⟨offDL_LINK i, 48, 48⟩
/-- DL_LINK.REPAIRS. -/
def fDL_LINK_REPAIRS (i : Nat) : Fld := ⟨offDL_LINK i, 47, 40⟩
/-- DL_LINK.X8. -/
def fDL_LINK_X8 (i : Nat) : Fld := ⟨offDL_LINK i, 27, 16⟩
/-- DL_LINK.MODULES. -/
def fDL_LINK_MODULES (i : Nat) : Fld := ⟨offDL_LINK i, 11, 0⟩

/-- DL_LINK_ERR (R450 of 10_die_links.md). -/
def specDLLINKERR : RegSpec :=
  ⟨0x901008, 16, 0x20, 1, 0x8, 0x0, [⟨63, 32, .rw, []⟩, ⟨31, 0, .rw, []⟩]⟩

/-- BAR0 offset of DL_LINK_ERR. -/
def offDL_LINK_ERR (i : Nat) : Nat := 0x901008 + 0x20 * i

/-- DL_LINK_ERR.RESENDS. -/
def fDL_LINK_ERR_RESENDS (i : Nat) : Fld := ⟨offDL_LINK_ERR i, 63, 32⟩
/-- DL_LINK_ERR.CRC. -/
def fDL_LINK_ERR_CRC (i : Nat) : Fld := ⟨offDL_LINK_ERR i, 31, 0⟩

/-- DL_LINK_CTL (R451 of 10_die_links.md). -/
def specDLLINKCTL : RegSpec :=
  ⟨0x901010, 16, 0x20, 1, 0x8, 0x0, [⟨19, 16, .rw, [(0, 11)]⟩, ⟨0, 0, .wo, []⟩]⟩

/-- BAR0 offset of DL_LINK_CTL. -/
def offDL_LINK_CTL (i : Nat) : Nat := 0x901010 + 0x20 * i

/-- DL_LINK_CTL.MOD. -/
def fDL_LINK_CTL_MOD (i : Nat) : Fld := ⟨offDL_LINK_CTL i, 19, 16⟩
/-- DL_LINK_CTL.RETRAIN. -/
def fDL_LINK_CTL_RETRAIN (i : Nat) : Fld := ⟨offDL_LINK_CTL i, 0, 0⟩

/-- DL_BAY_STATUS (R452 of 10_die_links.md). -/
def specDLBAYSTATUS : RegSpec :=
  ⟨0x902000, 2, 0x800, 1, 0x8, 0x0, [⟨63, 62, .ro, []⟩, ⟨55, 48, .ro, []⟩, ⟨19, 16, .ro, []⟩, ⟨3, 0, .ro, []⟩]⟩

/-- BAR0 offset of DL_BAY_STATUS. -/
def offDL_BAY_STATUS (i : Nat) : Nat := 0x902000 + 0x800 * i

/-- DL_BAY_STATUS.STATE. -/
def fDL_BAY_STATUS_STATE (i : Nat) : Fld := ⟨offDL_BAY_STATUS i, 63, 62⟩
/-- DL_BAY_STATUS.CAUSE. -/
def fDL_BAY_STATUS_CAUSE (i : Nat) : Fld := ⟨offDL_BAY_STATUS i, 55, 48⟩
/-- DL_BAY_STATUS.RIGHTS. -/
def fDL_BAY_STATUS_RIGHTS (i : Nat) : Fld := ⟨offDL_BAY_STATUS i, 19, 16⟩
/-- DL_BAY_STATUS.RIGHTS_REQ. -/
def fDL_BAY_STATUS_RIGHTS_REQ (i : Nat) : Fld := ⟨offDL_BAY_STATUS i, 3, 0⟩

/-- DL_BAY_CTL (R453 of 10_die_links.md). -/
def specDLBAYCTL : RegSpec :=
  ⟨0x902008, 2, 0x800, 1, 0x8, 0x0, [⟨35, 32, .rw, []⟩, ⟨19, 16, .rw, []⟩, ⟨8, 8, .rw, []⟩, ⟨0, 0, .wo, []⟩]⟩

/-- BAR0 offset of DL_BAY_CTL. -/
def offDL_BAY_CTL (i : Nat) : Nat := 0x902008 + 0x800 * i

/-- DL_BAY_CTL.GRANT. -/
def fDL_BAY_CTL_GRANT (i : Nat) : Fld := ⟨offDL_BAY_CTL i, 35, 32⟩
/-- DL_BAY_CTL.SLICE. -/
def fDL_BAY_CTL_SLICE (i : Nat) : Fld := ⟨offDL_BAY_CTL i, 19, 16⟩
/-- DL_BAY_CTL.BIND. -/
def fDL_BAY_CTL_BIND (i : Nat) : Fld := ⟨offDL_BAY_CTL i, 8, 8⟩
/-- DL_BAY_CTL.BAY_RESET. -/
def fDL_BAY_CTL_BAY_RESET (i : Nat) : Fld := ⟨offDL_BAY_CTL i, 0, 0⟩

/-- DL_BAY_DESC (R454 of 10_die_links.md). -/
def specDLBAYDESC : RegSpec :=
  ⟨0x902400, 2, 0x800, 64, 0x8, 0x0, [⟨63, 0, .ro, []⟩]⟩

/-- BAR0 offset of DL_BAY_DESC. -/
def offDL_BAY_DESC (i j : Nat) : Nat := 0x902400 + 0x800 * i + 0x8 * j

/-- DL_BAY_DESC.DESC. -/
def fDL_BAY_DESC_DESC (i j : Nat) : Fld := ⟨offDL_BAY_DESC i j, 63, 0⟩

/-- ID_PART (R499 of 11_host_channels.md). -/
def specIDPART : RegSpec :=
  ⟨0x0, 1, 0x8, 1, 0x8, 0x0, [⟨47, 32, .ro, []⟩, ⟨31, 24, .ro, []⟩, ⟨17, 16, .ro, []⟩, ⟨15, 0, .ro, []⟩]⟩

/-- BAR0 offset of ID_PART. -/
def offID_PART : Nat := 0x0

/-- ID_PART.GRADE_MHZ. -/
def fID_PART_GRADE_MHZ : Fld := ⟨offID_PART, 47, 32⟩
/-- ID_PART.PKG_REV. -/
def fID_PART_PKG_REV : Fld := ⟨offID_PART, 31, 24⟩
/-- ID_PART.BAYS. -/
def fID_PART_BAYS : Fld := ⟨offID_PART, 17, 16⟩
/-- ID_PART.PART. -/
def fID_PART_PART : Fld := ⟨offID_PART, 15, 0⟩

/-- ID_SEM (R500 of 11_host_channels.md). -/
def specIDSEM : RegSpec :=
  ⟨0x10, 1, 0x8, 1, 0x8, 0x0, [⟨47, 32, .ro, []⟩, ⟨25, 24, .ro, []⟩, ⟨17, 16, .ro, []⟩, ⟨9, 4, .wo, []⟩,
    ⟨1, 1, .wo, []⟩, ⟨0, 0, .wo, []⟩]⟩

/-- BAR0 offset of ID_SEM. -/
def offID_SEM : Nat := 0x10

/-- ID_SEM.REMAIN_MS. -/
def fID_SEM_REMAIN_MS : Fld := ⟨offID_SEM, 47, 32⟩
/-- ID_SEM.SELF. -/
def fID_SEM_SELF : Fld := ⟨offID_SEM, 25, 24⟩
/-- ID_SEM.OWNER. -/
def fID_SEM_OWNER : Fld := ⟨offID_SEM, 17, 16⟩
/-- ID_SEM.LEASE_S. -/
def fID_SEM_LEASE_S : Fld := ⟨offID_SEM, 9, 4⟩
/-- ID_SEM.RELEASE. -/
def fID_SEM_RELEASE : Fld := ⟨offID_SEM, 1, 1⟩
/-- ID_SEM.CLAIM. -/
def fID_SEM_CLAIM : Fld := ⟨offID_SEM, 0, 0⟩

/-- ID_DROP (R501 of 11_host_channels.md). -/
def specIDDROP : RegSpec :=
  ⟨0x18, 1, 0x8, 1, 0x8, 0x0, [⟨63, 48, .rw, []⟩, ⟨47, 32, .rw, []⟩, ⟨25, 0, .ro, []⟩]⟩

/-- BAR0 offset of ID_DROP. -/
def offID_DROP : Nat := 0x18

/-- ID_DROP.DROPS_A. -/
def fID_DROP_DROPS_A : Fld := ⟨offID_DROP, 63, 48⟩
/-- ID_DROP.DROPS_B. -/
def fID_DROP_DROPS_B : Fld := ⟨offID_DROP, 47, 32⟩
/-- ID_DROP.LAST_OFF. -/
def fID_DROP_LAST_OFF : Fld := ⟨offID_DROP, 25, 0⟩

/-- CH_CFG (R502 of 11_host_channels.md). -/
def specCHCFG : RegSpec :=
  ⟨0x100000, 16, 0x10000, 1, 0x8, 0x8004E20, [⟨27, 17, .rw, [(1, 1024)]⟩, ⟨16, 1, .rw, []⟩, ⟨0, 0, .rw, []⟩]⟩

/-- BAR0 offset of CH_CFG. -/
def offCH_CFG (i : Nat) : Nat := 0x100000 + 0x10000 * i

/-- CH_CFG.INFLIGHT_MAX. -/
def fCH_CFG_INFLIGHT_MAX (i : Nat) : Fld := ⟨offCH_CFG i, 27, 17⟩
/-- CH_CFG.DEF_TMO. -/
def fCH_CFG_DEF_TMO (i : Nat) : Fld := ⟨offCH_CFG i, 16, 1⟩
/-- CH_CFG.ENABLE. -/
def fCH_CFG_ENABLE (i : Nat) : Fld := ⟨offCH_CFG i, 0, 0⟩

/-- CH_STATUS (R503 of 11_host_channels.md). -/
def specCHSTATUS : RegSpec :=
  ⟨0x100008, 16, 0x10000, 1, 0x8, 0x0, [⟨63, 60, .ro, []⟩, ⟨59, 59, .ro, []⟩, ⟨42, 32, .ro, []⟩, ⟨31, 16, .rw, []⟩]⟩

/-- BAR0 offset of CH_STATUS. -/
def offCH_STATUS (i : Nat) : Nat := 0x100008 + 0x10000 * i

/-- CH_STATUS.SLICE. -/
def fCH_STATUS_SLICE (i : Nat) : Fld := ⟨offCH_STATUS i, 63, 60⟩
/-- CH_STATUS.OWNED. -/
def fCH_STATUS_OWNED (i : Nat) : Fld := ⟨offCH_STATUS i, 59, 59⟩
/-- CH_STATUS.INFLIGHT. -/
def fCH_STATUS_INFLIGHT (i : Nat) : Fld := ⟨offCH_STATUS i, 42, 32⟩
/-- CH_STATUS.DB_DROPS. -/
def fCH_STATUS_DB_DROPS (i : Nat) : Fld := ⟨offCH_STATUS i, 31, 16⟩

/-- CH_RESET (R504 of 11_host_channels.md). -/
def specCHRESET : RegSpec :=
  ⟨0x100010, 16, 0x10000, 1, 0x8, 0x0, [⟨63, 63, .ro, []⟩, ⟨0, 0, .wo, []⟩]⟩

/-- BAR0 offset of CH_RESET. -/
def offCH_RESET (i : Nat) : Nat := 0x100010 + 0x10000 * i

/-- CH_RESET.BUSY. -/
def fCH_RESET_BUSY (i : Nat) : Fld := ⟨offCH_RESET i, 63, 63⟩
/-- CH_RESET.GO. -/
def fCH_RESET_GO (i : Nat) : Fld := ⟨offCH_RESET i, 0, 0⟩

/-- CH_SQ_BASE (R505 of 11_host_channels.md). -/
def specCHSQBASE : RegSpec :=
  ⟨0x101000, 16, 0x10000, 64, 0x40, 0x0, [⟨63, 6, .rw, []⟩]⟩

/-- BAR0 offset of CH_SQ_BASE. -/
def offCH_SQ_BASE (i j : Nat) : Nat := 0x101000 + 0x10000 * i + 0x40 * j

/-- CH_SQ_BASE.ADDR. -/
def fCH_SQ_BASE_ADDR (i j : Nat) : Fld := ⟨offCH_SQ_BASE i j, 63, 6⟩

/-- CH_SQ_CFG (R506 of 11_host_channels.md). -/
def specCHSQCFG : RegSpec :=
  ⟨0x101008, 16, 0x10000, 64, 0x40, 0x0, [⟨63, 44, .rw, []⟩, ⟨41, 40, .rw, [(0, 2)]⟩, ⟨34, 32, .rw, []⟩, ⟨21, 16, .rw, []⟩,
    ⟨12, 8, .rw, []⟩, ⟨0, 0, .rw, []⟩]⟩

/-- BAR0 offset of CH_SQ_CFG. -/
def offCH_SQ_CFG (i j : Nat) : Nat := 0x101008 + 0x10000 * i + 0x40 * j

/-- CH_SQ_CFG.PASID. -/
def fCH_SQ_CFG_PASID (i j : Nat) : Fld := ⟨offCH_SQ_CFG i j, 63, 44⟩
/-- CH_SQ_CFG.PORT. -/
def fCH_SQ_CFG_PORT (i j : Nat) : Fld := ⟨offCH_SQ_CFG i j, 41, 40⟩
/-- CH_SQ_CFG.PRIO. -/
def fCH_SQ_CFG_PRIO (i j : Nat) : Fld := ⟨offCH_SQ_CFG i j, 34, 32⟩
/-- CH_SQ_CFG.CQ. -/
def fCH_SQ_CFG_CQ (i j : Nat) : Fld := ⟨offCH_SQ_CFG i j, 21, 16⟩
/-- CH_SQ_CFG.LOG2SZ. -/
def fCH_SQ_CFG_LOG2SZ (i j : Nat) : Fld := ⟨offCH_SQ_CFG i j, 12, 8⟩
/-- CH_SQ_CFG.ENABLE. -/
def fCH_SQ_CFG_ENABLE (i j : Nat) : Fld := ⟨offCH_SQ_CFG i j, 0, 0⟩

/-- CH_SQ_STATE (R507 of 11_host_channels.md). -/
def specCHSQSTATE : RegSpec :=
  ⟨0x101010, 16, 0x10000, 64, 0x40, 0x0, [⟨63, 62, .ro, []⟩, ⟨55, 48, .ro, []⟩, ⟨31, 16, .ro, []⟩, ⟨15, 0, .rw, []⟩]⟩

/-- BAR0 offset of CH_SQ_STATE. -/
def offCH_SQ_STATE (i j : Nat) : Nat := 0x101010 + 0x10000 * i + 0x40 * j

/-- CH_SQ_STATE.STATE. -/
def fCH_SQ_STATE_STATE (i j : Nat) : Fld := ⟨offCH_SQ_STATE i j, 63, 62⟩
/-- CH_SQ_STATE.CAUSE. -/
def fCH_SQ_STATE_CAUSE (i j : Nat) : Fld := ⟨offCH_SQ_STATE i j, 55, 48⟩
/-- CH_SQ_STATE.TAIL. -/
def fCH_SQ_STATE_TAIL (i j : Nat) : Fld := ⟨offCH_SQ_STATE i j, 31, 16⟩
/-- CH_SQ_STATE.HEAD. -/
def fCH_SQ_STATE_HEAD (i j : Nat) : Fld := ⟨offCH_SQ_STATE i j, 15, 0⟩

/-- CH_CQ_BASE (R508 of 11_host_channels.md). -/
def specCHCQBASE : RegSpec :=
  ⟨0x102000, 16, 0x10000, 64, 0x40, 0x0, [⟨63, 6, .rw, []⟩]⟩

/-- BAR0 offset of CH_CQ_BASE. -/
def offCH_CQ_BASE (i j : Nat) : Nat := 0x102000 + 0x10000 * i + 0x40 * j

/-- CH_CQ_BASE.ADDR. -/
def fCH_CQ_BASE_ADDR (i j : Nat) : Fld := ⟨offCH_CQ_BASE i j, 63, 6⟩

/-- CH_CQ_WB (R509 of 11_host_channels.md). -/
def specCHCQWB : RegSpec :=
  ⟨0x102008, 16, 0x10000, 64, 0x40, 0x0, [⟨63, 3, .rw, []⟩]⟩

/-- BAR0 offset of CH_CQ_WB. -/
def offCH_CQ_WB (i j : Nat) : Nat := 0x102008 + 0x10000 * i + 0x40 * j

/-- CH_CQ_WB.ADDR. -/
def fCH_CQ_WB_ADDR (i j : Nat) : Fld := ⟨offCH_CQ_WB i j, 63, 3⟩

/-- CH_CQ_CFG (R510 of 11_host_channels.md). -/
def specCHCQCFG : RegSpec :=
  ⟨0x102010, 16, 0x10000, 64, 0x40, 0x0, [⟨63, 44, .rw, []⟩, ⟨41, 40, .rw, [(0, 2)]⟩, ⟨39, 32, .rw, []⟩, ⟨31, 20, .rw, []⟩,
    ⟨19, 9, .rw, []⟩, ⟨8, 8, .rw, []⟩, ⟨7, 7, .rw, []⟩, ⟨5, 1, .rw, []⟩,
    ⟨0, 0, .rw, []⟩]⟩

/-- BAR0 offset of CH_CQ_CFG. -/
def offCH_CQ_CFG (i j : Nat) : Nat := 0x102010 + 0x10000 * i + 0x40 * j

/-- CH_CQ_CFG.PASID. -/
def fCH_CQ_CFG_PASID (i j : Nat) : Fld := ⟨offCH_CQ_CFG i j, 63, 44⟩
/-- CH_CQ_CFG.PORT. -/
def fCH_CQ_CFG_PORT (i j : Nat) : Fld := ⟨offCH_CQ_CFG i j, 41, 40⟩
/-- CH_CQ_CFG.MOD_CNT. -/
def fCH_CQ_CFG_MOD_CNT (i j : Nat) : Fld := ⟨offCH_CQ_CFG i j, 39, 32⟩
/-- CH_CQ_CFG.MOD_US. -/
def fCH_CQ_CFG_MOD_US (i j : Nat) : Fld := ⟨offCH_CQ_CFG i j, 31, 20⟩
/-- CH_CQ_CFG.VECTOR. -/
def fCH_CQ_CFG_VECTOR (i j : Nat) : Fld := ⟨offCH_CQ_CFG i j, 19, 9⟩
/-- CH_CQ_CFG.VFV. -/
def fCH_CQ_CFG_VFV (i j : Nat) : Fld := ⟨offCH_CQ_CFG i j, 8, 8⟩
/-- CH_CQ_CFG.IRQ_EN. -/
def fCH_CQ_CFG_IRQ_EN (i j : Nat) : Fld := ⟨offCH_CQ_CFG i j, 7, 7⟩
/-- CH_CQ_CFG.LOG2SZ. -/
def fCH_CQ_CFG_LOG2SZ (i j : Nat) : Fld := ⟨offCH_CQ_CFG i j, 5, 1⟩
/-- CH_CQ_CFG.ENABLE. -/
def fCH_CQ_CFG_ENABLE (i j : Nat) : Fld := ⟨offCH_CQ_CFG i j, 0, 0⟩

/-- CH_CQ_STATE (R511 of 11_host_channels.md). -/
def specCHCQSTATE : RegSpec :=
  ⟨0x102018, 16, 0x10000, 64, 0x40, 0x0, [⟨63, 62, .ro, []⟩, ⟨55, 48, .ro, []⟩, ⟨31, 16, .ro, []⟩, ⟨15, 0, .rw, []⟩]⟩

/-- BAR0 offset of CH_CQ_STATE. -/
def offCH_CQ_STATE (i j : Nat) : Nat := 0x102018 + 0x10000 * i + 0x40 * j

/-- CH_CQ_STATE.STATE. -/
def fCH_CQ_STATE_STATE (i j : Nat) : Fld := ⟨offCH_CQ_STATE i j, 63, 62⟩
/-- CH_CQ_STATE.CAUSE. -/
def fCH_CQ_STATE_CAUSE (i j : Nat) : Fld := ⟨offCH_CQ_STATE i j, 55, 48⟩
/-- CH_CQ_STATE.TAIL. -/
def fCH_CQ_STATE_TAIL (i j : Nat) : Fld := ⟨offCH_CQ_STATE i j, 31, 16⟩
/-- CH_CQ_STATE.HEAD. -/
def fCH_CQ_STATE_HEAD (i j : Nat) : Fld := ⟨offCH_CQ_STATE i j, 15, 0⟩

/-- SLC_CTL (R552 of 12_slices_scheduling.md). -/
def specSLCCTL : RegSpec :=
  ⟨0x200000, 16, 0x400, 1, 0x8, 0x0, [⟨63, 61, .ro, []⟩, ⟨60, 60, .ro, []⟩, ⟨55, 48, .ro, []⟩, ⟨11, 10, .rw, []⟩,
    ⟨9, 9, .rw, []⟩, ⟨3, 0, .wo, []⟩]⟩

/-- BAR0 offset of SLC_CTL. -/
def offSLC_CTL (i : Nat) : Nat := 0x200000 + 0x400 * i

/-- SLC_CTL.STATE. -/
def fSLC_CTL_STATE (i : Nat) : Fld := ⟨offSLC_CTL i, 63, 61⟩
/-- SLC_CTL.BUSY_TLB. -/
def fSLC_CTL_BUSY_TLB (i : Nat) : Fld := ⟨offSLC_CTL i, 60, 60⟩
/-- SLC_CTL.ERR. -/
def fSLC_CTL_ERR (i : Nat) : Fld := ⟨offSLC_CTL i, 55, 48⟩
/-- SLC_CTL.CACHE. -/
def fSLC_CTL_CACHE (i : Nat) : Fld := ⟨offSLC_CTL i, 11, 10⟩
/-- SLC_CTL.HMODE. -/
def fSLC_CTL_HMODE (i : Nat) : Fld := ⟨offSLC_CTL i, 9, 9⟩
/-- SLC_CTL.CMD. -/
def fSLC_CTL_CMD (i : Nat) : Fld := ⟨offSLC_CTL i, 3, 0⟩

/-- SLC_CFG (R553 of 12_slices_scheduling.md). -/
def specSLCCFG : RegSpec :=
  ⟨0x200008, 16, 0x400, 1, 0x8, 0x1388700, [⟨44, 32, .rw, [(0, 6144)]⟩, ⟨31, 12, .rw, [(100, 1000000)]⟩, ⟨10, 8, .rw, []⟩, ⟨7, 7, .rw, []⟩]⟩

/-- BAR0 offset of SLC_CFG. -/
def offSLC_CFG (i : Nat) : Nat := 0x200008 + 0x400 * i

/-- SLC_CFG.PIN_KIB. -/
def fSLC_CFG_PIN_KIB (i : Nat) : Fld := ⟨offSLC_CFG i, 44, 32⟩
/-- SLC_CFG.QUANTUM_US. -/
def fSLC_CFG_QUANTUM_US (i : Nat) : Fld := ⟨offSLC_CFG i, 31, 12⟩
/-- SLC_CFG.PRE_PRIO. -/
def fSLC_CFG_PRE_PRIO (i : Nat) : Fld := ⟨offSLC_CFG i, 10, 8⟩
/-- SLC_CFG.PRE_EN. -/
def fSLC_CFG_PRE_EN (i : Nat) : Fld := ⟨offSLC_CFG i, 7, 7⟩

/-- SLC_RGNS (R554 of 12_slices_scheduling.md). -/
def specSLCRGNS : RegSpec :=
  ⟨0x200010, 16, 0x400, 1, 0x8, 0x0, [⟨31, 0, .rw, []⟩]⟩

/-- BAR0 offset of SLC_RGNS. -/
def offSLC_RGNS (i : Nat) : Nat := 0x200010 + 0x400 * i

/-- SLC_RGNS.REGIONS. -/
def fSLC_RGNS_REGIONS (i : Nat) : Fld := ⟨offSLC_RGNS i, 31, 0⟩

/-- SLC_CHAN (R555 of 12_slices_scheduling.md). -/
def specSLCCHAN : RegSpec :=
  ⟨0x200018, 16, 0x400, 1, 0x8, 0x0, [⟨15, 0, .rw, []⟩]⟩

/-- BAR0 offset of SLC_CHAN. -/
def offSLC_CHAN (i : Nat) : Nat := 0x200018 + 0x400 * i

/-- SLC_CHAN.CHANNELS. -/
def fSLC_CHAN_CHANNELS (i : Nat) : Fld := ⟨offSLC_CHAN i, 15, 0⟩

/-- SLC_PTBASE (R556 of 12_slices_scheduling.md). -/
def specSLCPTBASE : RegSpec :=
  ⟨0x200020, 16, 0x400, 1, 0x8, 0x0, [⟨47, 21, .rw, []⟩]⟩

/-- BAR0 offset of SLC_PTBASE. -/
def offSLC_PTBASE (i : Nat) : Nat := 0x200020 + 0x400 * i

/-- SLC_PTBASE.BASE. -/
def fSLC_PTBASE_BASE (i : Nat) : Fld := ⟨offSLC_PTBASE i, 47, 21⟩

/-- SLC_CTXTAB (R557 of 12_slices_scheduling.md). -/
def specSLCCTXTAB : RegSpec :=
  ⟨0x200028, 16, 0x400, 1, 0x8, 0x0, [⟨47, 8, .rw, []⟩]⟩

/-- BAR0 offset of SLC_CTXTAB. -/
def offSLC_CTXTAB (i : Nat) : Nat := 0x200028 + 0x400 * i

/-- SLC_CTXTAB.BASE. -/
def fSLC_CTXTAB_BASE (i : Nat) : Fld := ⟨offSLC_CTXTAB i, 47, 8⟩

/-- SLC_SWITCH (R558 of 12_slices_scheduling.md). -/
def specSLCSWITCH : RegSpec :=
  ⟨0x200030, 16, 0x400, 1, 0x8, 0x0, [⟨19, 0, .ro, []⟩]⟩

/-- BAR0 offset of SLC_SWITCH. -/
def offSLC_SWITCH (i : Nat) : Nat := 0x200030 + 0x400 * i

/-- SLC_SWITCH.SWITCH_US. -/
def fSLC_SWITCH_SWITCH_US (i : Nat) : Fld := ⟨offSLC_SWITCH i, 19, 0⟩

/-- SLC_PASID (R559 of 12_slices_scheduling.md). -/
def specSLCPASID : RegSpec :=
  ⟨0x200040, 16, 0x400, 8, 0x8, 0x0, [⟨63, 63, .rw, []⟩, ⟨19, 0, .rw, []⟩]⟩

/-- BAR0 offset of SLC_PASID. -/
def offSLC_PASID (i j : Nat) : Nat := 0x200040 + 0x400 * i + 0x8 * j

/-- SLC_PASID.VALID. -/
def fSLC_PASID_VALID (i j : Nat) : Fld := ⟨offSLC_PASID i j, 63, 63⟩
/-- SLC_PASID.PASID. -/
def fSLC_PASID_PASID (i j : Nat) : Fld := ⟨offSLC_PASID i j, 19, 0⟩

/-- SLC_DLOG_CTL (R560 of 12_slices_scheduling.md). -/
def specSLCDLOGCTL : RegSpec :=
  ⟨0x200100, 16, 0x400, 1, 0x8, 0x0, [⟨63, 63, .w1c, []⟩, ⟨62, 62, .w1c, []⟩, ⟨48, 48, .ro, []⟩, ⟨10, 8, .rw, []⟩,
    ⟨6, 6, .rw, []⟩, ⟨4, 4, .wo, []⟩, ⟨2, 2, .rw, []⟩, ⟨1, 1, .rw, []⟩,
    ⟨0, 0, .rw, []⟩]⟩

/-- BAR0 offset of SLC_DLOG_CTL. -/
def offSLC_DLOG_CTL (i : Nat) : Nat := 0x200100 + 0x400 * i

/-- SLC_DLOG_CTL.OVF_A. -/
def fSLC_DLOG_CTL_OVF_A (i : Nat) : Fld := ⟨offSLC_DLOG_CTL i, 63, 63⟩
/-- SLC_DLOG_CTL.OVF_B. -/
def fSLC_DLOG_CTL_OVF_B (i : Nat) : Fld := ⟨offSLC_DLOG_CTL i, 62, 62⟩
/-- SLC_DLOG_CTL.BUSY. -/
def fSLC_DLOG_CTL_BUSY (i : Nat) : Fld := ⟨offSLC_DLOG_CTL i, 48, 48⟩
/-- SLC_DLOG_CTL.PASX. -/
def fSLC_DLOG_CTL_PASX (i : Nat) : Fld := ⟨offSLC_DLOG_CTL i, 10, 8⟩
/-- SLC_DLOG_CTL.DPORT. -/
def fSLC_DLOG_CTL_DPORT (i : Nat) : Fld := ⟨offSLC_DLOG_CTL i, 6, 6⟩
/-- SLC_DLOG_CTL.SYNC. -/
def fSLC_DLOG_CTL_SYNC (i : Nat) : Fld := ⟨offSLC_DLOG_CTL i, 4, 4⟩
/-- SLC_DLOG_CTL.EN_D. -/
def fSLC_DLOG_CTL_EN_D (i : Nat) : Fld := ⟨offSLC_DLOG_CTL i, 2, 2⟩
/-- SLC_DLOG_CTL.EN_B. -/
def fSLC_DLOG_CTL_EN_B (i : Nat) : Fld := ⟨offSLC_DLOG_CTL i, 1, 1⟩
/-- SLC_DLOG_CTL.EN_A. -/
def fSLC_DLOG_CTL_EN_A (i : Nat) : Fld := ⟨offSLC_DLOG_CTL i, 0, 0⟩

/-- SLC_DLOG_A (R561 of 12_slices_scheduling.md). -/
def specSLCDLOGA : RegSpec :=
  ⟨0x200108, 16, 0x400, 1, 0x8, 0x0, [⟨63, 12, .rw, []⟩]⟩

/-- BAR0 offset of SLC_DLOG_A. -/
def offSLC_DLOG_A (i : Nat) : Nat := 0x200108 + 0x400 * i

/-- SLC_DLOG_A.BASE. -/
def fSLC_DLOG_A_BASE (i : Nat) : Fld := ⟨offSLC_DLOG_A i, 63, 12⟩

/-- SLC_DLOG_B (R561 of 12_slices_scheduling.md). -/
def specSLCDLOGB : RegSpec :=
  ⟨0x200110, 16, 0x400, 1, 0x8, 0x0, [⟨63, 12, .rw, []⟩]⟩

/-- BAR0 offset of SLC_DLOG_B. -/
def offSLC_DLOG_B (i : Nat) : Nat := 0x200110 + 0x400 * i

/-- SLC_DLOG_B.BASE. -/
def fSLC_DLOG_B_BASE (i : Nat) : Fld := ⟨offSLC_DLOG_B i, 63, 12⟩

/-- SLC_DLOG_D (R561 of 12_slices_scheduling.md). -/
def specSLCDLOGD : RegSpec :=
  ⟨0x200118, 16, 0x400, 1, 0x8, 0x0, [⟨63, 12, .rw, []⟩]⟩

/-- BAR0 offset of SLC_DLOG_D. -/
def offSLC_DLOG_D (i : Nat) : Nat := 0x200118 + 0x400 * i

/-- SLC_DLOG_D.BASE. -/
def fSLC_DLOG_D_BASE (i : Nat) : Fld := ⟨offSLC_DLOG_D i, 63, 12⟩

/-- SLC_DLOG_LIM (R562 of 12_slices_scheduling.md). -/
def specSLCDLOGLIM : RegSpec :=
  ⟨0x200120, 16, 0x400, 1, 0x8, 0x0, [⟨28, 16, .rw, [(0, 4096)]⟩, ⟨12, 0, .rw, [(0, 4096)]⟩]⟩

/-- BAR0 offset of SLC_DLOG_LIM. -/
def offSLC_DLOG_LIM (i : Nat) : Nat := 0x200120 + 0x400 * i

/-- SLC_DLOG_LIM.LIM_B. -/
def fSLC_DLOG_LIM_LIM_B (i : Nat) : Fld := ⟨offSLC_DLOG_LIM i, 28, 16⟩
/-- SLC_DLOG_LIM.LIM_A. -/
def fSLC_DLOG_LIM_LIM_A (i : Nat) : Fld := ⟨offSLC_DLOG_LIM i, 12, 0⟩

/-- SLC_PG_BASE (R563 of 12_slices_scheduling.md). -/
def specSLCPGBASE : RegSpec :=
  ⟨0x204000, 1, 0x8, 1, 0x8, 0x0, [⟨47, 16, .rw, []⟩]⟩

/-- BAR0 offset of SLC_PG_BASE. -/
def offSLC_PG_BASE : Nat := 0x204000

/-- SLC_PG_BASE.FRAME. -/
def fSLC_PG_BASE_FRAME : Fld := ⟨offSLC_PG_BASE, 47, 16⟩

/-- SLC_PG_CMD (R564 of 12_slices_scheduling.md). -/
def specSLCPGCMD : RegSpec :=
  ⟨0x204008, 1, 0x8, 1, 0x8, 0x0, [⟨63, 63, .ro, []⟩, ⟨54, 53, .ro, []⟩, ⟨52, 48, .ro, []⟩, ⟨47, 32, .rw, []⟩,
    ⟨0, 0, .wo, []⟩]⟩

/-- BAR0 offset of SLC_PG_CMD. -/
def offSLC_PG_CMD : Nat := 0x204008

/-- SLC_PG_CMD.BUSY. -/
def fSLC_PG_CMD_BUSY : Fld := ⟨offSLC_PG_CMD, 63, 63⟩
/-- SLC_PG_CMD.ERR. -/
def fSLC_PG_CMD_ERR : Fld := ⟨offSLC_PG_CMD, 54, 53⟩
/-- SLC_PG_CMD.DEPTH. -/
def fSLC_PG_CMD_DEPTH : Fld := ⟨offSLC_PG_CMD, 52, 48⟩
/-- SLC_PG_CMD.NFM1. -/
def fSLC_PG_CMD_NFM1 : Fld := ⟨offSLC_PG_CMD, 47, 32⟩
/-- SLC_PG_CMD.GO. -/
def fSLC_PG_CMD_GO : Fld := ⟨offSLC_PG_CMD, 0, 0⟩

/-- SLC_RGN (R565 of 12_slices_scheduling.md). -/
def specSLCRGN : RegSpec :=
  ⟨0x204100, 32, 0x8, 1, 0x8, 0x0, [⟨63, 62, .ro, []⟩, ⟨51, 48, .ro, []⟩, ⟨31, 16, .ro, []⟩, ⟨0, 0, .ro, []⟩]⟩

/-- BAR0 offset of SLC_RGN. -/
def offSLC_RGN (i : Nat) : Nat := 0x204100 + 0x8 * i

/-- SLC_RGN.STATE. -/
def fSLC_RGN_STATE (i : Nat) : Fld := ⟨offSLC_RGN i, 63, 62⟩
/-- SLC_RGN.RESIDENT. -/
def fSLC_RGN_RESIDENT (i : Nat) : Fld := ⟨offSLC_RGN i, 51, 48⟩
/-- SLC_RGN.HOLDERS. -/
def fSLC_RGN_HOLDERS (i : Nat) : Fld := ⟨offSLC_RGN i, 31, 16⟩
/-- SLC_RGN.SAVED1. -/
def fSLC_RGN_SAVED1 (i : Nat) : Fld := ⟨offSLC_RGN i, 0, 0⟩

/-- SLC_CYC_CFG (R566 of 12_slices_scheduling.md). -/
def specSLCCYCCFG : RegSpec :=
  ⟨0x208000, 16, 0x1000, 1, 0x8, 0x0, [⟨63, 63, .rw, []⟩, ⟨51, 32, .rw, []⟩, ⟨19, 0, .rw, [(100, 1000000)]⟩]⟩

/-- BAR0 offset of SLC_CYC_CFG. -/
def offSLC_CYC_CFG (i : Nat) : Nat := 0x208000 + 0x1000 * i

/-- SLC_CYC_CFG.EN. -/
def fSLC_CYC_CFG_EN (i : Nat) : Fld := ⟨offSLC_CYC_CFG i, 63, 63⟩
/-- SLC_CYC_CFG.OFFSET_US. -/
def fSLC_CYC_CFG_OFFSET_US (i : Nat) : Fld := ⟨offSLC_CYC_CFG i, 51, 32⟩
/-- SLC_CYC_CFG.FRAME_US. -/
def fSLC_CYC_CFG_FRAME_US (i : Nat) : Fld := ⟨offSLC_CYC_CFG i, 19, 0⟩

/-- SLC_CYC_STAT (R567 of 12_slices_scheduling.md). -/
def specSLCCYCSTAT : RegSpec :=
  ⟨0x208008, 16, 0x1000, 1, 0x8, 0x0, [⟨63, 48, .rw, []⟩, ⟨47, 32, .rw, []⟩, ⟨31, 0, .rw, []⟩]⟩

/-- BAR0 offset of SLC_CYC_STAT. -/
def offSLC_CYC_STAT (i : Nat) : Nat := 0x208008 + 0x1000 * i

/-- SLC_CYC_STAT.OVERRUNS. -/
def fSLC_CYC_STAT_OVERRUNS (i : Nat) : Fld := ⟨offSLC_CYC_STAT i, 63, 48⟩
/-- SLC_CYC_STAT.LATE_STARTS. -/
def fSLC_CYC_STAT_LATE_STARTS (i : Nat) : Fld := ⟨offSLC_CYC_STAT i, 47, 32⟩
/-- SLC_CYC_STAT.FRAMES. -/
def fSLC_CYC_STAT_FRAMES (i : Nat) : Fld := ⟨offSLC_CYC_STAT i, 31, 0⟩

/-- SLC_CYC_E (R568 of 12_slices_scheduling.md). -/
def specSLCCYCE : RegSpec :=
  ⟨0x208800, 16, 0x1000, 256, 0x8, 0x0, [⟨63, 62, .rw, []⟩, ⟨61, 56, .rw, []⟩, ⟨55, 50, .rw, []⟩, ⟨49, 49, .rw, []⟩,
    ⟨48, 48, .rw, []⟩, ⟨39, 20, .rw, []⟩, ⟨19, 0, .rw, []⟩]⟩

/-- BAR0 offset of SLC_CYC_E. -/
def offSLC_CYC_E (i j : Nat) : Nat := 0x208800 + 0x1000 * i + 0x8 * j

/-- SLC_CYC_E.KIND. -/
def fSLC_CYC_E_KIND (i j : Nat) : Fld := ⟨offSLC_CYC_E i j, 63, 62⟩
/-- SLC_CYC_E.RING0. -/
def fSLC_CYC_E_RING0 (i j : Nat) : Fld := ⟨offSLC_CYC_E i j, 61, 56⟩
/-- SLC_CYC_E.RCNTM1. -/
def fSLC_CYC_E_RCNTM1 (i j : Nat) : Fld := ⟨offSLC_CYC_E i j, 55, 50⟩
/-- SLC_CYC_E.OVR. -/
def fSLC_CYC_E_OVR (i j : Nat) : Fld := ⟨offSLC_CYC_E i j, 49, 49⟩
/-- SLC_CYC_E.PWR. -/
def fSLC_CYC_E_PWR (i j : Nat) : Fld := ⟨offSLC_CYC_E i j, 48, 48⟩
/-- SLC_CYC_E.LEN_US. -/
def fSLC_CYC_E_LEN_US (i j : Nat) : Fld := ⟨offSLC_CYC_E i j, 39, 20⟩
/-- SLC_CYC_E.START_US. -/
def fSLC_CYC_E_START_US (i j : Nat) : Fld := ⟨offSLC_CYC_E i j, 19, 0⟩

/-- PW_CFG (R603 of 13_power.md). -/
def specPWCFG : RegSpec :=
  ⟨0x500000, 1, 0x8, 1, 0x8, 0x285F320000, [⟨63, 63, .w1s, []⟩, ⟨39, 32, .rwl, [(10, 100)]⟩, ⟨31, 24, .rwl, [(30, 100)]⟩, ⟨23, 16, .rwl, [(20, 150)]⟩]⟩

/-- BAR0 offset of PW_CFG. -/
def offPW_CFG : Nat := 0x500000

/-- PW_CFG.LOCK. -/
def fPW_CFG_LOCK : Fld := ⟨offPW_CFG, 63, 63⟩
/-- PW_CFG.BRAKE_PCT. -/
def fPW_CFG_BRAKE_PCT : Fld := ⟨offPW_CFG, 39, 32⟩
/-- PW_CFG.OC_LIMIT_A. -/
def fPW_CFG_OC_LIMIT_A : Fld := ⟨offPW_CFG, 31, 24⟩
/-- PW_CFG.DROOP_MV. -/
def fPW_CFG_DROOP_MV : Fld := ⟨offPW_CFG, 23, 16⟩

/-- PW_BUDGET (R604 of 13_power.md). -/
def specPWBUDGET : RegSpec :=
  ⟨0x500008, 1, 0x8, 1, 0x8, 0x0, [⟨63, 63, .ro, []⟩, ⟨11, 0, .rw, [(1000, 3600)]⟩]⟩

/-- BAR0 offset of PW_BUDGET. -/
def offPW_BUDGET : Nat := 0x500008

/-- PW_BUDGET.SET. -/
def fPW_BUDGET_SET : Fld := ⟨offPW_BUDGET, 63, 63⟩
/-- PW_BUDGET.BUDGET_W. -/
def fPW_BUDGET_BUDGET_W : Fld := ⟨offPW_BUDGET, 11, 0⟩

/-- PW_RAMP (R605 of 13_power.md). -/
def specPWRAMP : RegSpec :=
  ⟨0x500010, 1, 0x8, 1, 0x8, 0x0, [⟨63, 63, .ro, []⟩, ⟨62, 62, .ro, []⟩, ⟨43, 32, .rw, [(0, 3600)]⟩, ⟨19, 0, .rw, [(0, 0), (10, 1000000)]⟩]⟩

/-- BAR0 offset of PW_RAMP. -/
def offPW_RAMP : Nat := 0x500010

/-- PW_RAMP.RAMP_SET. -/
def fPW_RAMP_RAMP_SET : Fld := ⟨offPW_RAMP, 63, 63⟩
/-- PW_RAMP.FLOOR_SET. -/
def fPW_RAMP_FLOOR_SET : Fld := ⟨offPW_RAMP, 62, 62⟩
/-- PW_RAMP.FLOOR_W. -/
def fPW_RAMP_FLOOR_W : Fld := ⟨offPW_RAMP, 43, 32⟩
/-- PW_RAMP.RAMP_WPMS. -/
def fPW_RAMP_RAMP_WPMS : Fld := ⟨offPW_RAMP, 19, 0⟩

/-- PW_STATUS (R606 of 13_power.md). -/
def specPWSTATUS : RegSpec :=
  ⟨0x500018, 1, 0x8, 1, 0x8, 0x0, [⟨63, 63, .ro, []⟩, ⟨62, 62, .ro, []⟩, ⟨61, 61, .ro, []⟩, ⟨60, 60, .ro, []⟩,
    ⟨59, 59, .ro, []⟩, ⟨58, 58, .ro, []⟩, ⟨55, 44, .ro, []⟩, ⟨43, 32, .ro, []⟩,
    ⟨31, 20, .ro, []⟩, ⟨19, 0, .ro, []⟩]⟩

/-- BAR0 offset of PW_STATUS. -/
def offPW_STATUS : Nat := 0x500018

/-- PW_STATUS.CURB. -/
def fPW_STATUS_CURB : Fld := ⟨offPW_STATUS, 63, 63⟩
/-- PW_STATUS.BRAKE. -/
def fPW_STATUS_BRAKE : Fld := ⟨offPW_STATUS, 62, 62⟩
/-- PW_STATUS.THROTTLE. -/
def fPW_STATUS_THROTTLE : Fld := ⟨offPW_STATUS, 61, 61⟩
/-- PW_STATUS.FLOOR_SHORT. -/
def fPW_STATUS_FLOOR_SHORT : Fld := ⟨offPW_STATUS, 60, 60⟩
/-- PW_STATUS.REIN_UP. -/
def fPW_STATUS_REIN_UP : Fld := ⟨offPW_STATUS, 59, 59⟩
/-- PW_STATUS.REFCLK_OK. -/
def fPW_STATUS_REFCLK_OK : Fld := ⟨offPW_STATUS, 58, 58⟩
/-- PW_STATUS.APPLIED_W. -/
def fPW_STATUS_APPLIED_W : Fld := ⟨offPW_STATUS, 55, 44⟩
/-- PW_STATUS.MGMT_W. -/
def fPW_STATUS_MGMT_W : Fld := ⟨offPW_STATUS, 43, 32⟩
/-- PW_STATUS.FLOOR_W. -/
def fPW_STATUS_FLOOR_W : Fld := ⟨offPW_STATUS, 31, 20⟩
/-- PW_STATUS.RAMP_WPMS. -/
def fPW_STATUS_RAMP_WPMS : Fld := ⟨offPW_STATUS, 19, 0⟩

/-- PW_INPUT (R607 of 13_power.md). -/
def specPWINPUT : RegSpec :=
  ⟨0x500020, 1, 0x8, 1, 0x8, 0x0, [⟨63, 48, .ro, []⟩, ⟨47, 32, .ro, []⟩, ⟨31, 20, .ro, []⟩, ⟨11, 0, .ro, []⟩]⟩

/-- BAR0 offset of PW_INPUT. -/
def offPW_INPUT : Nat := 0x500020

/-- PW_INPUT.VIN. -/
def fPW_INPUT_VIN : Fld := ⟨offPW_INPUT, 63, 48⟩
/-- PW_INPUT.IIN. -/
def fPW_INPUT_IIN : Fld := ⟨offPW_INPUT, 47, 32⟩
/-- PW_INPUT.P10_W. -/
def fPW_INPUT_P10_W : Fld := ⟨offPW_INPUT, 31, 20⟩
/-- PW_INPUT.PMIN_W. -/
def fPW_INPUT_PMIN_W : Fld := ⟨offPW_INPUT, 11, 0⟩

/-- PW_GATE (R608 of 13_power.md). -/
def specPWGATE : RegSpec :=
  ⟨0x500028, 1, 0x8, 1, 0x8, 0xFFFFFFFF000A010A, [⟨63, 32, .rw, []⟩, ⟨23, 16, .rw, [(1, 255)]⟩, ⟨8, 8, .rw, []⟩, ⟨7, 0, .rw, [(1, 255)]⟩]⟩

/-- BAR0 offset of PW_GATE. -/
def offPW_GATE : Nat := 0x500028

/-- PW_GATE.PG_EN. -/
def fPW_GATE_PG_EN : Fld := ⟨offPW_GATE, 63, 32⟩
/-- PW_GATE.PG_IDLE. -/
def fPW_GATE_PG_IDLE : Fld := ⟨offPW_GATE, 23, 16⟩
/-- PW_GATE.SR_EN. -/
def fPW_GATE_SR_EN : Fld := ⟨offPW_GATE, 8, 8⟩
/-- PW_GATE.SR_IDLE. -/
def fPW_GATE_SR_IDLE : Fld := ⟨offPW_GATE, 7, 0⟩

/-- PW_E_IN (R609 of 13_power.md). -/
def specPWEIN : RegSpec :=
  ⟨0x500040, 1, 0x8, 1, 0x8, 0x0, [⟨63, 0, .ro, []⟩]⟩

/-- BAR0 offset of PW_E_IN. -/
def offPW_E_IN : Nat := 0x500040

/-- PW_E_IN.UJ. -/
def fPW_E_IN_UJ : Fld := ⟨offPW_E_IN, 63, 0⟩

/-- PW_E_FLOOR (R609 of 13_power.md). -/
def specPWEFLOOR : RegSpec :=
  ⟨0x500048, 1, 0x8, 1, 0x8, 0x0, [⟨63, 0, .ro, []⟩]⟩

/-- BAR0 offset of PW_E_FLOOR. -/
def offPW_E_FLOOR : Nat := 0x500048

/-- PW_E_FLOOR.UJ. -/
def fPW_E_FLOOR_UJ : Fld := ⟨offPW_E_FLOOR, 63, 0⟩

/-- PW_E_MGR (R609 of 13_power.md). -/
def specPWEMGR : RegSpec :=
  ⟨0x500050, 1, 0x8, 1, 0x8, 0x0, [⟨63, 0, .ro, []⟩]⟩

/-- BAR0 offset of PW_E_MGR. -/
def offPW_E_MGR : Nat := 0x500050

/-- PW_E_MGR.UJ. -/
def fPW_E_MGR_UJ : Fld := ⟨offPW_E_MGR, 63, 0⟩

/-- PW_E_JOB (R610 of 13_power.md). -/
def specPWEJOB : RegSpec :=
  ⟨0x500100, 16, 0x10, 1, 0x8, 0x0, [⟨63, 0, .ro, []⟩]⟩

/-- BAR0 offset of PW_E_JOB. -/
def offPW_E_JOB (i : Nat) : Nat := 0x500100 + 0x10 * i

/-- PW_E_JOB.JOB_UJ. -/
def fPW_E_JOB_JOB_UJ (i : Nat) : Fld := ⟨offPW_E_JOB i, 63, 0⟩

/-- PW_E_IDLE (R610 of 13_power.md). -/
def specPWEIDLE : RegSpec :=
  ⟨0x500108, 16, 0x10, 1, 0x8, 0x0, [⟨63, 0, .ro, []⟩]⟩

/-- BAR0 offset of PW_E_IDLE. -/
def offPW_E_IDLE (i : Nat) : Nat := 0x500108 + 0x10 * i

/-- PW_E_IDLE.IDLE_UJ. -/
def fPW_E_IDLE_IDLE_UJ (i : Nat) : Fld := ⟨offPW_E_IDLE i, 63, 0⟩

/-- PW_RES (R611 of 13_power.md). -/
def specPWRES : RegSpec :=
  ⟨0x500200, 16, 0x8, 1, 0x8, 0x0, [⟨63, 48, .rw, []⟩, ⟨11, 0, .rw, [(0, 3600)]⟩]⟩

/-- BAR0 offset of PW_RES. -/
def offPW_RES (i : Nat) : Nat := 0x500200 + 0x8 * i

/-- PW_RES.RES_SHORT. -/
def fPW_RES_RES_SHORT (i : Nat) : Fld := ⟨offPW_RES i, 63, 48⟩
/-- PW_RES.RES_W. -/
def fPW_RES_RES_W (i : Nat) : Fld := ⟨offPW_RES i, 11, 0⟩

/-- PW_RGN (R612 of 13_power.md). -/
def specPWRGN : RegSpec :=
  ⟨0x500300, 32, 0x8, 1, 0x8, 0x0, [⟨63, 62, .ro, []⟩, ⟨55, 48, .ro, []⟩, ⟨47, 36, .ro, []⟩, ⟨35, 24, .ro, []⟩,
    ⟨23, 12, .ro, []⟩, ⟨11, 0, .ro, []⟩]⟩

/-- BAR0 offset of PW_RGN. -/
def offPW_RGN (i : Nat) : Nat := 0x500300 + 0x8 * i

/-- PW_RGN.STATE. -/
def fPW_RGN_STATE (i : Nat) : Fld := ⟨offPW_RGN i, 63, 62⟩
/-- PW_RGN.TEMP. -/
def fPW_RGN_TEMP (i : Nat) : Fld := ⟨offPW_RGN i, 55, 48⟩
/-- PW_RGN.ALLOT_W. -/
def fPW_RGN_ALLOT_W (i : Nat) : Fld := ⟨offPW_RGN i, 47, 36⟩
/-- PW_RGN.VOLT_MV. -/
def fPW_RGN_VOLT_MV (i : Nat) : Fld := ⟨offPW_RGN i, 35, 24⟩
/-- PW_RGN.FREQ_MHZ. -/
def fPW_RGN_FREQ_MHZ (i : Nat) : Fld := ⟨offPW_RGN i, 23, 12⟩
/-- PW_RGN.DROOPS. -/
def fPW_RGN_DROOPS (i : Nat) : Fld := ⟨offPW_RGN i, 11, 0⟩

/-- PW_VF (R613 of 13_power.md). -/
def specPWVF : RegSpec :=
  ⟨0x1100000, 8, 0x400000, 1536, 0x8, 0x0, [⟨47, 32, .ro, []⟩, ⟨31, 16, .ro, []⟩, ⟨15, 0, .ro, []⟩]⟩

/-- BAR0 offset of PW_VF_k_p of die d. -/
def offPW_VF (d k p : Nat) : Nat := 0x1100000 + 0x400000 * d + 0x80 * k + 8 * p

/-- PW_VF.VOLT_MV. -/
def fPW_VF_VOLT_MV (d k p : Nat) : Fld := ⟨offPW_VF d k p, 47, 32⟩
/-- PW_VF.FUSE_MHZ. -/
def fPW_VF_FUSE_MHZ (d k p : Nat) : Fld := ⟨offPW_VF d k p, 31, 16⟩
/-- PW_VF.FMAX_MHZ. -/
def fPW_VF_FMAX_MHZ (d k p : Nat) : Fld := ⟨offPW_VF d k p, 15, 0⟩

/-- SU_STATUS (R636 of 14_startup.md). -/
def specSUSTATUS : RegSpec :=
  ⟨0xA00000, 1, 0x8, 1, 0x8, 0x0, [⟨63, 61, .ro, []⟩, ⟨55, 48, .ro, []⟩, ⟨41, 40, .ro, []⟩, ⟨39, 32, .ro, []⟩,
    ⟨31, 20, .ro, []⟩, ⟨17, 17, .ro, []⟩, ⟨16, 16, .ro, []⟩]⟩

/-- BAR0 offset of SU_STATUS. -/
def offSU_STATUS : Nat := 0xA00000

/-- SU_STATUS.STAGE. -/
def fSU_STATUS_STAGE : Fld := ⟨offSU_STATUS, 63, 61⟩
/-- SU_STATUS.CAUSE. -/
def fSU_STATUS_CAUSE : Fld := ⟨offSU_STATUS, 55, 48⟩
/-- SU_STATUS.LAST_RESET. -/
def fSU_STATUS_LAST_RESET : Fld := ⟨offSU_STATUS, 41, 40⟩
/-- SU_STATUS.DIES_OK. -/
def fSU_STATUS_DIES_OK : Fld := ⟨offSU_STATUS, 39, 32⟩
/-- SU_STATUS.SADDLE_MS. -/
def fSU_STATUS_SADDLE_MS : Fld := ⟨offSU_STATUS, 31, 20⟩
/-- SU_STATUS.HALTER_O. -/
def fSU_STATUS_HALTER_O : Fld := ⟨offSU_STATUS, 17, 17⟩
/-- SU_STATUS.HALTER_N. -/
def fSU_STATUS_HALTER_N : Fld := ⟨offSU_STATUS, 16, 16⟩

/-- SU_CFG (R637 of 14_startup.md). -/
def specSUCFG : RegSpec :=
  ⟨0xA00008, 1, 0x8, 1, 0x8, 0x0, [⟨11, 11, .rw, []⟩, ⟨10, 0, .rw, [(0, 2047)]⟩]⟩

/-- BAR0 offset of SU_CFG. -/
def offSU_CFG : Nat := 0xA00008

/-- SU_CFG.RDY_EN. -/
def fSU_CFG_RDY_EN : Fld := ⟨offSU_CFG, 11, 11⟩
/-- SU_CFG.RDY_VEC. -/
def fSU_CFG_RDY_VEC : Fld := ⟨offSU_CFG, 10, 0⟩

/-- SU_RESET (R638 of 14_startup.md). -/
def specSURESET : RegSpec :=
  ⟨0xA00010, 1, 0x8, 1, 0x8, 0x0, [⟨63, 63, .ro, []⟩, ⟨7, 0, .wo, []⟩]⟩

/-- BAR0 offset of SU_RESET. -/
def offSU_RESET : Nat := 0xA00010

/-- SU_RESET.BUSY. -/
def fSU_RESET_BUSY : Fld := ⟨offSU_RESET, 63, 63⟩
/-- SU_RESET.KEY. -/
def fSU_RESET_KEY : Fld := ⟨offSU_RESET, 7, 0⟩

/-- SU_MBX_CTL (R641 of 14_startup.md). -/
def specSUMBXCTL : RegSpec :=
  ⟨0xA00100, 1, 0x8, 1, 0x8, 0x0, [⟨63, 63, .ro, []⟩, ⟨62, 62, .w1c, []⟩, ⟨1, 1, .rw, []⟩, ⟨0, 0, .wo, []⟩]⟩

/-- BAR0 offset of SU_MBX_CTL. -/
def offSU_MBX_CTL : Nat := 0xA00100

/-- SU_MBX_CTL.BUSY. -/
def fSU_MBX_CTL_BUSY : Fld := ⟨offSU_MBX_CTL, 63, 63⟩
/-- SU_MBX_CTL.DONE. -/
def fSU_MBX_CTL_DONE : Fld := ⟨offSU_MBX_CTL, 62, 62⟩
/-- SU_MBX_CTL.IRQ_EN. -/
def fSU_MBX_CTL_IRQ_EN : Fld := ⟨offSU_MBX_CTL, 1, 1⟩
/-- SU_MBX_CTL.GO. -/
def fSU_MBX_CTL_GO : Fld := ⟨offSU_MBX_CTL, 0, 0⟩

/-- SU_MBX_REQ (R642 of 14_startup.md). -/
def specSUMBXREQ : RegSpec :=
  ⟨0xA01000, 512, 0x8, 1, 0x8, 0x0, [⟨63, 0, .rw, []⟩]⟩

/-- BAR0 offset of SU_MBX_REQ. -/
def offSU_MBX_REQ (i : Nat) : Nat := 0xA01000 + 0x8 * i

/-- SU_MBX_REQ.DATA. -/
def fSU_MBX_REQ_DATA (i : Nat) : Fld := ⟨offSU_MBX_REQ i, 63, 0⟩

/-- SU_MBX_RSP (R643 of 14_startup.md). -/
def specSUMBXRSP : RegSpec :=
  ⟨0xA02000, 512, 0x8, 1, 0x8, 0x0, [⟨63, 0, .ro, []⟩]⟩

/-- BAR0 offset of SU_MBX_RSP. -/
def offSU_MBX_RSP (i : Nat) : Nat := 0xA02000 + 0x8 * i

/-- SU_MBX_RSP.DATA. -/
def fSU_MBX_RSP_DATA (i : Nat) : Fld := ⟨offSU_MBX_RSP i, 63, 0⟩

/-- FLT_CFG (R664 of 15_faults.md). -/
def specFLTCFG : RegSpec :=
  ⟨0x600000, 1, 0x8, 1, 0x8, 0x0, [⟨63, 63, .w1s, []⟩, ⟨2, 0, .rwl, [(0, 4)]⟩]⟩

/-- BAR0 offset of FLT_CFG. -/
def offFLT_CFG : Nat := 0x600000

/-- FLT_CFG.LOCK. -/
def fFLT_CFG_LOCK : Fld := ⟨offFLT_CFG, 63, 63⟩
/-- FLT_CFG.MIN_SEV. -/
def fFLT_CFG_MIN_SEV : Fld := ⟨offFLT_CFG, 2, 0⟩

/-- FLT_HEALTH (R665 of 15_faults.md). -/
def specFLTHEALTH : RegSpec :=
  ⟨0x600008, 1, 0x8, 1, 0x8, 0x0, [⟨63, 62, .ro, []⟩, ⟨61, 61, .ro, []⟩, ⟨43, 40, .ro, []⟩, ⟨39, 32, .ro, []⟩,
    ⟨31, 16, .ro, []⟩, ⟨15, 0, .ro, []⟩]⟩

/-- BAR0 offset of FLT_HEALTH. -/
def offFLT_HEALTH : Nat := 0x600008

/-- FLT_HEALTH.STATE. -/
def fFLT_HEALTH_STATE : Fld := ⟨offFLT_HEALTH, 63, 62⟩
/-- FLT_HEALTH.SERVICE. -/
def fFLT_HEALTH_SERVICE : Fld := ⟨offFLT_HEALTH, 61, 61⟩
/-- FLT_HEALTH.HUBS_BAYS. -/
def fFLT_HEALTH_HUBS_BAYS : Fld := ⟨offFLT_HEALTH, 43, 40⟩
/-- FLT_HEALTH.DIES_LOST. -/
def fFLT_HEALTH_DIES_LOST : Fld := ⟨offFLT_HEALTH, 39, 32⟩
/-- FLT_HEALTH.STACKS_LOST. -/
def fFLT_HEALTH_STACKS_LOST : Fld := ⟨offFLT_HEALTH, 31, 16⟩
/-- FLT_HEALTH.LINKS_FAILED. -/
def fFLT_HEALTH_LINKS_FAILED : Fld := ⟨offFLT_HEALTH, 15, 0⟩

/-- FLT_REPLACE (R666 of 15_faults.md). -/
def specFLTREPLACE : RegSpec :=
  ⟨0x600010, 1, 0x8, 1, 0x8, 0x0, [⟨9, 9, .ro, []⟩, ⟨8, 8, .ro, []⟩, ⟨7, 7, .ro, []⟩, ⟨6, 6, .ro, []⟩,
    ⟨5, 5, .ro, []⟩, ⟨4, 4, .ro, []⟩, ⟨3, 3, .ro, []⟩, ⟨2, 2, .ro, []⟩,
    ⟨1, 1, .ro, []⟩, ⟨0, 0, .ro, []⟩]⟩

/-- BAR0 offset of FLT_REPLACE. -/
def offFLT_REPLACE : Nat := 0x600010

/-- FLT_REPLACE.LEAK. -/
def fFLT_REPLACE_LEAK : Fld := ⟨offFLT_REPLACE, 9, 9⟩
/-- FLT_REPLACE.SPARES. -/
def fFLT_REPLACE_SPARES : Fld := ⟨offFLT_REPLACE, 8, 8⟩
/-- FLT_REPLACE.GRADE. -/
def fFLT_REPLACE_GRADE : Fld := ⟨offFLT_REPLACE, 7, 7⟩
/-- FLT_REPLACE.BAY. -/
def fFLT_REPLACE_BAY : Fld := ⟨offFLT_REPLACE, 6, 6⟩
/-- FLT_REPLACE.HUB. -/
def fFLT_REPLACE_HUB : Fld := ⟨offFLT_REPLACE, 5, 5⟩
/-- FLT_REPLACE.DOWNRATE. -/
def fFLT_REPLACE_DOWNRATE : Fld := ⟨offFLT_REPLACE, 4, 4⟩
/-- FLT_REPLACE.LINK. -/
def fFLT_REPLACE_LINK : Fld := ⟨offFLT_REPLACE, 3, 3⟩
/-- FLT_REPLACE.REGION. -/
def fFLT_REPLACE_REGION : Fld := ⟨offFLT_REPLACE, 2, 2⟩
/-- FLT_REPLACE.DIE. -/
def fFLT_REPLACE_DIE : Fld := ⟨offFLT_REPLACE, 1, 1⟩
/-- FLT_REPLACE.STACK. -/
def fFLT_REPLACE_STACK : Fld := ⟨offFLT_REPLACE, 0, 0⟩

/-- FLT_CNT0 (R667 of 15_faults.md). -/
def specFLTCNT0 : RegSpec :=
  ⟨0x600018, 1, 0x8, 1, 0x8, 0x0, [⟨63, 32, .rw, []⟩, ⟨31, 0, .rw, []⟩]⟩

/-- BAR0 offset of FLT_CNT0. -/
def offFLT_CNT0 : Nat := 0x600018

/-- FLT_CNT0.CORRECTED. -/
def fFLT_CNT0_CORRECTED : Fld := ⟨offFLT_CNT0, 63, 32⟩
/-- FLT_CNT0.DEFERRED. -/
def fFLT_CNT0_DEFERRED : Fld := ⟨offFLT_CNT0, 31, 0⟩

/-- FLT_CNT1 (R667 of 15_faults.md). -/
def specFLTCNT1 : RegSpec :=
  ⟨0x600020, 1, 0x8, 1, 0x8, 0x0, [⟨63, 32, .rw, []⟩, ⟨31, 16, .rw, []⟩, ⟨15, 0, .rw, []⟩]⟩

/-- BAR0 offset of FLT_CNT1. -/
def offFLT_CNT1 : Nat := 0x600020

/-- FLT_CNT1.CONTAINED. -/
def fFLT_CNT1_CONTAINED : Fld := ⟨offFLT_CNT1, 63, 32⟩
/-- FLT_CNT1.DOMAIN. -/
def fFLT_CNT1_DOMAIN : Fld := ⟨offFLT_CNT1, 31, 16⟩
/-- FLT_CNT1.DEVICE. -/
def fFLT_CNT1_DEVICE : Fld := ⟨offFLT_CNT1, 15, 0⟩

/-- FLT_SEQ (R668 of 15_faults.md). -/
def specFLTSEQ : RegSpec :=
  ⟨0x600028, 1, 0x8, 1, 0x8, 0x0, [⟨63, 48, .ro, []⟩, ⟨41, 32, .ro, []⟩, ⟨31, 0, .ro, []⟩]⟩

/-- BAR0 offset of FLT_SEQ. -/
def offFLT_SEQ : Nat := 0x600028

/-- FLT_SEQ.BACKLOG_LOST. -/
def fFLT_SEQ_BACKLOG_LOST : Fld := ⟨offFLT_SEQ, 63, 48⟩
/-- FLT_SEQ.BACKLOG. -/
def fFLT_SEQ_BACKLOG : Fld := ⟨offFLT_SEQ, 41, 32⟩
/-- FLT_SEQ.NEXT_SEQ. -/
def fFLT_SEQ_NEXT_SEQ : Fld := ⟨offFLT_SEQ, 31, 0⟩

/-- FLT_ER_BASE (R669 of 15_faults.md). -/
def specFLTERBASE : RegSpec :=
  ⟨0x600100, 2, 0x40, 1, 0x8, 0x0, [⟨63, 6, .rw, []⟩]⟩

/-- BAR0 offset of FLT_ER_BASE. -/
def offFLT_ER_BASE (i : Nat) : Nat := 0x600100 + 0x40 * i

/-- FLT_ER_BASE.ADDR. -/
def fFLT_ER_BASE_ADDR (i : Nat) : Fld := ⟨offFLT_ER_BASE i, 63, 6⟩

/-- FLT_ER_WB (R670 of 15_faults.md). -/
def specFLTERWB : RegSpec :=
  ⟨0x600108, 2, 0x40, 1, 0x8, 0x0, [⟨63, 3, .rw, []⟩]⟩

/-- BAR0 offset of FLT_ER_WB. -/
def offFLT_ER_WB (i : Nat) : Nat := 0x600108 + 0x40 * i

/-- FLT_ER_WB.ADDR. -/
def fFLT_ER_WB_ADDR (i : Nat) : Fld := ⟨offFLT_ER_WB i, 63, 3⟩

/-- FLT_ER_CFG (R671 of 15_faults.md). -/
def specFLTERCFG : RegSpec :=
  ⟨0x600110, 2, 0x40, 1, 0x8, 0x0, [⟨41, 40, .rw, [(0, 2)]⟩, ⟨19, 9, .rw, []⟩, ⟨7, 7, .rw, []⟩, ⟨5, 1, .rw, []⟩,
    ⟨0, 0, .rw, []⟩]⟩

/-- BAR0 offset of FLT_ER_CFG. -/
def offFLT_ER_CFG (i : Nat) : Nat := 0x600110 + 0x40 * i

/-- FLT_ER_CFG.PORT. -/
def fFLT_ER_CFG_PORT (i : Nat) : Fld := ⟨offFLT_ER_CFG i, 41, 40⟩
/-- FLT_ER_CFG.VECTOR. -/
def fFLT_ER_CFG_VECTOR (i : Nat) : Fld := ⟨offFLT_ER_CFG i, 19, 9⟩
/-- FLT_ER_CFG.IRQ_EN. -/
def fFLT_ER_CFG_IRQ_EN (i : Nat) : Fld := ⟨offFLT_ER_CFG i, 7, 7⟩
/-- FLT_ER_CFG.LOG2SZ. -/
def fFLT_ER_CFG_LOG2SZ (i : Nat) : Fld := ⟨offFLT_ER_CFG i, 5, 1⟩
/-- FLT_ER_CFG.ENABLE. -/
def fFLT_ER_CFG_ENABLE (i : Nat) : Fld := ⟨offFLT_ER_CFG i, 0, 0⟩

/-- FLT_ER_STATE (R672 of 15_faults.md). -/
def specFLTERSTATE : RegSpec :=
  ⟨0x600118, 2, 0x40, 1, 0x8, 0x0, [⟨63, 62, .ro, []⟩, ⟨55, 48, .ro, []⟩, ⟨31, 16, .ro, []⟩, ⟨15, 0, .rw, []⟩]⟩

/-- BAR0 offset of FLT_ER_STATE. -/
def offFLT_ER_STATE (i : Nat) : Nat := 0x600118 + 0x40 * i

/-- FLT_ER_STATE.STATE. -/
def fFLT_ER_STATE_STATE (i : Nat) : Fld := ⟨offFLT_ER_STATE i, 63, 62⟩
/-- FLT_ER_STATE.CAUSE. -/
def fFLT_ER_STATE_CAUSE (i : Nat) : Fld := ⟨offFLT_ER_STATE i, 55, 48⟩
/-- FLT_ER_STATE.TAIL. -/
def fFLT_ER_STATE_TAIL (i : Nat) : Fld := ⟨offFLT_ER_STATE i, 31, 16⟩
/-- FLT_ER_STATE.HEAD. -/
def fFLT_ER_STATE_HEAD (i : Nat) : Fld := ⟨offFLT_ER_STATE i, 15, 0⟩

/-- FLT_ER_LOST (R673 of 15_faults.md). -/
def specFLTERLOST : RegSpec :=
  ⟨0x600120, 2, 0x40, 1, 0x8, 0x0, [⟨31, 0, .rw, []⟩]⟩

/-- BAR0 offset of FLT_ER_LOST. -/
def offFLT_ER_LOST (i : Nat) : Nat := 0x600120 + 0x40 * i

/-- FLT_ER_LOST.LOST. -/
def fFLT_ER_LOST_LOST (i : Nat) : Fld := ⟨offFLT_ER_LOST i, 31, 0⟩

/-- OBS_TIME (R704 of 16_observability.md). -/
def specOBSTIME : RegSpec :=
  ⟨0x700000, 1, 0x8, 1, 0x8, 0x0, [⟨63, 0, .ro, []⟩]⟩

/-- BAR0 offset of OBS_TIME. -/
def offOBS_TIME : Nat := 0x700000

/-- OBS_TIME.NS. -/
def fOBS_TIME_NS : Fld := ⟨offOBS_TIME, 63, 0⟩

/-- OBS_TSYNC_CFG (R705 of 16_observability.md). -/
def specOBSTSYNCCFG : RegSpec :=
  ⟨0x700008, 1, 0x8, 1, 0x8, 0x0, [⟨27, 16, .rw, []⟩, ⟨1, 0, .rw, [(0, 2)]⟩]⟩

/-- BAR0 offset of OBS_TSYNC_CFG. -/
def offOBS_TSYNC_CFG : Nat := 0x700008

/-- OBS_TSYNC_CFG.MASTER_ID. -/
def fOBS_TSYNC_CFG_MASTER_ID : Fld := ⟨offOBS_TSYNC_CFG, 27, 16⟩
/-- OBS_TSYNC_CFG.SRC. -/
def fOBS_TSYNC_CFG_SRC : Fld := ⟨offOBS_TSYNC_CFG, 1, 0⟩

/-- OBS_TSYNC_STAT (R706 of 16_observability.md). -/
def specOBSTSYNCSTAT : RegSpec :=
  ⟨0x700010, 1, 0x8, 1, 0x8, 0x0, [⟨63, 62, .ro, []⟩, ⟨47, 32, .ro, []⟩, ⟨31, 0, .ro, []⟩]⟩

/-- BAR0 offset of OBS_TSYNC_STAT. -/
def offOBS_TSYNC_STAT : Nat := 0x700010

/-- OBS_TSYNC_STAT.STATE. -/
def fOBS_TSYNC_STAT_STATE : Fld := ⟨offOBS_TSYNC_STAT, 63, 62⟩
/-- OBS_TSYNC_STAT.STEPS. -/
def fOBS_TSYNC_STAT_STEPS : Fld := ⟨offOBS_TSYNC_STAT, 47, 32⟩
/-- OBS_TSYNC_STAT.OFFSET_NS. -/
def fOBS_TSYNC_STAT_OFFSET_NS : Fld := ⟨offOBS_TSYNC_STAT, 31, 0⟩

/-- OBS_TSYNC_STEP (R707 of 16_observability.md). -/
def specOBSTSYNCSTEP : RegSpec :=
  ⟨0x700018, 1, 0x8, 1, 0x8, 0x0, [⟨63, 0, .wo, []⟩]⟩

/-- BAR0 offset of OBS_TSYNC_STEP. -/
def offOBS_TSYNC_STEP : Nat := 0x700018

/-- OBS_TSYNC_STEP.DELTA_NS. -/
def fOBS_TSYNC_STEP_DELTA_NS : Fld := ⟨offOBS_TSYNC_STEP, 63, 0⟩

/-- OBS_CFG (R708 of 16_observability.md). -/
def specOBSCFG : RegSpec :=
  ⟨0x700020, 1, 0x8, 1, 0x8, 0x3E8, [⟨63, 63, .w1s, []⟩, ⟨39, 20, .rwl, [(0, 0), (100, 1000000)]⟩, ⟨19, 0, .rwl, [(100, 100000)]⟩]⟩

/-- BAR0 offset of OBS_CFG. -/
def offOBS_CFG : Nat := 0x700020

/-- OBS_CFG.LOCK. -/
def fOBS_CFG_LOCK : Fld := ⟨offOBS_CFG, 63, 63⟩
/-- OBS_CFG.SAMPLE_US. -/
def fOBS_CFG_SAMPLE_US : Fld := ⟨offOBS_CFG, 39, 20⟩
/-- OBS_CFG.SNAP_US. -/
def fOBS_CFG_SNAP_US : Fld := ⟨offOBS_CFG, 19, 0⟩

/-- OBS_SLC_SEL (R709 of 16_observability.md). -/
def specOBSSLCSEL : RegSpec :=
  ⟨0x700100, 16, 0x20, 3, 0x8, 0x0, [⟨7, 0, .rw, []⟩, ⟨15, 8, .rw, []⟩, ⟨23, 16, .rw, []⟩, ⟨31, 24, .rw, []⟩,
    ⟨39, 32, .rw, []⟩, ⟨47, 40, .rw, []⟩, ⟨55, 48, .rw, []⟩, ⟨63, 56, .rw, []⟩]⟩

/-- BAR0 offset of OBS_SLC_SEL. -/
def offOBS_SLC_SEL (i j : Nat) : Nat := 0x700100 + 0x20 * i + 0x8 * j


/-- OBS_DIE_SEL (R709 of 16_observability.md). -/
def specOBSDIESEL : RegSpec :=
  ⟨0x700400, 8, 0x20, 4, 0x8, 0x0, [⟨7, 0, .rw, []⟩, ⟨15, 8, .rw, []⟩, ⟨23, 16, .rw, []⟩, ⟨31, 24, .rw, []⟩,
    ⟨39, 32, .rw, []⟩, ⟨47, 40, .rw, []⟩, ⟨55, 48, .rw, []⟩, ⟨63, 56, .rw, []⟩]⟩

/-- BAR0 offset of OBS_DIE_SEL. -/
def offOBS_DIE_SEL (i j : Nat) : Nat := 0x700400 + 0x20 * i + 0x8 * j


/-- OBS_HUB_SEL (R709 of 16_observability.md). -/
def specOBSHUBSEL : RegSpec :=
  ⟨0x700500, 2, 0x40, 8, 0x8, 0x0, [⟨7, 0, .rw, []⟩, ⟨15, 8, .rw, []⟩, ⟨23, 16, .rw, []⟩, ⟨31, 24, .rw, []⟩,
    ⟨39, 32, .rw, []⟩, ⟨47, 40, .rw, []⟩, ⟨55, 48, .rw, []⟩, ⟨63, 56, .rw, []⟩]⟩

/-- BAR0 offset of OBS_HUB_SEL. -/
def offOBS_HUB_SEL (i j : Nat) : Nat := 0x700500 + 0x40 * i + 0x8 * j


/-- OBS_DIE_CTR (R710 of 16_observability.md). -/
def specOBSDIECTR : RegSpec :=
  ⟨0x701000, 8, 0x100, 32, 0x8, 0x0, [⟨63, 0, .rw, []⟩]⟩

/-- BAR0 offset of OBS_DIE_CTR. -/
def offOBS_DIE_CTR (i j : Nat) : Nat := 0x701000 + 0x100 * i + 0x8 * j

/-- OBS_DIE_CTR.COUNT. -/
def fOBS_DIE_CTR_COUNT (i j : Nat) : Fld := ⟨offOBS_DIE_CTR i j, 63, 0⟩

/-- OBS_HUB_CTR (R710 of 16_observability.md). -/
def specOBSHUBCTR : RegSpec :=
  ⟨0x701800, 2, 0x200, 64, 0x8, 0x0, [⟨63, 0, .rw, []⟩]⟩

/-- BAR0 offset of OBS_HUB_CTR. -/
def offOBS_HUB_CTR (i j : Nat) : Nat := 0x701800 + 0x200 * i + 0x8 * j

/-- OBS_HUB_CTR.COUNT. -/
def fOBS_HUB_CTR_COUNT (i j : Nat) : Fld := ⟨offOBS_HUB_CTR i j, 63, 0⟩

/-- OBS_TRC_CFG (R711 of 16_observability.md). -/
def specOBSTRCCFG : RegSpec :=
  ⟨0x702000, 1, 0x8, 1, 0x8, 0x0, [⟨63, 48, .rw, []⟩, ⟨47, 32, .rw, []⟩, ⟨0, 0, .rw, []⟩]⟩

/-- BAR0 offset of OBS_TRC_CFG. -/
def offOBS_TRC_CFG : Nat := 0x702000

/-- OBS_TRC_CFG.CHAN_EN. -/
def fOBS_TRC_CFG_CHAN_EN : Fld := ⟨offOBS_TRC_CFG, 63, 48⟩
/-- OBS_TRC_CFG.SLICE_EN. -/
def fOBS_TRC_CFG_SLICE_EN : Fld := ⟨offOBS_TRC_CFG, 47, 32⟩
/-- OBS_TRC_CFG.EN. -/
def fOBS_TRC_CFG_EN : Fld := ⟨offOBS_TRC_CFG, 0, 0⟩

/-- OBS_TRB_BASE (R712 of 16_observability.md). -/
def specOBSTRBBASE : RegSpec :=
  ⟨0x702100, 2, 0x40, 1, 0x8, 0x0, [⟨63, 6, .rw, []⟩]⟩

/-- BAR0 offset of OBS_TRB_BASE. -/
def offOBS_TRB_BASE (i : Nat) : Nat := 0x702100 + 0x40 * i

/-- OBS_TRB_BASE.ADDR. -/
def fOBS_TRB_BASE_ADDR (i : Nat) : Fld := ⟨offOBS_TRB_BASE i, 63, 6⟩

/-- OBS_TRB_WB (R712 of 16_observability.md). -/
def specOBSTRBWB : RegSpec :=
  ⟨0x702108, 2, 0x40, 1, 0x8, 0x0, [⟨63, 3, .rw, []⟩]⟩

/-- BAR0 offset of OBS_TRB_WB. -/
def offOBS_TRB_WB (i : Nat) : Nat := 0x702108 + 0x40 * i

/-- OBS_TRB_WB.ADDR. -/
def fOBS_TRB_WB_ADDR (i : Nat) : Fld := ⟨offOBS_TRB_WB i, 63, 3⟩

/-- OBS_TRB_CFG (R712 of 16_observability.md). -/
def specOBSTRBCFG : RegSpec :=
  ⟨0x702110, 2, 0x40, 1, 0x8, 0x0, [⟨41, 40, .rw, [(0, 2)]⟩, ⟨19, 9, .rw, []⟩, ⟨7, 7, .rw, []⟩, ⟨5, 1, .rw, []⟩,
    ⟨0, 0, .rw, []⟩]⟩

/-- BAR0 offset of OBS_TRB_CFG. -/
def offOBS_TRB_CFG (i : Nat) : Nat := 0x702110 + 0x40 * i

/-- OBS_TRB_CFG.PORT. -/
def fOBS_TRB_CFG_PORT (i : Nat) : Fld := ⟨offOBS_TRB_CFG i, 41, 40⟩
/-- OBS_TRB_CFG.VECTOR. -/
def fOBS_TRB_CFG_VECTOR (i : Nat) : Fld := ⟨offOBS_TRB_CFG i, 19, 9⟩
/-- OBS_TRB_CFG.IRQ_EN. -/
def fOBS_TRB_CFG_IRQ_EN (i : Nat) : Fld := ⟨offOBS_TRB_CFG i, 7, 7⟩
/-- OBS_TRB_CFG.LOG2SZ. -/
def fOBS_TRB_CFG_LOG2SZ (i : Nat) : Fld := ⟨offOBS_TRB_CFG i, 5, 1⟩
/-- OBS_TRB_CFG.ENABLE. -/
def fOBS_TRB_CFG_ENABLE (i : Nat) : Fld := ⟨offOBS_TRB_CFG i, 0, 0⟩

/-- OBS_TRB_STATE (R712 of 16_observability.md). -/
def specOBSTRBSTATE : RegSpec :=
  ⟨0x702118, 2, 0x40, 1, 0x8, 0x0, [⟨63, 62, .ro, []⟩, ⟨55, 48, .ro, []⟩, ⟨31, 16, .ro, []⟩, ⟨15, 0, .rw, []⟩]⟩

/-- BAR0 offset of OBS_TRB_STATE. -/
def offOBS_TRB_STATE (i : Nat) : Nat := 0x702118 + 0x40 * i

/-- OBS_TRB_STATE.STATE. -/
def fOBS_TRB_STATE_STATE (i : Nat) : Fld := ⟨offOBS_TRB_STATE i, 63, 62⟩
/-- OBS_TRB_STATE.CAUSE. -/
def fOBS_TRB_STATE_CAUSE (i : Nat) : Fld := ⟨offOBS_TRB_STATE i, 55, 48⟩
/-- OBS_TRB_STATE.TAIL. -/
def fOBS_TRB_STATE_TAIL (i : Nat) : Fld := ⟨offOBS_TRB_STATE i, 31, 16⟩
/-- OBS_TRB_STATE.HEAD. -/
def fOBS_TRB_STATE_HEAD (i : Nat) : Fld := ⟨offOBS_TRB_STATE i, 15, 0⟩

/-- OBS_TRB_DROPS (R712 of 16_observability.md). -/
def specOBSTRBDROPS : RegSpec :=
  ⟨0x702120, 2, 0x40, 1, 0x8, 0x0, [⟨31, 0, .rw, []⟩]⟩

/-- BAR0 offset of OBS_TRB_DROPS. -/
def offOBS_TRB_DROPS (i : Nat) : Nat := 0x702120 + 0x40 * i

/-- OBS_TRB_DROPS.DROPS. -/
def fOBS_TRB_DROPS_DROPS (i : Nat) : Fld := ⟨offOBS_TRB_DROPS i, 31, 0⟩

/-- OBS_CMP_MATCH (R713 of 16_observability.md). -/
def specOBSCMPMATCH : RegSpec :=
  ⟨0x702200, 4, 0x20, 1, 0x8, 0x0, [⟨63, 48, .rw, []⟩, ⟨47, 32, .rw, []⟩, ⟨31, 0, .rw, []⟩]⟩

/-- BAR0 offset of OBS_CMP_MATCH. -/
def offOBS_CMP_MATCH (i : Nat) : Nat := 0x702200 + 0x20 * i

/-- OBS_CMP_MATCH.OP_ID. -/
def fOBS_CMP_MATCH_OP_ID (i : Nat) : Fld := ⟨offOBS_CMP_MATCH i, 63, 48⟩
/-- OBS_CMP_MATCH.LAYER_ID. -/
def fOBS_CMP_MATCH_LAYER_ID (i : Nat) : Fld := ⟨offOBS_CMP_MATCH i, 47, 32⟩
/-- OBS_CMP_MATCH.JOB_ID. -/
def fOBS_CMP_MATCH_JOB_ID (i : Nat) : Fld := ⟨offOBS_CMP_MATCH i, 31, 0⟩

/-- OBS_CMP_MASK (R713 of 16_observability.md). -/
def specOBSCMPMASK : RegSpec :=
  ⟨0x702208, 4, 0x20, 1, 0x8, 0x0, [⟨63, 48, .rw, []⟩, ⟨47, 32, .rw, []⟩, ⟨31, 0, .rw, []⟩]⟩

/-- BAR0 offset of OBS_CMP_MASK. -/
def offOBS_CMP_MASK (i : Nat) : Nat := 0x702208 + 0x20 * i

/-- OBS_CMP_MASK.OP_ID. -/
def fOBS_CMP_MASK_OP_ID (i : Nat) : Fld := ⟨offOBS_CMP_MASK i, 63, 48⟩
/-- OBS_CMP_MASK.LAYER_ID. -/
def fOBS_CMP_MASK_LAYER_ID (i : Nat) : Fld := ⟨offOBS_CMP_MASK i, 47, 32⟩
/-- OBS_CMP_MASK.JOB_ID. -/
def fOBS_CMP_MASK_JOB_ID (i : Nat) : Fld := ⟨offOBS_CMP_MASK i, 31, 0⟩

/-- OBS_CMP_CTL (R713 of 16_observability.md). -/
def specOBSCMPCTL : RegSpec :=
  ⟨0x702210, 4, 0x20, 1, 0x8, 0x0, [⟨63, 63, .rw, []⟩, ⟨19, 16, .rw, []⟩, ⟨12, 8, .rw, [(0, 15), (31, 31)]⟩, ⟨7, 0, .rw, []⟩]⟩

/-- BAR0 offset of OBS_CMP_CTL. -/
def offOBS_CMP_CTL (i : Nat) : Nat := 0x702210 + 0x20 * i

/-- OBS_CMP_CTL.EN. -/
def fOBS_CMP_CTL_EN (i : Nat) : Fld := ⟨offOBS_CMP_CTL i, 63, 63⟩
/-- OBS_CMP_CTL.ACTION. -/
def fOBS_CMP_CTL_ACTION (i : Nat) : Fld := ⟨offOBS_CMP_CTL i, 19, 16⟩
/-- OBS_CMP_CTL.SLICE. -/
def fOBS_CMP_CTL_SLICE (i : Nat) : Fld := ⟨offOBS_CMP_CTL i, 12, 8⟩
/-- OBS_CMP_CTL.KIND. -/
def fOBS_CMP_CTL_KIND (i : Nat) : Fld := ⟨offOBS_CMP_CTL i, 7, 0⟩

/-- OBS_WHOA_CFG (R714 of 16_observability.md). -/
def specOBSWHOACFG : RegSpec :=
  ⟨0x703000, 1, 0x8, 1, 0x8, 0x0, [⟨63, 63, .ro, []⟩, ⟨1, 1, .rw, []⟩, ⟨0, 0, .rw, []⟩]⟩

/-- BAR0 offset of OBS_WHOA_CFG. -/
def offOBS_WHOA_CFG : Nat := 0x703000

/-- OBS_WHOA_CFG.ARMED. -/
def fOBS_WHOA_CFG_ARMED : Fld := ⟨offOBS_WHOA_CFG, 63, 63⟩
/-- OBS_WHOA_CFG.IN_EN. -/
def fOBS_WHOA_CFG_IN_EN : Fld := ⟨offOBS_WHOA_CFG, 1, 1⟩
/-- OBS_WHOA_CFG.OUT_EN. -/
def fOBS_WHOA_CFG_OUT_EN : Fld := ⟨offOBS_WHOA_CFG, 0, 0⟩

/-- OBS_WHOA_CTL (R715 of 16_observability.md). -/
def specOBSWHOACTL : RegSpec :=
  ⟨0x703008, 1, 0x8, 1, 0x8, 0x0, [⟨63, 63, .ro, []⟩, ⟨55, 48, .ro, []⟩, ⟨1, 1, .wo, []⟩, ⟨0, 0, .wo, []⟩]⟩

/-- BAR0 offset of OBS_WHOA_CTL. -/
def offOBS_WHOA_CTL : Nat := 0x703008

/-- OBS_WHOA_CTL.STOPPED. -/
def fOBS_WHOA_CTL_STOPPED : Fld := ⟨offOBS_WHOA_CTL, 63, 63⟩
/-- OBS_WHOA_CTL.SOURCE. -/
def fOBS_WHOA_CTL_SOURCE : Fld := ⟨offOBS_WHOA_CTL, 55, 48⟩
/-- OBS_WHOA_CTL.RESUME. -/
def fOBS_WHOA_CTL_RESUME : Fld := ⟨offOBS_WHOA_CTL, 1, 1⟩
/-- OBS_WHOA_CTL.STOP. -/
def fOBS_WHOA_CTL_STOP : Fld := ⟨offOBS_WHOA_CTL, 0, 0⟩

/-- OBS_DUMP_BASE (R716 of 16_observability.md). -/
def specOBSDUMPBASE : RegSpec :=
  ⟨0x703100, 2, 0x40, 1, 0x8, 0x0, [⟨63, 12, .rw, []⟩, ⟨1, 0, .rw, [(0, 2)]⟩]⟩

/-- BAR0 offset of OBS_DUMP_BASE. -/
def offOBS_DUMP_BASE (i : Nat) : Nat := 0x703100 + 0x40 * i

/-- OBS_DUMP_BASE.ADDR. -/
def fOBS_DUMP_BASE_ADDR (i : Nat) : Fld := ⟨offOBS_DUMP_BASE i, 63, 12⟩
/-- OBS_DUMP_BASE.PORT. -/
def fOBS_DUMP_BASE_PORT (i : Nat) : Fld := ⟨offOBS_DUMP_BASE i, 1, 0⟩

/-- OBS_DUMP_LEN (R716 of 16_observability.md). -/
def specOBSDUMPLEN : RegSpec :=
  ⟨0x703108, 2, 0x40, 1, 0x8, 0x0, [⟨47, 0, .rw, []⟩]⟩

/-- BAR0 offset of OBS_DUMP_LEN. -/
def offOBS_DUMP_LEN (i : Nat) : Nat := 0x703108 + 0x40 * i

/-- OBS_DUMP_LEN.DUMP_LEN. -/
def fOBS_DUMP_LEN_DUMP_LEN (i : Nat) : Fld := ⟨offOBS_DUMP_LEN i, 47, 0⟩

/-- OBS_DUMP_CTL (R716 of 16_observability.md). -/
def specOBSDUMPCTL : RegSpec :=
  ⟨0x703110, 2, 0x40, 1, 0x8, 0x0, [⟨53, 43, .rw, []⟩, ⟨42, 42, .rw, []⟩, ⟨41, 32, .rw, []⟩, ⟨21, 20, .rw, [(0, 2)]⟩,
    ⟨19, 16, .rw, []⟩, ⟨2, 2, .wo, []⟩, ⟨1, 1, .wo, []⟩, ⟨0, 0, .wo, []⟩]⟩

/-- BAR0 offset of OBS_DUMP_CTL. -/
def offOBS_DUMP_CTL (i : Nat) : Nat := 0x703110 + 0x40 * i

/-- OBS_DUMP_CTL.VECTOR. -/
def fOBS_DUMP_CTL_VECTOR (i : Nat) : Fld := ⟨offOBS_DUMP_CTL i, 53, 43⟩
/-- OBS_DUMP_CTL.IRQ_EN. -/
def fOBS_DUMP_CTL_IRQ_EN (i : Nat) : Fld := ⟨offOBS_DUMP_CTL i, 42, 42⟩
/-- OBS_DUMP_CTL.CLASSES. -/
def fOBS_DUMP_CTL_CLASSES (i : Nat) : Fld := ⟨offOBS_DUMP_CTL i, 41, 32⟩
/-- OBS_DUMP_CTL.ACTION. -/
def fOBS_DUMP_CTL_ACTION (i : Nat) : Fld := ⟨offOBS_DUMP_CTL i, 21, 20⟩
/-- OBS_DUMP_CTL.SLICE. -/
def fOBS_DUMP_CTL_SLICE (i : Nat) : Fld := ⟨offOBS_DUMP_CTL i, 19, 16⟩
/-- OBS_DUMP_CTL.ABORT_HELD. -/
def fOBS_DUMP_CTL_ABORT_HELD (i : Nat) : Fld := ⟨offOBS_DUMP_CTL i, 2, 2⟩
/-- OBS_DUMP_CTL.RESUME_HELD. -/
def fOBS_DUMP_CTL_RESUME_HELD (i : Nat) : Fld := ⟨offOBS_DUMP_CTL i, 1, 1⟩
/-- OBS_DUMP_CTL.GO. -/
def fOBS_DUMP_CTL_GO (i : Nat) : Fld := ⟨offOBS_DUMP_CTL i, 0, 0⟩

/-- OBS_DUMP_STAT (R717 of 16_observability.md). -/
def specOBSDUMPSTAT : RegSpec :=
  ⟨0x703118, 2, 0x40, 1, 0x8, 0x0, [⟨63, 62, .ro, []⟩, ⟨55, 48, .ro, []⟩, ⟨43, 40, .ro, []⟩, ⟨39, 39, .ro, []⟩, ⟨38, 38, .ro, []⟩,
    ⟨37, 0, .ro, []⟩]⟩

/-- BAR0 offset of OBS_DUMP_STAT. -/
def offOBS_DUMP_STAT (i : Nat) : Nat := 0x703118 + 0x40 * i

/-- OBS_DUMP_STAT.STATE. -/
def fOBS_DUMP_STAT_STATE (i : Nat) : Fld := ⟨offOBS_DUMP_STAT i, 63, 62⟩
/-- OBS_DUMP_STAT.ERR. -/
def fOBS_DUMP_STAT_ERR (i : Nat) : Fld := ⟨offOBS_DUMP_STAT i, 55, 48⟩
/-- OBS_DUMP_STAT.TRIG_CHAN. -/
def fOBS_DUMP_STAT_TRIG_CHAN (i : Nat) : Fld := ⟨offOBS_DUMP_STAT i, 43, 40⟩
/-- OBS_DUMP_STAT.TRUNC. -/
def fOBS_DUMP_STAT_TRUNC (i : Nat) : Fld := ⟨offOBS_DUMP_STAT i, 39, 39⟩
/-- OBS_DUMP_STAT.WD. -/
def fOBS_DUMP_STAT_WD (i : Nat) : Fld := ⟨offOBS_DUMP_STAT i, 38, 38⟩
/-- OBS_DUMP_STAT.BYTES. -/
def fOBS_DUMP_STAT_BYTES (i : Nat) : Fld := ⟨offOBS_DUMP_STAT i, 37, 0⟩

/-- OBS_CHWD (R718 of 16_observability.md). -/
def specOBSCHWD : RegSpec :=
  ⟨0x703200, 2, 0x8, 1, 0x8, 0x0, [⟨7, 0, .rw, []⟩, ⟨15, 8, .rw, []⟩, ⟨23, 16, .rw, []⟩, ⟨31, 24, .rw, []⟩,
    ⟨39, 32, .rw, []⟩, ⟨47, 40, .rw, []⟩, ⟨55, 48, .rw, []⟩, ⟨63, 56, .rw, []⟩]⟩

/-- BAR0 offset of OBS_CHWD. -/
def offOBS_CHWD (i : Nat) : Nat := 0x703200 + 0x8 * i


/-- SU_FW (R738 of 17_management.md). -/
def specSUFW : RegSpec :=
  ⟨0xA00020, 1, 0x8, 1, 0x8, 0x0, [⟨63, 63, .ro, []⟩, ⟨62, 62, .ro, []⟩, ⟨55, 48, .ro, []⟩, ⟨47, 40, .ro, []⟩,
    ⟨39, 32, .ro, []⟩, ⟨29, 28, .ro, []⟩, ⟨27, 26, .ro, []⟩, ⟨25, 24, .ro, []⟩,
    ⟨2, 0, .ro, []⟩]⟩

/-- BAR0 offset of SU_FW. -/
def offSU_FW : Nat := 0xA00020

/-- SU_FW.DEBUG. -/
def fSU_FW_DEBUG : Fld := ⟨offSU_FW, 63, 63⟩
/-- SU_FW.DEBUG_FUSED. -/
def fSU_FW_DEBUG_FUSED : Fld := ⟨offSU_FW, 62, 62⟩
/-- SU_FW.FUSE_SVN. -/
def fSU_FW_FUSE_SVN : Fld := ⟨offSU_FW, 55, 48⟩
/-- SU_FW.SVN_A. -/
def fSU_FW_SVN_A : Fld := ⟨offSU_FW, 47, 40⟩
/-- SU_FW.SVN_B. -/
def fSU_FW_SVN_B : Fld := ⟨offSU_FW, 39, 32⟩
/-- SU_FW.RUN_BANK. -/
def fSU_FW_RUN_BANK : Fld := ⟨offSU_FW, 29, 28⟩
/-- SU_FW.TRIAL_BANK. -/
def fSU_FW_TRIAL_BANK : Fld := ⟨offSU_FW, 27, 26⟩
/-- SU_FW.PRIMARY. -/
def fSU_FW_PRIMARY : Fld := ⟨offSU_FW, 25, 24⟩
/-- SU_FW.UPDATE. -/
def fSU_FW_UPDATE : Fld := ⟨offSU_FW, 2, 0⟩

/-- SO_CFG (R757 of 18_scale_out.md). -/
def specSOCFG : RegSpec :=
  ⟨0x800000, 1, 0x8, 1, 0x8, 0xD7A088B5, [⟨63, 63, .w1s, []⟩, ⟨50, 50, .rw, []⟩, ⟨48, 48, .rwl, []⟩, ⟨43, 32, .rwl, []⟩,
    ⟨31, 16, .rwl, []⟩, ⟨15, 0, .rwl, []⟩]⟩

/-- BAR0 offset of SO_CFG. -/
def offSO_CFG : Nat := 0x800000

/-- SO_CFG.LOCK. -/
def fSO_CFG_LOCK : Fld := ⟨offSO_CFG, 63, 63⟩
/-- SO_CFG.EN. -/
def fSO_CFG_EN : Fld := ⟨offSO_CFG, 50, 50⟩
/-- SO_CFG.ENCAP. -/
def fSO_CFG_ENCAP : Fld := ⟨offSO_CFG, 48, 48⟩
/-- SO_CFG.MODULE_ID. -/
def fSO_CFG_MODULE_ID : Fld := ⟨offSO_CFG, 43, 32⟩
/-- SO_CFG.UDP_PORT. -/
def fSO_CFG_UDP_PORT : Fld := ⟨offSO_CFG, 31, 16⟩
/-- SO_CFG.ETHERTYPE. -/
def fSO_CFG_ETHERTYPE : Fld := ⟨offSO_CFG, 15, 0⟩

/-- SO_RC (R758 of 18_scale_out.md). -/
def specSORC : RegSpec :=
  ⟨0x800008, 1, 0x8, 1, 0x8, 0xA00032464, [⟨47, 32, .rw, []⟩, ⟨31, 20, .rw, []⟩, ⟨19, 12, .rw, [(1, 255)]⟩, ⟨11, 8, .rw, [(1, 8)]⟩,
    ⟨7, 0, .rw, []⟩]⟩

/-- BAR0 offset of SO_RC. -/
def offSO_RC : Nat := 0x800008

/-- SO_RC.RAI. -/
def fSO_RC_RAI : Fld := ⟨offSO_RC, 47, 32⟩
/-- SO_RC.RTO_US. -/
def fSO_RC_RTO_US : Fld := ⟨offSO_RC, 31, 20⟩
/-- SO_RC.INC_US. -/
def fSO_RC_INC_US : Fld := ⟨offSO_RC, 19, 12⟩
/-- SO_RC.DEC_SHIFT. -/
def fSO_RC_DEC_SHIFT : Fld := ⟨offSO_RC, 11, 8⟩
/-- SO_RC.RMIN. -/
def fSO_RC_RMIN : Fld := ⟨offSO_RC, 7, 0⟩

/-- SO_SRC6_HI (R759 of 18_scale_out.md). -/
def specSOSRC6HI : RegSpec :=
  ⟨0x800010, 1, 0x8, 1, 0x8, 0x0, [⟨63, 0, .rwl, []⟩]⟩

/-- BAR0 offset of SO_SRC6_HI. -/
def offSO_SRC6_HI : Nat := 0x800010

/-- SO_SRC6_HI.ADDR_HI. -/
def fSO_SRC6_HI_ADDR_HI : Fld := ⟨offSO_SRC6_HI, 63, 0⟩

/-- SO_SRC6_LO (R759 of 18_scale_out.md). -/
def specSOSRC6LO : RegSpec :=
  ⟨0x800018, 1, 0x8, 1, 0x8, 0x0, [⟨63, 0, .rwl, []⟩]⟩

/-- BAR0 offset of SO_SRC6_LO. -/
def offSO_SRC6_LO : Nat := 0x800018

/-- SO_SRC6_LO.ADDR_LO. -/
def fSO_SRC6_LO_ADDR_LO : Fld := ⟨offSO_SRC6_LO, 63, 0⟩

/-- SO_PEER_RESET (R760 of 18_scale_out.md). -/
def specSOPEERRESET : RegSpec :=
  ⟨0x800020, 1, 0x8, 1, 0x8, 0x0, [⟨63, 63, .ro, []⟩, ⟨11, 0, .wo, []⟩]⟩

/-- BAR0 offset of SO_PEER_RESET. -/
def offSO_PEER_RESET : Nat := 0x800020

/-- SO_PEER_RESET.BUSY. -/
def fSO_PEER_RESET_BUSY : Fld := ⟨offSO_PEER_RESET, 63, 63⟩
/-- SO_PEER_RESET.MODULE. -/
def fSO_PEER_RESET_MODULE : Fld := ⟨offSO_PEER_RESET, 11, 0⟩

/-- SO_RTX (R761 of 18_scale_out.md). -/
def specSORTX : RegSpec :=
  ⟨0x800040, 2, 0x8, 1, 0x8, 0x0, [⟨63, 48, .rwl, [(64, 4096)]⟩, ⟨47, 21, .rwl, []⟩]⟩

/-- BAR0 offset of SO_RTX. -/
def offSO_RTX (i : Nat) : Nat := 0x800040 + 0x8 * i

/-- SO_RTX.SIZE_MIB. -/
def fSO_RTX_SIZE_MIB (i : Nat) : Fld := ⟨offSO_RTX i, 63, 48⟩
/-- SO_RTX.BASE. -/
def fSO_RTX_BASE (i : Nat) : Fld := ⟨offSO_RTX i, 47, 21⟩

/-- SO_STAT (R762 of 18_scale_out.md). -/
def specSOSTAT : RegSpec :=
  ⟨0x800060, 2, 0x8, 1, 0x8, 0x0, [⟨63, 49, .ro, []⟩, ⟨47, 24, .rw, []⟩, ⟨23, 0, .rw, []⟩]⟩

/-- BAR0 offset of SO_STAT. -/
def offSO_STAT (i : Nat) : Nat := 0x800060 + 0x8 * i

/-- SO_STAT.FLOWS. -/
def fSO_STAT_FLOWS (i : Nat) : Fld := ⟨offSO_STAT i, 63, 49⟩
/-- SO_STAT.CNP_RX. -/
def fSO_STAT_CNP_RX (i : Nat) : Fld := ⟨offSO_STAT i, 47, 24⟩
/-- SO_STAT.RESENDS. -/
def fSO_STAT_RESENDS (i : Nat) : Fld := ⟨offSO_STAT i, 23, 0⟩

/-- SO_GRP (R763 of 18_scale_out.md). -/
def specSOGRP : RegSpec :=
  ⟨0x800100, 12, 0x8, 1, 0x8, 0x0, [⟨9, 8, .rw, [(0, 2)]⟩, ⟨1, 0, .rw, []⟩]⟩

/-- BAR0 offset of SO_GRP. -/
def offSO_GRP (i : Nat) : Nat := 0x800100 + 0x8 * i

/-- SO_GRP.PHY. -/
def fSO_GRP_PHY (i : Nat) : Fld := ⟨offSO_GRP i, 9, 8⟩
/-- SO_GRP.MODE. -/
def fSO_GRP_MODE (i : Nat) : Fld := ⟨offSO_GRP i, 1, 0⟩

/-- SO_PORT (R764 of 18_scale_out.md). -/
def specSOPORT : RegSpec :=
  ⟨0x800200, 48, 0x8, 1, 0x8, 0x0, [⟨63, 62, .ro, []⟩, ⟨31, 0, .rw, []⟩]⟩

/-- BAR0 offset of SO_PORT. -/
def offSO_PORT (i : Nat) : Nat := 0x800200 + 0x8 * i

/-- SO_PORT.STATE. -/
def fSO_PORT_STATE (i : Nat) : Fld := ⟨offSO_PORT i, 63, 62⟩
/-- SO_PORT.FEC_UNCORR. -/
def fSO_PORT_FEC_UNCORR (i : Nat) : Fld := ⟨offSO_PORT i, 31, 0⟩

/-- SO_TC (R765 of 18_scale_out.md). -/
def specSOTC : RegSpec :=
  ⟨0x800400, 8, 0x8, 1, 0x8, 0x0, [⟨63, 63, .rw, []⟩, ⟨47, 32, .rw, []⟩, ⟨29, 24, .rw, []⟩, ⟨19, 17, .rw, []⟩,
    ⟨16, 16, .rw, []⟩, ⟨12, 12, .rw, []⟩, ⟨11, 0, .rw, []⟩]⟩

/-- BAR0 offset of SO_TC. -/
def offSO_TC (i : Nat) : Nat := 0x800400 + 0x8 * i

/-- SO_TC.STRICT. -/
def fSO_TC_STRICT (i : Nat) : Fld := ⟨offSO_TC i, 63, 63⟩
/-- SO_TC.WEIGHT. -/
def fSO_TC_WEIGHT (i : Nat) : Fld := ⟨offSO_TC i, 47, 32⟩
/-- SO_TC.DSCP. -/
def fSO_TC_DSCP (i : Nat) : Fld := ⟨offSO_TC i, 29, 24⟩
/-- SO_TC.PCP. -/
def fSO_TC_PCP (i : Nat) : Fld := ⟨offSO_TC i, 19, 17⟩
/-- SO_TC.VLAN_EN. -/
def fSO_TC_VLAN_EN (i : Nat) : Fld := ⟨offSO_TC i, 16, 16⟩
/-- SO_TC.ECN_EN. -/
def fSO_TC_ECN_EN (i : Nat) : Fld := ⟨offSO_TC i, 12, 12⟩
/-- SO_TC.VID. -/
def fSO_TC_VID (i : Nat) : Fld := ⟨offSO_TC i, 11, 0⟩

/-- SO_NH0 (R766 of 18_scale_out.md). -/
def specSONH0 : RegSpec :=
  ⟨0x801000, 256, 0x20, 1, 0x8, 0x0, [⟨63, 63, .rw, []⟩, ⟨47, 0, .rw, []⟩]⟩

/-- BAR0 offset of SO_NH0. -/
def offSO_NH0 (i : Nat) : Nat := 0x801000 + 0x20 * i

/-- SO_NH0.VALID. -/
def fSO_NH0_VALID (i : Nat) : Fld := ⟨offSO_NH0 i, 63, 63⟩
/-- SO_NH0.MAC. -/
def fSO_NH0_MAC (i : Nat) : Fld := ⟨offSO_NH0 i, 47, 0⟩

/-- SO_NH1 (R766 of 18_scale_out.md). -/
def specSONH1 : RegSpec :=
  ⟨0x801008, 256, 0x20, 1, 0x8, 0x0, [⟨63, 0, .rw, []⟩]⟩

/-- BAR0 offset of SO_NH1. -/
def offSO_NH1 (i : Nat) : Nat := 0x801008 + 0x20 * i

/-- SO_NH1.IP6_HI. -/
def fSO_NH1_IP6_HI (i : Nat) : Fld := ⟨offSO_NH1 i, 63, 0⟩

/-- SO_NH2 (R766 of 18_scale_out.md). -/
def specSONH2 : RegSpec :=
  ⟨0x801010, 256, 0x20, 1, 0x8, 0x0, [⟨63, 0, .rw, []⟩]⟩

/-- BAR0 offset of SO_NH2. -/
def offSO_NH2 (i : Nat) : Nat := 0x801010 + 0x20 * i

/-- SO_NH2.IP6_LO. -/
def fSO_NH2_IP6_LO (i : Nat) : Fld := ⟨offSO_NH2 i, 63, 0⟩

/-- SO_EXP0 (R767 of 18_scale_out.md). -/
def specSOEXP0 : RegSpec :=
  ⟨0x810000, 256, 0x10, 1, 0x8, 0x0, [⟨63, 63, .rw, []⟩, ⟨62, 62, .rw, []⟩, ⟨61, 61, .rw, []⟩, ⟨60, 60, .rw, []⟩,
    ⟨59, 56, .rw, []⟩, ⟨55, 36, .rw, []⟩, ⟨35, 16, .rw, []⟩]⟩

/-- BAR0 offset of SO_EXP0. -/
def offSO_EXP0 (i : Nat) : Nat := 0x810000 + 0x10 * i

/-- SO_EXP0.VALID. -/
def fSO_EXP0_VALID (i : Nat) : Fld := ⟨offSO_EXP0 i, 63, 63⟩
/-- SO_EXP0.RED. -/
def fSO_EXP0_RED (i : Nat) : Fld := ⟨offSO_EXP0 i, 62, 62⟩
/-- SO_EXP0.WR. -/
def fSO_EXP0_WR (i : Nat) : Fld := ⟨offSO_EXP0 i, 61, 61⟩
/-- SO_EXP0.RD. -/
def fSO_EXP0_RD (i : Nat) : Fld := ⟨offSO_EXP0 i, 60, 60⟩
/-- SO_EXP0.SLICE. -/
def fSO_EXP0_SLICE (i : Nat) : Fld := ⟨offSO_EXP0 i, 59, 56⟩
/-- SO_EXP0.NFM1. -/
def fSO_EXP0_NFM1 (i : Nat) : Fld := ⟨offSO_EXP0 i, 55, 36⟩
/-- SO_EXP0.OFF. -/
def fSO_EXP0_OFF (i : Nat) : Fld := ⟨offSO_EXP0 i, 35, 16⟩

/-- SO_EXP1 (R767 of 18_scale_out.md). -/
def specSOEXP1 : RegSpec :=
  ⟨0x810008, 256, 0x10, 1, 0x8, 0x0, [⟨63, 52, .rw, []⟩, ⟨51, 40, .rw, []⟩, ⟨31, 0, .rw, []⟩]⟩

/-- BAR0 offset of SO_EXP1. -/
def offSO_EXP1 (i : Nat) : Nat := 0x810008 + 0x10 * i

/-- SO_EXP1.SRC_HI. -/
def fSO_EXP1_SRC_HI (i : Nat) : Fld := ⟨offSO_EXP1 i, 63, 52⟩
/-- SO_EXP1.SRC_LO. -/
def fSO_EXP1_SRC_LO (i : Nat) : Fld := ⟨offSO_EXP1 i, 51, 40⟩
/-- SO_EXP1.VA. -/
def fSO_EXP1_VA (i : Nat) : Fld := ⟨offSO_EXP1 i, 31, 0⟩

/-- SO_PEER (R768 of 18_scale_out.md). -/
def specSOPEER : RegSpec :=
  ⟨0x820000, 4096, 0x8, 1, 0x8, 0x0, [⟨63, 63, .rw, []⟩, ⟨56, 56, .ro, []⟩, ⟨55, 48, .rw, []⟩, ⟨47, 0, .rw, []⟩]⟩

/-- BAR0 offset of SO_PEER. -/
def offSO_PEER (i : Nat) : Nat := 0x820000 + 0x8 * i

/-- SO_PEER.VALID. -/
def fSO_PEER_VALID (i : Nat) : Fld := ⟨offSO_PEER i, 63, 63⟩
/-- SO_PEER.DEAD. -/
def fSO_PEER_DEAD (i : Nat) : Fld := ⟨offSO_PEER i, 56, 56⟩
/-- SO_PEER.NH. -/
def fSO_PEER_NH (i : Nat) : Fld := ⟨offSO_PEER i, 55, 48⟩
/-- SO_PEER.PORTMASK. -/
def fSO_PEER_PORTMASK (i : Nat) : Fld := ⟨offSO_PEER i, 47, 0⟩

/-- SU_PINS (R797 of 19_module.md). -/
def specSUPINS : RegSpec :=
  ⟨0xA00040, 1, 0x8, 1, 0x8, 0x0, [⟨15, 15, .ro, []⟩, ⟨14, 14, .ro, []⟩, ⟨13, 13, .ro, []⟩, ⟨12, 12, .ro, []⟩,
    ⟨11, 11, .ro, []⟩, ⟨10, 10, .ro, []⟩, ⟨9, 9, .ro, []⟩, ⟨8, 8, .ro, []⟩,
    ⟨4, 0, .ro, []⟩]⟩

/-- BAR0 offset of SU_PINS. -/
def offSU_PINS : Nat := 0xA00040

/-- SU_PINS.LEAK. -/
def fSU_PINS_LEAK : Fld := ⟨offSU_PINS, 15, 15⟩
/-- SU_PINS.BRAKE. -/
def fSU_PINS_BRAKE : Fld := ⟨offSU_PINS, 14, 14⟩
/-- SU_PINS.STOP. -/
def fSU_PINS_STOP : Fld := ⟨offSU_PINS, 13, 13⟩
/-- SU_PINS.SYNC. -/
def fSU_PINS_SYNC : Fld := ⟨offSU_PINS, 12, 12⟩
/-- SU_PINS.FAULT. -/
def fSU_PINS_FAULT : Fld := ⟨offSU_PINS, 11, 11⟩
/-- SU_PINS.ALERT. -/
def fSU_PINS_ALERT : Fld := ⟨offSU_PINS, 10, 10⟩
/-- SU_PINS.SERVICE. -/
def fSU_PINS_SERVICE : Fld := ⟨offSU_PINS, 9, 9⟩
/-- SU_PINS.PWR_OK. -/
def fSU_PINS_PWR_OK : Fld := ⟨offSU_PINS, 8, 8⟩
/-- SU_PINS.MOD_ID. -/
def fSU_PINS_MOD_ID : Fld := ⟨offSU_PINS, 4, 0⟩

/-- SU_SYNCIO (R798 of 19_module.md). -/
def specSUSYNCIO : RegSpec :=
  ⟨0xA00048, 1, 0x8, 1, 0x8, 0x100, [⟨63, 56, .ro, []⟩, ⟨19, 16, .rw, []⟩, ⟨15, 8, .rw, [(1, 255)]⟩, ⟨1, 0, .rw, []⟩]⟩

/-- BAR0 offset of SU_SYNCIO. -/
def offSU_SYNCIO : Nat := 0xA00048

/-- SU_SYNCIO.ERR. -/
def fSU_SYNCIO_ERR : Fld := ⟨offSU_SYNCIO, 63, 56⟩
/-- SU_SYNCIO.FCHAN. -/
def fSU_SYNCIO_FCHAN : Fld := ⟨offSU_SYNCIO, 19, 16⟩
/-- SU_SYNCIO.PW_US. -/
def fSU_SYNCIO_PW_US : Fld := ⟨offSU_SYNCIO, 15, 8⟩
/-- SU_SYNCIO.MODE. -/
def fSU_SYNCIO_MODE : Fld := ⟨offSU_SYNCIO, 1, 0⟩

/-- SU_SYNCIO_CAP (R799 of 19_module.md). -/
def specSUSYNCIOCAP : RegSpec :=
  ⟨0xA00050, 1, 0x8, 1, 0x8, 0x0, [⟨63, 0, .ro, []⟩]⟩

/-- BAR0 offset of SU_SYNCIO_CAP. -/
def offSU_SYNCIO_CAP : Nat := 0xA00050

/-- SU_SYNCIO_CAP.EDGE_NS. -/
def fSU_SYNCIO_CAP_EDGE_NS : Fld := ⟨offSU_SYNCIO_CAP, 63, 0⟩

/-- SU_SYNCIO_CNT (R800 of 19_module.md). -/
def specSUSYNCIOCNT : RegSpec :=
  ⟨0xA00058, 1, 0x8, 1, 0x8, 0x0, [⟨31, 0, .rw, []⟩]⟩

/-- BAR0 offset of SU_SYNCIO_CNT. -/
def offSU_SYNCIO_CNT : Nat := 0xA00058

/-- SU_SYNCIO_CNT.EDGES. -/
def fSU_SYNCIO_CNT_EDGES : Fld := ⟨offSU_SYNCIO_CNT, 31, 0⟩

/-- The registers of block CD. -/
def blockCD : List RegSpec :=
  [specCDCFG, specCDORDER, specCDSTATUS, specCDSLICECFG, specCDDEADRR, specCDORANK, specCDRANGEBASE, specCDRANGELEN, specCDRANGECMD]

/-- The registers of block MT. -/
def blockMT : List RegSpec :=
  [specMTCFG, specMTSTATUS, specMTZONEN, specMTZONEO, specMTFZONE, specMTFARCAP, specMTFARCTL, specMTBACKBASE, specMTBACKCTL, specMTSTACK, specMTRETIRECNT, specMTRETIRE, specMTINJECT]

/-- The registers of block DL. -/
def blockDL : List RegSpec :=
  [specDLCFG, specDLTAP, specDLLINK, specDLLINKERR, specDLLINKCTL, specDLBAYSTATUS, specDLBAYCTL, specDLBAYDESC]

/-- The registers of block ID. -/
def blockID : List RegSpec :=
  [specIDPART, specIDSEM, specIDDROP]

/-- The registers of block CH. -/
def blockCH : List RegSpec :=
  [specCHCFG, specCHSTATUS, specCHRESET, specCHSQBASE, specCHSQCFG, specCHSQSTATE, specCHCQBASE, specCHCQWB, specCHCQCFG, specCHCQSTATE]

/-- The registers of block SLC. -/
def blockSLC : List RegSpec :=
  [specSLCCTL, specSLCCFG, specSLCRGNS, specSLCCHAN, specSLCPTBASE, specSLCCTXTAB, specSLCSWITCH, specSLCPASID, specSLCDLOGCTL, specSLCDLOGA, specSLCDLOGB, specSLCDLOGD, specSLCDLOGLIM, specSLCPGBASE, specSLCPGCMD, specSLCRGN, specSLCCYCCFG, specSLCCYCSTAT, specSLCCYCE]

/-- The registers of block PW. -/
def blockPW : List RegSpec :=
  [specPWCFG, specPWBUDGET, specPWRAMP, specPWSTATUS, specPWINPUT, specPWGATE, specPWEIN, specPWEFLOOR, specPWEMGR, specPWEJOB, specPWEIDLE, specPWRES, specPWRGN]

/-- Core counter i of core k in the window of die d (R681 of 16_observability.md). -/
def specCORECTR : RegSpec := ⟨0x1200000, 8, 0x400000, 768, 0x8, 0x0, [⟨63, 0, .ro, []⟩]⟩

/-- Region counter i of region r in the window of die d (R681 of 16_observability.md). -/
def specRGNCTR : RegSpec := ⟨0x1300000, 8, 0x400000, 64, 0x8, 0x0, [⟨63, 0, .ro, []⟩]⟩

/-- The registers of block W. -/
def blockW : List RegSpec :=
  [specPWVF, specCORECTR, specRGNCTR]

/-- The registers of block SU. -/
def blockSU : List RegSpec :=
  [specSUSTATUS, specSUCFG, specSURESET, specSUMBXCTL, specSUMBXREQ, specSUMBXRSP, specSUFW, specSUPINS, specSUSYNCIO, specSUSYNCIOCAP, specSUSYNCIOCNT]

/-- The registers of block FLT. -/
def blockFLT : List RegSpec :=
  [specFLTCFG, specFLTHEALTH, specFLTREPLACE, specFLTCNT0, specFLTCNT1, specFLTSEQ, specFLTERBASE, specFLTERWB, specFLTERCFG, specFLTERSTATE, specFLTERLOST]

/-- The registers of block OBS. -/
def blockOBS : List RegSpec :=
  [specOBSTIME, specOBSTSYNCCFG, specOBSTSYNCSTAT, specOBSTSYNCSTEP, specOBSCFG, specOBSSLCSEL, specOBSDIESEL, specOBSHUBSEL, specOBSDIECTR, specOBSHUBCTR, specOBSTRCCFG, specOBSTRBBASE, specOBSTRBWB, specOBSTRBCFG, specOBSTRBSTATE, specOBSTRBDROPS, specOBSCMPMATCH, specOBSCMPMASK, specOBSCMPCTL, specOBSWHOACFG, specOBSWHOACTL, specOBSDUMPBASE, specOBSDUMPLEN, specOBSDUMPCTL, specOBSDUMPSTAT, specOBSCHWD]

/-- The registers of block SO. -/
def blockSO : List RegSpec :=
  [specSOCFG, specSORC, specSOSRC6HI, specSOSRC6LO, specSOPEERRESET, specSORTX, specSOSTAT, specSOGRP, specSOPORT, specSOTC, specSONH0, specSONH1, specSONH2, specSOEXP0, specSOEXP1, specSOPEER]

/-- The block a BAR0 offset lies in (R66). -/
def blockAt (off : Nat) : List RegSpec :=
  if off < 0x100000 then blockID else if off < 0x200000 then blockCH else if off < 0x300000 then blockSLC
  else if off < 0x400000 then blockCD else if off < 0x500000 then blockMT else if off < 0x600000 then blockPW
  else if off < 0x700000 then blockFLT else if off < 0x800000 then blockOBS else if off < 0x900000 then blockSO
  else if off < 0xA00000 then blockDL else if off < 0xB00000 then blockSU
  else if off < 0x1000000 then [] else if off < 0x3800000 then blockW else []

/-- Whether an offset is an instance of a register family. -/
def regHits (r : RegSpec) (off : Nat) : Bool :=
  decide (r.base ≤ off) &&
    (let d := off - r.base
     decide (d / r.s1 < r.n1) && decide (d % r.s1 % r.s2 = 0) && decide (d % r.s1 / r.s2 < r.n2))

/-- The register at a BAR0 offset; `none` where no register lies (R67). -/
def regSpecAt (off : Nat) : Option RegSpec := (blockAt off).find? (fun r => regHits r off)

/-- The fuse fields of a register (R27): ID_PART of a VT-8850-L1B of the shipped grade with both bays fitted (R499), and the voltage-frequency
tables (R613), whose fused frequencies are taken as 2,100 MHz at every point: at least GRADE_MHZ + 100 (R581) and otherwise
DESIGN CHOICE (log 23). -/
def fuseNat (off : Nat) : Nat :=
  if off = offID_PART then 2000 * 2 ^ 32 + 3 * 2 ^ 16 + 2
  else if 0x1000000 ≤ off ∧ regHits specPWVF off then (650 + 25 * (off / 8 % 16)) * 2 ^ 32 + 2100 * 2 ^ 16 + 2100
  else 0

/-- The word a register holds after reset (R23, R27). -/
def regReset (off : Nat) : Word :=
  match regSpecAt off with
  | some r => BitVec.ofNat 64 (r.reset + fuseNat off)
  | none => 0

/-- The BAR0 offset of the register whose bit 63 locks the RWL fields of a block (R24). -/
def lockOff (off : Nat) : Nat :=
  let b := off / 0x100000
  if b = 7 then offOBS_CFG else if b = 8 then offSO_CFG else b * 0x100000

end Sys2Proof.Machine
end

