-- ==== Sys2Proof/Machine/State.lean ====
section
/-! DEFINITION. Sys2Proof/Machine/State.lean: the machine state of the VT-8850 as plain data, its reset value, and
the reasons a step can stop. BAR0 registers are held in `regs` by BAR0 offset, each register word the one home
of its fields; a register that is not listed reads as its reset word (Machine/Registers.lean). -/

namespace Sys2Proof.Machine

open Sys2Proof

/-- Why a step stops with a fault. No path of this model raises one: the spec answers every access to an address that
does not exist with an outcome of its own (R62, R67). -/
inductive Fault where
  /-- Raised by nothing; kept so that a later repair can name a stuck state. Safe. -/
  | stuck
deriving DecidableEq, Repr

/-- Why a command is refused. -/
inductive Refusal where
  /-- The command has no meaning yet in this model. Safe. -/
  | notModelled (mnemonic : String)
deriving DecidableEq, Repr

/-! ## Cores and thread groups ("Thread-group cores and the Caerko instruction set") -/

/-- Kinds of a reconvergence-stack entry (R158). -/
inductive StackKind where
  | join | els | loop | resume
deriving DecidableEq, Repr

/-- One reconvergence-stack entry: kind, program counter, lane mask (R158). -/
structure StackEntry where
  kind : StackKind
  pc : Word
  mask : BitVec 32
deriving DecidableEq, Repr

/-- What a group that is not issuing waits for. -/
inductive Hold where
  /-- The group issues. -/
  | run
  /-- Every lane has exited; the group ends once its tokens are zero (R145). -/
  | exited
  /-- The group has arrived at a barrier and waits for it to complete (R195); it began to wait at `since`.
  `atExit` tells an arrival made by an EXIT, which does not advance the pc. -/
  | barrier (scope bid : Nat) (since : Nat) (atExit : Bool)
  /-- Every lane of the group waits at a BAR the other lanes cannot reach (R195). -/
  | stuckBar (since : Nat)
  /-- The group's command has been stopped (R207) or stands at a safe point. -/
  | stopped
deriving DecidableEq, Repr

/-- One resident thread group (R144, R147, R150, R158, R195). The stack's first element is its top. -/
structure Group where
  /-- Key of the KERNEL command the group belongs to. -/
  cmd : Nat
  /-- Block index within the command. -/
  block : Nat
  /-- Group index within the block. -/
  gidx : Nat
  /-- Vector registers allocated per thread, A of R147. -/
  nv : Nat
  pc : Word
  live : BitVec 32
  act : BitVec 32
  /-- Vector registers, keyed 32 * register + lane. -/
  v : Tab (BitVec 32)
  /-- Poison bits of the vector registers, keyed as `v`. -/
  vp : Tab Bool
  /-- Scalar registers s0 to s63. -/
  sr : Tab Word
  /-- Poison bits of the scalar registers. -/
  sp : Tab Bool
  /-- Predicate registers p0 to p6, one lane mask each. -/
  p : Tab (BitVec 32)
  /-- Poison bits of the predicate registers, one lane mask each. -/
  pp : Tab (BitVec 32)
  /-- Completion tokens k0 to k15 (R123). -/
  tok : Tab Nat
  stack : List StackEntry
  /-- Barrier arrival state: pending identifier (scope, BID) and the lanes that have arrived. -/
  pend : Option (Nat × Nat)
  arr : BitVec 32
  hold : Hold
  /-- Vector and scalar registers with a write still pending from a load or atomic (R152). -/
  busyV : List Nat
  busyS : List Nat
  /-- Writes of the group that were lost, oldest first: the scope a wait must have to cover them (1 memory and scratchpad windows, 4 host
  windows, 5 peer windows), and the status such a wait gives: 0x08 dropped, 0x09 acknowledgement lost, 0x02 refused by a peer (R345, R370,
  R373, R750). -/
  lost : List (Nat × Nat)
  /-- Lanes whose elements the store at `pc` has put in the buffer while it waits for free entries (R350). -/
  stored : BitVec 32
deriving DecidableEq, Repr

/-- One resident block of a core (R145, R146). -/
structure Block where
  cmd : Nat
  index : Nat
  groups : Nat
  nv : Nat
  /-- Local memory in KiB and its base in KiB. -/
  lmKiB : Nat
  lmBase : Nat
  slots : List Nat
deriving DecidableEq, Repr

/-- States of a store-buffer entry (R349). -/
inductive SbState where
  | open | sealed | sent
deriving DecidableEq, Repr

/-- The attributes a translated access carries: the physical address space decides the rest (R397). -/
structure PageAttr where
  home : Nat
  cache : Nat
  sharedRO : Bool
  owner : Nat
deriving DecidableEq, Repr

/-- One store-buffer entry (R349). `tso` says it was made in TSO mode (R338); `seq` is its age. -/
structure SbEntry where
  line : Nat
  data : LineData
  mask : BitVec 512
  poison : BitVec 8
  groups : BitVec 16
  cmds : List Nat
  /-- The slice tag its write carries. -/
  tag : Nat
  st : SbState
  attr : PageAttr
  since : Nat
  seq : Nat
  tso : Bool
  /-- Sector of the line, group slot and lane of each store held, without repeats (R365). -/
  writers : List (Nat × Nat × Nat)
  /-- It holds a release store, a marked access (R339). -/
  rel : Bool
  /-- SENT: its place in the order in which entries were sent (R357). -/
  sentNo : Nat
  /-- SENT: applied at its point of coherence; and the peer access that carries it. -/
  applied : Bool
  peer : Option Nat
deriving DecidableEq, Repr

/-- Kinds of a core's memory request beyond the L1. -/
inductive ReqKind where
  | load | acqLoad | volLoad | atom | ldr | stc
deriving DecidableEq, Repr

/-- A participating lane's element within the request's line: lane, byte offset, operand, compare value. -/
structure LaneElem where
  lane : Nat
  off : Nat
  opnd : Nat
  cmp : Nat
  /-- The operand carries poison. -/
  poison : Bool
deriving DecidableEq, Repr

/-- One outstanding memory request of a core (R162, R356). -/
structure MemReq where
  id : Nat
  /-- The instruction that formed it: the identifier of its first request. -/
  instr : Nat
  slot : Nat
  cmd : Nat
  /-- The slice tag it carries. -/
  tag : Nat
  kind : ReqKind
  line : Nat
  va : Nat
  attr : PageAttr
  sectors : BitVec 8
  elems : List LaneElem
  /-- Destination register, element bytes, sign extension, scalar destination. -/
  vd : Nat
  size : Nat
  sext : Bool
  scalar : Bool
  /-- Atomic operation, data type, acquire, scope (R179). -/
  aop : Nat
  dt : Nat
  acq : Bool
  scope : Nat
  /-- A marked access (R339). -/
  marked : Bool
  /-- Bytes taken from the store buffer and the L1 at issue (R165). -/
  fwdMask : BitVec 512
  fwd : LineData
  fwdPoison : BitVec 8
  /-- 0 no L1 allocation, 1 allocates, 2 allocates as the first way to evict (R163). -/
  l1alloc : Nat
  dead : Bool
  /-- The response, once served: line data, sector poison, atomic results per lane. -/
  served : Bool
  data : LineData
  poison : BitVec 8
  results : List (Nat × Nat)
  /-- The request waits in a miss entry of its home or on a peer. -/
  waiting : Bool
  /-- Its response has returned to the core. -/
  returned : Bool
deriving DecidableEq, Repr

/-- One L1 line (R163): per-sector valid bits, first-to-evict mark, and an age for replacement. -/
structure L1Line where
  line : Nat
  va : Nat
  valid : BitVec 8
  poison : BitVec 8
  data : LineData
  evictFirst : Bool
  age : Nat
deriving DecidableEq, Repr

/-- Kinds of a range-tracker entry: an interval of a scratchpad window, or of device virtual addresses (R262). -/
inductive TrkKind where
  | spad | virt
deriving DecidableEq, Repr

/-- One range-tracker entry (R262): interval `[lo, hi)`, the operation it belongs to, and whether it is a
destination (R359). -/
structure TrkEntry where
  kind : TrkKind
  lo : Nat
  hi : Nat
  op : Nat
  cmd : Nat
  part : Nat
  dst : Bool
deriving DecidableEq, Repr

/-! ## Matrix unit ("Matrix units") -/

/-- One accumulator tile (R105): words keyed 128 * row + column. -/
structure Tile where
  words : Tab (BitVec 32)
  /-- PATH: true for INT32. -/
  int : Bool
  /-- SCL: `none` is UNSET, `some (SA, SB)` is SET. -/
  scl : Option (BitVec 32 × BitVec 32)
  poison : Bool
deriving DecidableEq, Repr

/-- R108: a tile's initial state. -/
def Tile.init : Tile := { words := [], int := false, scl := none, poison := false }

/-- One matrix operation in the queue or a lane (R111, R112, R118): control word, the two descriptor words of
the first and second operand, and whether each operand is taken from the held copy (R135). -/
structure MxOp where
  id : Nat
  slot : Nat
  cmd : Nat
  tok : Nat
  ctrl : Word
  a0 : Word
  a1 : Word
  b0 : Word
  b1 : Word
  origin : Word
  reuseA : Bool
  reuseB : Bool
  /-- An MMA: the operands in its operand stage, as little-endian numbers over their spans, with their poison. -/
  dataA : Nat
  dataB : Nat
  pzA : Bool
  pzB : Bool
  /-- The core's own later writes have invalidated the held copies this MMA leaves (R136). -/
  staleA : Bool
  staleB : Bool
  opPoison : Bool
deriving DecidableEq, Repr

/-- The held copy of one side (R135): the descriptor words, the operand's bytes over its span as a little-endian number,
and whether it may still be matched (R136). -/
structure Held where
  d0 : Word
  d1 : Word
  data : Nat
  poison : Bool
  valid : Bool
deriving DecidableEq, Repr

/-- One core. -/
structure Core where
  groups : Tab (Option Group)
  blocks : List Block
  lm : Tab Byte
  /-- Poisoned 4-byte words of local memory. -/
  lmPoison : List Nat
  l1 : List L1Line
  sb : List SbEntry
  reqs : List MemReq
  trk : List TrkEntry
  mq : List MxOp
  arrayLane : Option MxOp
  /-- The array lane's other operand stage: the next MMA, its operands fetched (R126). -/
  arrayNext : Option MxOp
  xferLane : Option MxOp
  tiles : Tab Tile
  heldA : Option Held
  heldB : Option Held
  /-- Selected performance counters 0 to 7 of the core (R680). -/
  ctr : Tab Word
deriving DecidableEq, Repr

/-- An idle core in its initial state. -/
def Core.init : Core :=
  { groups := [], blocks := [], lm := [], lmPoison := [], l1 := [], sb := [], reqs := [], trk := [],
    mq := [], arrayLane := none, arrayNext := none, xferLane := none, tiles := [], heldA := none, heldB := none,
    ctr := [] }

/-! ## Clusters: scratchpad, cluster DMA engine, function fabric -/

/-- The state of a data-mover operation. -/
inductive OpPhase where
  | queued | moved
deriving DecidableEq, Repr

/-- A data-mover operation of a cluster engine (R199, R249). -/
structure DmaOp where
  id : Nat
  core : Nat
  slot : Nat
  cmd : Nat
  tok : Nat
  desc : Block64
  phase : OpPhase
  /-- A scalar operand was poisoned (R198). -/
  poison : Bool
deriving DecidableEq, Repr

/-- Kinds of a cluster fabric queue entry (R201). -/
inductive FabKind where
  | fload | fswap | frun
deriving DecidableEq, Repr

/-- One entry of the cluster fabric queue: FLOAD's image address or FRUN's run word, port-table offset and origin. -/
structure FabOp where
  id : Nat
  core : Nat
  slot : Nat
  cmd : Nat
  tok : Nat
  kind : FabKind
  arg0 : Word
  arg1 : Word
  origin : Word
  /-- A scalar operand was poisoned (R198). -/
  poison : Bool
  /-- FLOAD: it has taken effect, so that the shadow context is invalid until its validation (R232). -/
  loaded : Bool
deriving DecidableEq, Repr

/-- One fabric context: its image, as a little-endian number, and its validity (R232). -/
structure FabCtx where
  image : Nat
  valid : Bool
deriving DecidableEq, Repr

/-- One processing element (R209). -/
structure Pe where
  o : BitVec 32
  op : Bool
  r : Tab (BitVec 32)
  rp : Tab Bool
deriving DecidableEq, Repr

/-- A cleared processing element (R209). -/
def Pe.init : Pe := { o := 0, op := false, r := [], rp := [] }

/-- One beat of an input stream port (R130, R217, R218); `op` and `cmd` name the DRAIN that sent it. -/
structure Beat where
  op : Nat
  cmd : Nat
  outer : Nat
  inner : Nat
  count : Nat
  last : Bool
  poison : Bool
  words : List (BitVec 32)
  /-- Poison of each lane's element. -/
  lanePoison : List Bool
deriving DecidableEq, Repr

/-- The run-time state of one input port of a run: beats ready, current beat, whether LAST was delivered. -/
structure InPort where
  ready : List Beat
  cur : Option Beat
  doneLast : Bool
  /-- A scratchpad port: number of beats still to be read from its tile, counted from the front. -/
  next : Nat
deriving DecidableEq, Repr

/-- The run-time state of an output port (R220 to R222): how many elements it has been given, and those of them whose byte is not yet
complete and written, converted, with their poison. -/
structure OutPort where
  n : Nat
  held : List (Nat × Bool)
deriving DecidableEq, Repr

/-- A fabric run in progress (R216 to R224). -/
structure FabRun where
  op : FabOp
  /-- The sixteen port-table entries as the start of the run found them (R200). -/
  ptab : List (Word × Word)
  entry : Nat
  iter : Nat
  /-- Iterations left once the inputs have ended (R223). -/
  tail : Option Nat
  pes : Tab Pe
  /-- Express lanes: rows keyed 4 * row + lane, columns keyed 64 + 4 * column + lane; value and poison. -/
  xl : Tab (BitVec 32 × Bool)
  ins : Tab InPort
  outs : Tab OutPort
deriving DecidableEq, Repr

/-- One cluster. -/
structure Cluster where
  dmaQ : List DmaOp
  fabQ : List FabOp
  ctxA : FabCtx
  ctxB : FabCtx
  /-- Which of the two contexts is active: false for A. -/
  actB : Bool
  run : Option FabRun
  /-- Drain beats that a drain input port has not yet taken, keyed by port (R131, R236). -/
  drainBeats : Tab (List Beat)
  /-- Clock state of R576: gated, and the stretch of R582. -/
  gated : Bool
  stretched : Bool
deriving DecidableEq, Repr

/-- A fabric context after a reset or Groom (R242). -/
def FabCtx.init : FabCtx := { image := 0, valid := false }

/-- An idle cluster in its initial state. -/
def Cluster.init : Cluster :=
  { dmaQ := [], fabQ := [], ctxA := FabCtx.init, ctxB := FabCtx.init, actB := false, run := none,
    drainBeats := [], gated := false, stretched := false }

/-! ## Memory: tiers, unified cache, adders, scratchpads -/

/-- Copy states of R284; `dead` is the DEAD tag of R299. -/
inductive CopyState where
  | hv | hx | m | o | e | s | dead
deriving DecidableEq, Repr

/-- One line entry of a cache slice or sequencer cache (R274). `line` is the physical line number,
`backing` the line number of the tier bytes behind it (R280); ages order replacement. -/
structure CacheLine where
  agent : Nat
  line : Nat
  backing : Nat
  home : Bool
  st : CopyState
  sv : BitVec 8
  dm : BitVec 512
  ps : BitVec 8
  tag : Nat
  ret : Nat
  sharers : BitVec 36
  owner : Nat
  pin : Nat
  used : Nat
  written : Nat
  data : LineData
deriving DecidableEq, Repr

/-- Who waits in a miss entry: a core's request, or a host read of BAR4. -/
inductive Requester where
  | core (core req : Nat)
deriving DecidableEq, Repr

/-- One miss-table entry (R291). -/
structure MissEntry where
  slice : Nat
  line : Nat
  backing : Nat
  sectors : BitVec 8
  attr : PageAttr
  tag : Nat
  ret : Nat
  reqs : List Requester
deriving DecidableEq, Repr

/-- One reservation (R183, R365): `home` is the agent number, or 100 + cluster for a window unit;
the thread is (core, group slot, lane). -/
structure Resv where
  home : Nat
  core : Nat
  slot : Nat
  lane : Nat
  sector : Nat
deriving DecidableEq, Repr

/-- One ordered-sector table entry (R308): home cache slice, sector, expected rank. -/
structure OrdSector where
  home : Nat
  sector : Nat
  expect : Nat
  owner : Nat
deriving DecidableEq, Repr

/-- One ordered sector operation (R307, R308), on its way to its home or buffered there: `pa` is the sector's physical address,
`op` the REDUCE that sent it (a command key or a cluster operation), `ops` its elements: offset in the line and operand. -/
structure OrdOp where
  id : Nat
  home : Nat
  pa : Nat
  attr : PageAttr
  rank : Nat
  slice : Nat
  cmd : Nat
  op : Nat
  rop : Nat
  dt : Nat
  ops : List (Nat × Nat)
  poison : Bool
deriving DecidableEq, Repr

/-- An operation queued at the reduction unit of a home until its line is filled (R301, R302, R305): the home, the line, the core's
request. -/
structure RedOp where
  home : Nat
  line : Nat
  core : Nat
  req : Nat
  /-- Its sector operations. -/
  n : Nat
deriving DecidableEq, Repr

/-- A range operation or last-use mark that its home holds at a pinned line (R306): `op` 0 FLUSH, 1 INVALIDATE, 2 FLUSH_INV, 3 mark; `owner`
one more than the key of the FENCE it belongs to, 0 for CD_RANGE and for a mark. -/
structure HeldOp where
  home : Nat
  line : Nat
  op : Nat
  owner : Nat
deriving DecidableEq, Repr

/-- A write to a far port that its port has not completed (R289, R330): the store-buffer entry or data-mover operation it belongs to, its
line, the bytes it replaced under its mask, and the sectors that were poisoned before it. -/
structure FarOut where
  who : Nat
  line : Nat
  old : LineData
  mask : BitVec 512
  poison : BitVec 8
deriving DecidableEq, Repr

/-- One sector of an adder's merge buffer (R389): controller, backing sector, data, poison, last use. -/
structure AdderSector where
  ctl : Nat
  sector : Nat
  data : BitVec 512
  poison : Bool
  last : Nat
  stamp : Nat
deriving DecidableEq, Repr

/-- A memory instruction whose requests are held for a die credit (R36): its core, slot, command and program counter. -/
structure CreditWait where
  core : Nat
  slot : Nat
  cmd : Nat
  pc : Nat
deriving DecidableEq, Repr

/-- A domain drop in progress (R657, R658): the dead agents of every trigger, the kind of the first, when the first and the last came, and
what was lost: dies, links with the modules they had, hubs, and regions of dies in service. -/
structure DropRun where
  dead : Nat
  kind : Nat
  first : Nat
  last : Nat
  dies : List Nat
  links : List (Nat × Nat)
  hubs : List Nat
  regions : List Nat
deriving DecidableEq, Repr

/-- The memory system: tiers, unified cache, adders and scratchpads. -/
structure MemSys where
  /-- Memory instructions that hold their requests for want of a die credit, oldest first, and the region of each die that was granted
  credits last, within its die (R36). -/
  creditQ : List CreditWait
  creditTurn : Tab Nat
  /-- Near-tier and far-tier bytes by backing address (R280, R375). -/
  tier : Tab Byte
  /-- Poisoned tier sectors (backing address / 64), rising (R384). -/
  tierPoison : List Nat
  /-- Injected codeword errors by tier sector: 1 one symbol, 2 two symbols, 3 address tag (R418). -/
  tierErr : Tab Nat
  lines : List CacheLine
  misses : List MissEntry
  /-- Dirty-frame maps: cache slice * 2^21 + frame of its die, rising (R310). -/
  dirtyMap : List Nat
  resv : List Resv
  ordSectors : List OrdSector
  reorder : List OrdOp
  /-- Ordered operations sent and not yet accepted by their homes. -/
  ordSent : List OrdOp
  adders : List AdderSector
  /-- Operations that homes have sent to adders and that are not yet applied, in the order of arrival (R303). -/
  adderQ : List RedOp
  /-- Reduction units (R305) and what homes hold at pinned lines (R306). -/
  redQ : List RedOp
  heldOps : List HeldOp
  /-- Writes to far ports in flight, oldest first. -/
  farOut : List FarOut
  /-- Lines that a substitute home has taken up since the loss of their home (R314). -/
  taken : List Nat
  /-- The CD_RANGE operation in progress as its GO found it: first line, lines, limited to a tag (R310). -/
  range : Option (Nat × Nat × Bool)
  /-- Within a step: a coherent request was refused with retry (R291, R306, R313). Read in that step alone. -/
  blocked : Bool
  /-- The domain drop in progress, until its step 5 (R658). -/
  drop : Option DropRun
  /-- Within a step: what the tier that holds a line answers beyond its data, and whose writes to far ports are in flight. -/
  resp : Option (Nat × CxlResp)
  who : Option Nat
  /-- Scratchpad bytes, keyed cluster * 0x800000 + offset (R243). -/
  spad : Tab Byte
  /-- Poisoned scratchpad granules, keyed as above / 64, rising (R247). -/
  spadPoison : List Nat
  /-- Corrections per row since the scrub period began, and rows repaired (R386): keyed backing / 1024. -/
  rowFix : Tab Nat
  /-- The scrub period that `rowFix` counts in. -/
  scrubPeriod : Nat
  rowSpare : Tab Nat
  /-- Frames that have produced their one DEFERRED record (R405). -/
  badFrames : List Nat
  /-- Copy of the backing table in force (R402). -/
  backTable : List (Word × Word)
  /-- Far ports whose recovery is in progress (R396), and the request-rate divisor a DevLoad report has set, by port (R391). -/
  farRetrain : List Nat
  devLoad : Tab Nat
  /-- The CXL IDE key in force on each far port, as the number of trainings that have keyed it; 0 is none (R734). -/
  farIde : Tab Nat
  /-- Age counter of replacement and merge buffers. -/
  stamp : Nat
  /-- Translations held: slice, page base, page size in bits, entry (R514). -/
  tlb : List (Nat × Nat × Nat × Word)
  /-- TLB_FLUSH in progress, by slice: the requests older than this are to be performed first (R514). -/
  tlbWait : Tab Nat
deriving DecidableEq, Repr

/-- The memory system with nothing cached and nothing written. -/
def MemSys.init : MemSys :=
  { creditQ := [], creditTurn := [], tier := [], tierPoison := [], tierErr := [], lines := [], misses := [], dirtyMap := [], resv := [],
    ordSectors := [], reorder := [], ordSent := [], adders := [], adderQ := [], redQ := [], heldOps := [], farOut := [], taken := [], range := none, blocked := false, drop := none, resp := none, who := none, spad := [], spadPoison := [], rowFix := [], scrubPeriod := 0,
    rowSpare := [], badFrames := [], backTable := [], farRetrain := [], devLoad := [], farIde := [], stamp := 0, tlb := [], tlbWait := [] }

/-- A saved context of a slice on a region (R529, R536, R539): context 0 holds a slice switched out, context 1 work that was
pre-empted. It lies in the slice's context area in memory, in a form of the sequencer firmware's own. -/
structure SavedCtx where
  slice : Nat
  region : Nat
  ctx : Nat
  cores : Tab Core
  clusters : Tab Cluster
  spad : Tab Byte
  spadPoison : List Nat
  rctr : Tab Word
deriving DecidableEq, Repr

/-! ## Commands in flight, rings, host ports and what the module sends -/

/-- Phases of a command between dispatch and its completion record. -/
inductive CmdPhase where
  /-- Dispatched; the command's own row has not run yet. -/
  | dispatched
  /-- Running: blocks placed, an operation moving, or a WAIT waiting. -/
  | running
  /-- Ended, its status fixed, and owed acknowledgements of writes to peer windows (R475). -/
  | draining
deriving DecidableEq, Repr

/-- One command in flight (R472). -/
structure Cmd where
  key : Nat
  chan : Nat
  ring : Nat
  /-- Submission-ring entry index of the descriptor (R491). -/
  index : Nat
  desc : Block64
  /-- Slice tag: 0 to 15, or 0x20 + 2 * hub + port of the ring for a command of a Halter channel, which carries the manager's
  tag (R275, R621). -/
  tag : Nat
  cq : Nat
  /-- Device timestamp of dispatch (R491), and the model time of dispatch. -/
  tStart : Word
  t0 : Nat
  /-- Model time at which the timeout expires (R494). -/
  deadline : Option Nat
  phase : CmdPhase
  /-- The status fixed first (R493). -/
  status : Option Nat
  poisoned : Bool
  flags : BitVec 8
  /-- KERNEL: next block to place, blocks ended. -/
  nextBlock : Nat
  blocksDone : Nat
  /-- Writes of the command that were lost, oldest first, by the status their wait gives: 0x08 STORE_LOST for one dropped at a dead
  destination, 0x09 RELEASE_INCOMPLETE for one whose acknowledgement a domain drop lost, 0x02 for one that a peer module refused (R370, R373,
  R750). -/
  lost : List Nat
  /-- Pre-emption: a stop has been requested at this time (R535), and the run is saved. -/
  stopReq : Option Nat
  saved : Bool
  savedAt : Nat
  /-- Time a DMA or range operation of the command has been set moving. -/
  moved : Bool
  /-- Energy attributed to the run in nanojoules (R600). -/
  energy : Nat
  /-- The command was dispatched inside a cyclic window: its entry (R545). -/
  window : Option Nat
  /-- Its window ended with OVR = LATE before it did: it ends with WINDOW_OVERRUN (R546). -/
  late : Bool
  /-- Accumulator tiles the command's operations have named, as 8 * core + tile (R143). -/
  tiles : List Nat
  /-- Cores on which groups of the command have started (R167). -/
  cores : List Nat
deriving DecidableEq, Repr

/-- A descriptor fetched and not yet dispatched (R471). -/
structure Fetched where
  ring : Nat
  index : Nat
  desc : Block64
  /-- A requeued command keeps its key's earlier run (R493, R535). -/
  requeued : Bool
deriving DecidableEq, Repr

/-- A descriptor read outstanding on a ring (R471); `pri` says it waits for a page request of its ring's page. -/
structure FetchRead where
  ring : Nat
  index : Nat
  count : Nat
  pri : Bool
deriving DecidableEq, Repr

/-- Run-time state of a submission ring beyond its registers: ERRSTOP bookkeeping (R490). -/
structure SqRun where
  /-- A command of the ring ended with a failing status since the last FENCE or enable. -/
  failed : Bool
  /-- Commands up to the next FENCE end with ABORTED without running. -/
  aborting : Bool
deriving DecidableEq, Repr

/-- Run-time state of a completion ring: records since the last message and the time of the first (R495). -/
structure CqRun where
  count : Nat
  first : Nat
deriving DecidableEq, Repr

/-- Run-time state of a cyclic table (R543 to R547): the number of the next frame to begin on the time base, the first entry whose
window has not yet opened in the present frame, the entry whose lead has begun, and the entry whose window is open. -/
structure CycRun where
  frame : Nat
  next : Nat
  lead : Option Nat
  opened : Option Nat
deriving DecidableEq, Repr

/-- A cyclic table that is not running. -/
def CycRun.init : CycRun := { frame := 0, next := 0, lead := none, opened := none }

/-- One command channel. -/
structure Channel where
  fetched : List Fetched
  reads : List FetchRead
  /-- Last ring served, for the rotation of R471. -/
  lastRing : Nat
  /-- Model time of the channel's last completion, for its watchdog (R699). -/
  lastDone : Nat
  sq : Tab SqRun
  cqr : Tab CqRun
  cyc : CycRun
deriving DecidableEq, Repr

/-- An idle channel. -/
def Channel.init : Channel :=
  { fetched := [], reads := [], lastRing := 63, lastDone := 0, sq := [], cqr := [], cyc := CycRun.init }

/-- A held lower half of a 64-bit register write (R30). -/
structure HeldHalf where
  off : Nat
  data : Nat
  since : Nat
deriving DecidableEq, Repr

/-- One host port: link, configuration-space state, ATS cache, page requests, MSI-X (R455, R456). -/
structure HostPort where
  up : Bool
  /-- The host window has been declared dead (R368). -/
  dead : Bool
  /-- The port's reset pin is asserted (R617). -/
  inReset : Bool
  held : Option HeldHalf
  /-- Vectors masked, and pending bits: PF0 vectors as themselves, VF n vector v as 4096 * (n + 1) + v. -/
  msixOff : List Nat
  pendingVec : List Nat
  /-- MSI-X enable of PF0 and of each VF; SR-IOV VF enable; AtomicOp requester enable. -/
  msixEn : BitVec 17
  vfEn : Bool
  atomicEn : Bool
  /-- ATS translation cache: (PASID, host page), and page requests outstanding: (PASID, host page). -/
  atc : List (Nat × Nat)
  pageReqs : List (Nat × Nat)
  /-- Host-port IDE stream keys set (R734), by stream. -/
  ideKeys : List Nat
deriving DecidableEq, Repr

/-- A host port before its link trains. Reset values of configuration space are the PCIe ones. -/
def HostPort.init : HostPort :=
  { up := false, dead := false, inReset := true, held := none, msixOff := [], pendingVec := [], msixEn := 0, vfEn := false,
    atomicEn := false, atc := [], pageReqs := [], ideKeys := [] }

/-- The IPv6 and UDP headers of a Tandem packet under ENCAP 1 (R741, R752); packets are sent ECN-capable. -/
structure UdpFrame where
  src : BitVec 128
  dst : BitVec 128
  dscp : BitVec 6
  /-- Sent ECN-capable (R752). -/
  ect : Bool
  sport : BitVec 16
  dport : BitVec 16
  checksum : BitVec 16
deriving DecidableEq, Repr

/-- The frame of a Tandem packet but for header, payload and FCS (R741): MAC addresses, the 802.1Q tag as priority and VLAN ID, EtherType. -/
structure Frame where
  dmac : BitVec 48
  smac : BitVec 48
  vlan : Option (BitVec 3 × BitVec 12)
  etherType : BitVec 16
  udp : Option UdpFrame
deriving DecidableEq, Repr

/-- What the module sends out: host memory writes, messages, packets, pin changes. -/
inductive Out where
  /-- A posted write on a host port (0 A, 1 B): PASID if any, host address, bytes. -/
  | hostWrite (port : Nat) (pasid : Option Nat) (addr : Nat) (data : List Byte)
  /-- One byte-masked transaction of 64 bytes on a host port (R265). -/
  | hostMasked (port : Nat) (pasid : Option Nat) (addr : Nat) (data : BitVec 512) (mask : BitVec 64)
  /-- A read on a host port: PASID if any, host address, length (R63). -/
  | hostRead (port : Nat) (pasid : Option Nat) (addr len : Nat)
  /-- One CXL.mem request on a far port (R393): a sector's address in the port's range, read or write; a write's data, byte mask and poison. -/
  | cxl (f : Nat) (write : Bool) (addr : Nat) (data : BitVec 512) (mask : BitVec 64) (poison : Bool)
  /-- A compare-and-swap that sets bits of a 64-bit host word (R550). -/
  | hostOr (port : Nat) (pasid : Option Nat) (addr : Nat) (bits : Word)
  /-- An MSI-X message: port, the VF (none is PF0), vector. -/
  | msix (port : Nat) (vf : Option Nat) (vector : Nat)
  /-- A descriptor read issued on a ring's port: port, channel, ring, index, count. -/
  | fetch (port chan ring index count : Nat)
  /-- Completion of a host's BAR4 read: port, data bytes, poisoned. -/
  | readData (port : Nat) (data : List Byte) (poison : Bool)
  /-- A management message: its kind, by the row that sends it, and its values in order. -/
  | mgmt (kind : Nat) (data : List Nat)
  /-- A Tandem packet on a scale-out port, in its frame (R741). -/
  | packet (port : Nat) (frame : Frame) (p : Packet)
  /-- A response to a bay: the bay, an error, read data, poisoned. -/
  | bay (bay : Nat) (err : Bool) (data : List Byte) (poison : Bool)
  /-- A page-request response or invalidation completion on a host port. -/
  | ats (port kind arg : Nat)
  /-- A data scan of a die whose TAP holds IDCODE: the die and the word it shifts out (R446). -/
  | idcode (die : Nat) (word : BitVec 32)
  /-- A section of a hang dump written to host memory (R701, R702): port, host address, bytes, state class, region, source. The layout of
  its bytes is not given by the spec (log 36). -/
  | dump (port addr len cls region src : Nat)
deriving DecidableEq, Repr

/-! ## Error records, Bridle -/

/-- One Bridle-side view of the management plane ("Management plane, firmware and security"). -/
structure Bridle where
  /-- The primary Bridle's firmware is running. -/
  up : Bool
  /-- Records waiting for a Bridle that restarts: hub and record, 64 per hub (R54). -/
  queue : List (Nat × Block64)
  /-- Records lost to management (R54). -/
  lost : Nat
  /-- Records the Bridle has taken. -/
  seen : List Block64
  /-- The flash fault log and the flash repair log (R653, R387, R406). -/
  faultLog : List Block64
  repairLog : List Nat
deriving DecidableEq, Repr

/-- Fault delivery state beyond the FLT_ registers. -/
structure FaultState where
  /-- Records held while no event ring is ACTIVE: hub and record, 256 per hub (R652). -/
  backlog : List (Nat × Block64)
  /-- Events coalesced so far by source unit and cause (R649). -/
  coal : Tab Nat
  /-- The device has stopped by R659. -/
  stopped : Bool
deriving DecidableEq, Repr

/-- One access of this module to a peer window that Tandem carries (R744): kind 0 WRITE, 1 REDUCE (64-bit add of a
SIGNAL or an element add of a REDUCE), 2 READ; the command it belongs to; data and byte mask of one line. -/
structure PeerReq where
  id : Nat
  kind : Nat
  tag : Nat
  cmd : Nat
  pa : Nat
  dt : Nat
  data : LineData
  mask : BitVec 512
  poison : Bool
  /-- The core request a READ answers: core and request. -/
  who : Option (Nat × Nat)
  /-- The source engine it leaves from (R744), once known, and whether it has been put into a packet of its flow. -/
  eng : Option Nat
  framed : Bool
deriving DecidableEq, Repr

/-! ## Observability ("Time, counters, trace and stop") -/

/-- One hang-dump engine (R699, R700). `held` says a dumped slice is frozen by ACTION HOLD. -/
structure DumpRun where
  active : Bool
  slice : Nat
  /-- 0xFF for the manager, else the channel of the watchdog. -/
  trigger : Nat
  t1 : Word
  held : Bool
  /-- The slice is frozen, since this model time. -/
  frozen : Bool
  since : Nat
deriving DecidableEq, Repr

/-- An engine that is IDLE. -/
def DumpRun.init : DumpRun := { active := false, slice := 0, trigger := 0xFF, t1 := 0, held := false, frozen := false, since := 0 }

/-- State of observability beyond the OBS_ registers. -/
structure ObsState where
  /-- Trace records staged: hub and record (R689, R690). -/
  staged : List (Nat × BitVec 256)
  /-- Trace records dropped since the last DROPPED record, by hub. -/
  dropped : Tab Nat
  /-- Region counters, keyed 16 * region + counter (R680). -/
  rctr : Tab Word
  /-- Commands dispatched (2 * channel) and completed (2 * channel + 1) since the channel joined its slice (R685). -/
  chCount : Tab Nat
  /-- The snapshot of each slice, keyed 512 * slice + (page offset / 8), and SNAP_SEQ (R685, R686). -/
  snap : Tab Word
  snapSeq : Tab Nat
  /-- A Whoa stop: RESUME has been written and STOP_IO is still held by another module (R698). -/
  resuming : Bool
  /-- Model time of the Whoa stop. -/
  stoppedAt : Nat
  /-- STOP_IO as driven by this module, and as held by any other. -/
  stopOut : Bool
  stopIn : Bool
  /-- Set-up writes accepted while stopped, which take effect at resume (R695): port, offset, data. -/
  heldSetup : List (Nat × Nat × Word)
  /-- BAR4 requests held until resume: port, address, write data (`none` for a read), length. -/
  heldBar4 : List (Nat × Nat × Option (List Byte) × Nat)
  /-- Rail failures recorded while stopped, whose drops start at resume (R696): a region, or 32 and the die. -/
  heldRail : List Nat
  dumps : Tab DumpRun
  /-- Time synchronisation: consecutive offsets within 20 ns, and the model time of the last measurement (R677). -/
  good : Nat
  lastMeas : Nat
  /-- The slew in progress (R677): nanoseconds still to be added to the time base, at most 1 in 10,000, since this model time. -/
  slew : Int
  slewAt : Nat
  /-- Departure times of TIME requests outstanding (R753). -/
  timeReqs : List Word
deriving DecidableEq, Repr

/-- Observability at power-on. -/
def ObsState.init : ObsState :=
  { staged := [], dropped := [], rctr := [], chCount := [], snap := [], snapSeq := [], resuming := false, stoppedAt := 0, stopOut := false,
    stopIn := false, heldSetup := [], heldBar4 := [], heldRail := [], dumps := [], good := 0, lastMeas := 0, slew := 0, slewAt := 0, timeReqs := [] }

/-- A request to clear a region of its running slice (R533, R537): the slice, the context it is saved to, the slice that
enters, the model time of the trigger. -/
structure SwitchReq where
  slice : Nat
  ctx : Nat
  enter : Option Nat
  since : Nat
deriving DecidableEq, Repr

/-- Scheduling state of one region beyond SLC_RGN_r. -/
structure RegionRun where
  req : Option SwitchReq
  /-- Lowest PRIO that may be dispatched while context 1 holds saved work (R539). -/
  floor : Option Nat
  /-- Model time at which the resident slice entered (R534). -/
  entered : Nat
  /-- Channel whose EXCLUSIVE window holds the region (R547). -/
  window : Option Nat
deriving DecidableEq, Repr

/-- A region with nothing asked of it. -/
def RegionRun.init : RegionRun := { req := none, floor := none, entered := 0, window := none }


/-- Pins of the module's connectors that hold state ("Module connectors, electrical and mechanical data"). -/
structure Pins where
  /-- SYNC_IO as driven in FRAME_OUT mode, and the model time of the last frame start it showed. -/
  syncOut : Bool
  syncAt : Nat
  /-- FPERSTn_N asserted, by far port (R776). -/
  fperst : BitVec 4
  /-- The chain-select instrument of the test access chain, by die index (R445). -/
  chain : BitVec 12
  /-- The TAP instruction registers of the CD-2 and HD-1 dies, of 10 bits, by die index; one not listed holds BYPASS, all ones (R446, log 94). -/
  tapIr : Tab (BitVec 10)
deriving DecidableEq, Repr

/-- The pins at power-on. -/
def Pins.init : Pins := { syncOut := false, syncAt := 0, fperst := 0, chain := 0x300, tapIr := [] }

/-! ## Scale-out ("Scale-out ports and the Tandem transport") -/

/-- One packet that a flow has numbered and that is not yet acknowledged (R748, R749): the accesses it carries, whether it has left on a
port, how often it was resent, and when it was sent last. -/
structure TxPkt where
  pkt : Packet
  reqs : List Nat
  sent : Bool
  resends : Nat
  sentAt : Nat
deriving DecidableEq, Repr

/-- One flow of this module (R746): source engine, destination module, class; the hub whose context it holds, the port it is
pinned to, the next PSN, its unacknowledged packets in PSN order, its rate in Mb/s, the times of the last CNP, of the last rate
increase, of the last acknowledgement, since when every packet is acknowledged, and since when it has had no usable port. -/
structure TxFlow where
  eng : Nat
  mod : Nat
  tc : Nat
  hub : Nat
  port : Option Nat
  next : Nat
  unacked : List TxPkt
  rate : Nat
  rateAt : Nat
  ackAt : Nat
  idleAt : Nat
  waitAt : Option Nat
deriving DecidableEq, Repr

/-- One flow received from another module (R748): its engine, source module and class, the hub that holds it, the next PSN to apply, the
out-of-order packets held, the read responses sent by PSN, and the model time of the last CNP sent for it. -/
structure RxFlow where
  eng : Nat
  src : Nat
  tc : Nat
  hub : Nat
  expect : Nat
  held : List Packet
  rsp : List (Nat × Packet)
  cnpAt : Option Nat
deriving DecidableEq, Repr

/-- Scale-out state beyond the SO_ registers: the flows, packets that arrived while the module was stopped (R695), and frames dropped
(R742). -/
structure Tandem where
  tx : List TxFlow
  rx : List RxFlow
  heldIn : List (Nat × Packet)
  dropped : Nat
deriving DecidableEq, Repr

/-- No flow. -/
def Tandem.init : Tandem := { tx := [], rx := [], heldIn := [], dropped := 0 }

/-! ## Bays ("Die-to-die links, the mirror line and the bays") -/

/-- One bay beyond its registers: whether its die passed admission at the last Stand, and the slice it was bound to last, until a
BAY_RESET completes with BIND clear (R442). -/
structure BayRun where
  admitted : Bool
  lastBound : Option Nat
deriving DecidableEq, Repr

/-- A bay before admission. -/
def BayRun.init : BayRun := { admitted := false, lastBound := none }

/-! ## Power ("Power, clocks and the 50 V input") -/

/-- Why the data plane is off. -/
inductive PowerOff where
  | on | trip | leak | input | refclk
deriving DecidableEq, Repr

/-- Power state beyond the PW_ registers. Powers are in mW and energies in nJ. -/
structure Power where
  /-- The management source of R53: budget and floor in W, ramp limit in W/ms. -/
  mgmtBudget : Option Nat
  mgmtRamp : Option Nat
  mgmtFloor : Option Nat
  /-- Beff at the last tick (R585). -/
  beff : Nat
  /-- Measured input power and Beff of the last 200 ticks, newest first. -/
  hist : List (Nat × Nat)
  /-- The always-on hardware holds the Curb ratios for missed ticks (R590). -/
  missedClamp : Bool
  /-- Regions that run filler (R588). -/
  filler : BitVec 32
  /-- Thermal caps on region allotments (R595), in mW plus one; 0 is none. -/
  cap : Tab Nat
  /-- Watts short at the worst tick of an open window's reserve: channel, entry, watts (R589). -/
  shortNoted : List (Nat × Nat × Nat)
  /-- Curb ratios in sixteenths of each cluster's clock, as loaded by the last tick: for Curb and for the brake (R591). -/
  ratios : List (Nat × Nat)
  /-- Steps by which every pulse-filter count of a region is lowered (R580). -/
  cut : Tab Nat
  /-- k of the last settled interval as a quotient, and the count of clamped intervals (R600). -/
  kNum : Nat
  kDen : Nat
  clamped : Nat
  /-- Accounts: input, floor, manager; per slice runs and idle (R601). -/
  eIn : Nat
  eFloor : Nat
  eMgr : Nat
  eJob : Tab Nat
  eIdle : Tab Nat
  /-- Energy of runs that ended within the interval in progress, by the k of the previous one (R602). -/
  tail : Nat
  /-- The data plane's rails and clocks. -/
  off : PowerOff
  /-- Dies in SELF_REFRESH (R576). -/
  sleeping : BitVec 8
  /-- The last input voltage in units of 10 mV. -/
  lastVin : Nat
deriving DecidableEq, Repr

/-- Power state at power-on. -/
def Power.init : Power :=
  { mgmtBudget := none, mgmtRamp := none, mgmtFloor := none, beff := 1000000, hist := [],
    missedClamp := false, filler := 0, cap := [], shortNoted := [], ratios := [], cut := [], kNum := 1, kDen := 1, clamped := 0, eIn := 0, eFloor := 0,
    eMgr := 0, eJob := [], eIdle := [], tail := 0, off := .on, sleeping := 0, lastVin := 0 }

/-! ## Start-up and the mailbox ("Start-up stages and resets") -/

/-- A mailbox response that firmware has formed and not yet written (R639). -/
structure MbxRsp where
  status : Nat
  payload : List Byte
deriving DecidableEq, Repr

/-- Start-up state beyond the SU_ registers. -/
structure Startup where
  /-- The always-on domain is powered and Stand has begun; Stand has reached step 6; a sequencer image is verified (R615, R616). -/
  powered : Bool
  standDone : Bool
  seqOk : Bool
  /-- Halter has begun (R618), and the model time from which the bounds of PERST_N release are measured. -/
  begun : Bool
  relAt : Nat
  /-- Model times at which Halter steps 1 to 11 and Saddled steps 1 to 4 (as 12 to 15) were reached, plus one. -/
  steps : Tab Nat
  /-- Regions whose self-test in Halter has ended. -/
  tested : BitVec 32
  /-- Far ports whose enumeration in Halter has ended. -/
  farDone : BitVec 4
  /-- The last SELFTEST: regions asked for, passed and failed (R640). -/
  testAsk : BitVec 32
  testPass : BitVec 32
  testFail : BitVec 32
  mbx : Option MbxRsp
  /-- Digest of the sequencer image loaded at the last Halter (R723). -/
  loadedSeq : Nat
  /-- REFCLK lost and not yet valid for 10 ms (R791). -/
  refLost : Bool
deriving DecidableEq, Repr

/-- Before Stand. -/
def Startup.init : Startup :=
  { powered := false, standDone := false, seqOk := false, begun := false, relAt := 0, steps := [], tested := 0, farDone := 0, testAsk := 0,
    testPass := 0, testFail := 0, mbx := none, loadedSeq := 0, refLost := false }

/-! ## Management ("Management plane, firmware and security") -/

/-- An SPDM connection (R722): what has been negotiated, the nonce counter of signatures, and the sessions open with their key
generation. -/
structure Spdm where
  version : Bool
  caps : Bool
  algs : Bool
  /-- A KEY_EXCHANGE waiting for its FINISH. -/
  handshake : Option Nat
  sessions : List (Nat × Nat)
  nextId : Nat
deriving DecidableEq, Repr

/-- The management plane's protocol state. TDI states: 0 CONFIG_UNLOCKED, 1 CONFIG_LOCKED, 2 RUN, 3 ERROR (R735). -/
structure Mgmt where
  /-- PLDM events not yet acknowledged: sensor and state or band (R724, R781). -/
  events : List (Nat × Nat)
  /-- Last state or band reported of each sensor. -/
  last : Tab Nat
  receiver : Option Nat
  eid : Nat
  dyn : Nat
  tdi : Tab Nat
  /-- Nonces issued for debug tokens, with the model time of issue (R736). -/
  nonces : List (Nat × Nat)
  spdm : Spdm
  /-- Hottest junction of each hub in °C (R594). -/
  hubTemp : Tab Nat
deriving DecidableEq, Repr

/-- The management plane before Stand. -/
def Mgmt.init : Mgmt :=
  { events := [], last := [], receiver := none, eid := 0, dyn := 0, tdi := [], nonces := [],
    spdm := { version := false, caps := false, algs := false, handshake := none, sessions := [], nextId := 1 }, hubTemp := [] }

/-! ## Flash and fuses -/

/-- One flash bank (R728): bytes written to it, whether its bundle is valid by R727, whether its Bridle and sequencer images are, and what
its bundle's headers say: SVN, VERSION, REVOKE, the key slots of its Bridle and sequencer images; the digests of both images and of its
revocation list. -/
structure Bank where
  data : Tab Byte
  valid : Bool
  bridleOk : Bool
  seqOk : Bool
  svn : Nat
  version : Nat
  revoke : Nat
  bridleSlot : Nat
  seqSlot : Nat
  bridleDigest : Nat
  seqDigest : Nat
  listDigest : Nat
deriving DecidableEq, Repr

/-- A bank that holds no valid bundle. -/
def Bank.empty : Bank :=
  { data := [], valid := false, bridleOk := false, seqOk := false, svn := 0, version := 0, revoke := 0, bridleSlot := 0, seqSlot := 0, bridleDigest := 0, seqDigest := 0,
    listDigest := 0 }

/-- A firmware update in progress (R731): path 1 mailbox, 2 PLDM; the bundle's length; the component being sent; the last activity. -/
structure Update where
  path : Nat
  len : Nat
  comp : Nat
  base : Nat
  size : Nat
  at' : Nat
  verified : Bool
deriving DecidableEq, Repr

/-- Firmware, flash and fuses (R727 to R733). Banks are 1 A and 2 B; a run bank of 0 is ROM recovery. -/
structure Sec where
  bankA : Bank
  bankB : Bank
  /-- The boot record: ACTIVE bank, TRIAL bank (0 none) and failed boots of the TRIAL bank. -/
  active : Nat
  trial : Nat
  fails : Nat
  run : Nat
  /-- Fuses: FUSE_SVN, revoked key slots, DEBUG_DISABLE. -/
  fuseSvn : Nat
  slotsRevoked : Nat
  debugFused : Bool
  /-- Fuses: part number (1 VT-8850-L1, 2 VT-8850-L1B) and the bay positions with a die, bit 0 Bay N (R4, R7, R499). -/
  part : Nat
  bays : Nat
  update : Option Update
deriving DecidableEq, Repr

/-- A bank as shipped: its images are valid, at SVN 0 under key slot 0 (DESIGN CHOICE, log 32). -/
def Bank.shipped : Bank := { Bank.empty with valid := true, bridleOk := true, seqOk := true }

/-- Flash and fuses of a module as shipped: bank A ACTIVE, no TRIAL bank, nothing blown (log 32); a VT-8850-L1B, with a die at both
bay positions (log 23). -/
def Sec.shipped : Sec :=
  { bankA := Bank.shipped, bankB := Bank.shipped, active := 1, trial := 0, fails := 0, run := 0, fuseSvn := 0, slotsRevoked := 0,
    debugFused := false, part := 2, bays := 3, update := none }


/-- Work of the device that completes as time passes: a START of a slice; the end of its RESET, and of its REMOVE; the groom of a
region and of a channel that no slice holds any more (R519, R521, R525). -/
inductive Task where
  | run (n : Nat)
  | stop (n : Nat)
  | free (n : Nat)
  | region (r : Nat)
  | channel (c : Nat)
deriving DecidableEq, Repr

/-- Everything but the queue: the device's state. -/
structure Dev where
  /-- Nanoseconds since power-on. -/
  now : Nat
  /-- What is added to `now` to give the device time base (R676, R678). -/
  tOff : Word
  /-- Counter the free values are applied to: the model's own field, not the spec's. -/
  free : Nat
  regs : Tab Word
  ms : MemSys
  cores : Tab Core
  clusters : Tab Cluster
  saved : List SavedCtx
  rgn : Tab RegionRun
  /-- What is in progress and completes as time passes, oldest first (R519, R521, R525; log 15). -/
  todo : List Task
  /-- Page-groom requests queued, the first one running: first frame and count (R526). -/
  pgq : List (Nat × Nat)
  chans : Tab Channel
  cmds : List Cmd
  nextKey : Nat
  /-- The channel that placed a block last, by slice tag (R531). -/
  lastPlaced : Tab Nat
  ports : Tab HostPort
  /-- Instant at which the set-up lease expires (R458); the owner is ID_SEM.OWNER. -/
  leaseEnd : Nat
  /-- The CLAIM that last granted the lease found it free (R458). -/
  leaseFresh : Bool
  flt : FaultState
  bridle : Bridle
  /-- Regions under self-test (R620, R626). -/
  selfTest : BitVec 32
  /-- Dirty-log bits staged and not yet in host memory: slice, bitmap (0 A, 1 B, 2 frames), page (R548, R550). -/
  dlog : List (Nat × Nat × Nat)
  /-- Accesses to peer windows not yet acknowledged by their Tandem flow (R330, R748). -/
  peerOut : List PeerReq
  obs : ObsState
  pins : Pins
  tandem : Tandem
  bays : Tab BayRun
  pw : Power
  su : Startup
  mg : Mgmt
  out : List Out
deriving DecidableEq, Repr

/-- The machine state: the device, the firmware and fuses, and the commands that wait, first in, first out. -/
structure State where
  dev : Dev
  sec : Sec
  pending : List Instr
deriving DecidableEq, Repr

/-- The device before its first Stand: no power has been applied, every register at its reset value (R23, R27, R631), memory with nothing
listed, the Bridles not yet running (R615). -/
def Dev.init : Dev :=
  { now := 0, tOff := 0, free := 0, regs := [], ms := MemSys.init, cores := [], clusters := [], saved := [], rgn := [], todo := [], pgq := [], chans := [],
    cmds := [], nextKey := 1, lastPlaced := [], ports := [], leaseEnd := 0, leaseFresh := false, flt := { backlog := [], coal := [], stopped := false },
    bridle := { up := false, queue := [], lost := 0, seen := [], faultLog := [], repairLog := [] }, selfTest := 0, dlog := [], peerOut := [],
    obs := ObsState.init, pins := Pins.init, tandem := Tandem.init, bays := [], pw := Power.init, su := Startup.init, mg := Mgmt.init, out := [] }

/-- The machine right after power is applied, before the STAND event: the firmware and fuses as Fowekin ships them (R727 to R730), and no
command waiting. -/
def State.reset : State := { dev := Dev.init, sec := Sec.shipped, pending := [] }

end Sys2Proof.Machine
end

