-- ==== Sys2Proof/Machine/Ops.lean ====
section
/-! DEFINITION. Sys2Proof/Machine/Ops.lean: the shared operations: registers and their fields, the access codes of
BAR0 writes, host writes and messages, error records and their delivery. -/

namespace Sys2Proof.Machine

open Sys2Proof

/-- An outcome of a command. -/
abbrev Out' := Host.Outcome State Fault Refusal

/-- A command's effect on the device; the queue stays as it is. -/
def upd (s : State) (f : Dev → Dev) : Out' := .next { s with dev := f s.dev }

/-- What a step leaves where it made coherent requests: nothing, where a home refused one with retry; its command waits (log 8). -/
def retried (old new : Dev) : Dev := if new.ms.blocked then old else new

/-- The effect of a command that makes coherent requests. -/
def updM (s : State) (f : Dev → Dev) : Out' := upd s (fun d => retried d (f { d with ms := { d.ms with blocked := false } }))

/-! ## Registers -/

/-- The stored word of the register at a BAR0 offset. -/
def reg (s : Dev) (off : Nat) : Word := tabGet regReset s.regs off

/-- Store a register word. -/
def setReg (s : Dev) (off : Nat) (w : Word) : Dev := { s with regs := tabSet regReset s.regs off w }

/-- A field of a register. -/
def getF (s : Dev) (f : Fld) : Nat := fld (reg s f.off) f.msb f.lsb

/-- Store a field of a register. -/
def setF (s : Dev) (f : Fld) (v : Nat) : Dev := setReg s f.off (putFld (reg s f.off) f.msb f.lsb v)

/-- Add to a saturating count field. -/
def satF (s : Dev) (f : Fld) (n : Nat) : Dev :=
  setF s f (satAdd (f.msb + 1 - f.lsb) (getF s f) n)

/-- R677: what a slew has added to the time base so far, at 100 ppm. -/
def slewDone (s : Dev) : Int :=
  let d : Int := ((s.now - s.obs.slewAt) / 10000 : Nat)
  if 0 ≤ s.obs.slew then min s.obs.slew d else max s.obs.slew (-d)

/-- The device time base, OBS_TIME (R675 to R677). -/
def timeBase (s : Dev) : Word := BitVec.ofNat 64 s.now + s.tOff + BitVec.ofInt 64 (slewDone s)

/-- What a slew has added so far becomes part of the offset; the slew goes on from model time `t` with what is left, plus `more`. -/
def settleSlew (s : Dev) (t : Nat) (left : Int → Int) : Dev :=
  let d := slewDone s
  { s with tOff := s.tOff + BitVec.ofInt 64 d, obs := { s.obs with slew := left (s.obs.slew - d), slewAt := t } }

/-- R25, R26: whether a value is a listed encoding of a field. -/
def legalEnc (f : FieldSpec) (v : Nat) : Bool :=
  f.legal.isEmpty || f.legal.any (fun r => decide (r.1 ≤ v) && decide (v ≤ r.2))

/-- R23, R24, R26: the effect of a write on one field of a stored word. `locked` is the block's lock. -/
def writeField (locked : Bool) (w val : Word) (f : FieldSpec) : Word :=
  let v := fld val f.msb f.lsb
  let old := fld w f.msb f.lsb
  match f.acc with
  | .ro => w
  | .wo => w
  | .rw => if legalEnc f v then putFld w f.msb f.lsb v else w
  | .rwl => if locked then w else if legalEnc f v then putFld w f.msb f.lsb v else w
  | .w1c => putFld w f.msb f.lsb (Nat.land old (2 ^ (f.msb + 1 - f.lsb) - 1 - v))
  | .w1s => putFld w f.msb f.lsb (Nat.lor old v)

/-- Whether the lock of the block holding `off` is set (R24). -/
def blockLocked (s : Dev) (off : Nat) : Bool := (reg s (lockOff off)).getLsbD 63

/-- R23: a write of a whole register by its fields' access codes. -/
def writeReg (s : Dev) (off : Nat) (val : Word) : Dev :=
  match regSpecAt off with
  | none => s
  | some r =>
    let locked := blockLocked s off && r.fields.any (fun f => f.acc == .rwl)
    setReg s off (r.fields.foldl (fun w f => writeField locked w val f) (reg s off))

/-- As `writeReg`, on the fields that satisfy `p` alone. -/
def writeRegBy (s : Dev) (off : Nat) (val : Word) (p : FieldSpec → Bool) : Dev :=
  match regSpecAt off with
  | none => s
  | some r =>
    let locked := blockLocked s off && r.fields.any (fun f => f.acc == .rwl)
    setReg s off ((r.fields.filter p).foldl (fun w f => writeField locked w val f) (reg s off))

/-! ## Parts of the state by index -/

/-- A core by number. -/
def getCore (s : Dev) (c : Nat) : Core := tabGet (fun _ => Core.init) s.cores c
/-- Store a core. -/
def setCore (s : Dev) (c : Nat) (x : Core) : Dev := { s with cores := tabSet (fun _ => Core.init) s.cores c x }
/-- Update a core. -/
def modCore (s : Dev) (c : Nat) (f : Core → Core) : Dev := setCore s c (f (getCore s c))
/-- A cluster by number. -/
def getCl (s : Dev) (c : Nat) : Cluster := tabGet (fun _ => Cluster.init) s.clusters c
/-- Store a cluster. -/
def setCl (s : Dev) (c : Nat) (x : Cluster) : Dev :=
  { s with clusters := tabSet (fun _ => Cluster.init) s.clusters c x }
/-- Update a cluster. -/
def modCl (s : Dev) (c : Nat) (f : Cluster → Cluster) : Dev := setCl s c (f (getCl s c))
/-- A channel by number. -/
def getCh (s : Dev) (c : Nat) : Channel := tabGet (fun _ => Channel.init) s.chans c
/-- Update a channel. -/
def modCh (s : Dev) (c : Nat) (f : Channel → Channel) : Dev :=
  { s with chans := tabSet (fun _ => Channel.init) s.chans c (f (getCh s c)) }
/-- A host port, 0 A or 1 B. -/
def getPort (s : Dev) (p : Nat) : HostPort := tabGet (fun _ => HostPort.init) s.ports p
/-- Update a host port. -/
def modPort (s : Dev) (p : Nat) (f : HostPort → HostPort) : Dev :=
  { s with ports := tabSet (fun _ => HostPort.init) s.ports p (f (getPort s p)) }
/-- A command in flight by key. -/
def getCmd (s : Dev) (k : Nat) : Option Cmd := s.cmds.find? (fun c => c.key == k)
/-- Update a command in flight. -/
def modCmd (s : Dev) (k : Nat) (f : Cmd → Cmd) : Dev :=
  { s with cmds := updFirst (fun c => c.key == k) f s.cmds }
/-- Update the memory system. -/
def modMs (s : Dev) (f : MemSys → MemSys) : Dev := { s with ms := f s.ms }
/-- A group of a core. -/
def getGroup (s : Dev) (c slot : Nat) : Option Group := tabGet (fun _ => none) (getCore s c).groups slot
/-- Store or remove a group. -/
def setGroup (s : Dev) (c slot : Nat) (g : Option Group) : Dev :=
  modCore s c (fun x => { x with groups := tabSet (fun _ => none) x.groups slot g })
/-- Update a group where one is resident. -/
def modGroup (s : Dev) (c slot : Nat) (f : Group → Group) : Dev :=
  match getGroup s c slot with
  | some g => setGroup s c slot (some (f g))
  | none => s

/-- Die, region within the die, cluster within the region, core within the cluster (R42). -/
def coreDie (c : Nat) : Nat := c / 96
def coreRegion (c : Nat) : Nat := c / 24
def coreCluster (c : Nat) : Nat := c / 4

/-- The next value of the free-value counter. -/
def bumpFree (s : Dev) : Dev := { s with free := s.free + 1 }

/-- R683: add to the counters 8w to 8w + 7 of a block whose selects are in the register at `sel` and whose values lie from `ctr` on. -/
def countSel (s : Dev) (sel ctr code n : Nat) : Dev :=
  let v := reg s sel
  if v = 0 then s
  else (List.range 8).foldl (fun s i =>
    if fld v (8 * i + 7) (8 * i) = code then setReg s (ctr + 8 * i) (reg s (ctr + 8 * i) + BitVec.ofNat 64 n) else s) s

/-- Add to the die counters that select an event. -/
def countDie (s : Dev) (die code n : Nat) : Dev :=
  (List.range 4).foldl (fun s w => countSel s (offOBS_DIE_SEL die w) (offOBS_DIE_CTR die (8 * w)) code n) s

/-- Add to the hub counters that select an event. -/
def countHub (s : Dev) (hub code n : Nat) : Dev :=
  (List.range 8).foldl (fun s w => countSel s (offOBS_HUB_SEL hub w) (offOBS_HUB_CTR hub (8 * w)) code n) s

/-- R683: the bytes that something sent moves through a hub's host port or far ports (what counts as moved is DEDUCED, log 96). -/
def countOut (s : Dev) (o : Out) : Dev :=
  let ones (m : BitVec 64) : Nat := (bitsOf 64 m.toNat).length
  match o with
  | .hostWrite p _ _ d => countHub s p 0xC1 d.length
  | .hostMasked p _ _ _ m => countHub s p 0xC1 (ones m)
  | .dump p _ n _ _ _ => countHub s p 0xC1 n
  | .hostRead p _ _ n => countHub s p 0xC0 n
  | .fetch p _ _ _ n => countHub s p 0xC0 (64 * n)
  | .readData p d _ => countHub s p 0xC0 d.length
  | .cxl f w _ _ m _ => if w then countHub s (f / 2) 0xC3 (ones m) else countHub s (f / 2) 0xC2 64
  | _ => s

/-- Append to what the module has sent. -/
def emit (s : Dev) (o : Out) : Dev :=
  let s := countOut s o
  { s with out := s.out ++ [o] }

/-! ## Host writes and messages (R457, R475, R495) -/

/-- Whether a host port's link is up. -/
def portUp (s : Dev) (p : Nat) : Bool := (getPort s p).up

/-- The port a PORT field names: 0b01 A, 0b10 B. -/
def portOf (code : Nat) : Nat := if code = 2 then 1 else 0

/-- A posted write to host memory; dropped when the link is down. -/
def hostWrite (s : Dev) (p : Nat) (pasid : Option Nat) (addr : Nat) (data : List Byte) : Dev :=
  if portUp s p then emit s (.hostWrite p pasid addr data) else s

/-- The key of a vector in the mask and pending lists. -/
def vecKey (vf : Option Nat) (v : Nat) : Nat :=
  match vf with
  | none => v
  | some n => 4096 * (n + 1) + v

/-- An MSI-X message; a masked vector sets its pending bit instead (R495). A function whose MSI-X is not enabled
sends nothing. -/
def sendMsix (s : Dev) (p : Nat) (vf : Option Nat) (v : Nat) : Dev :=
  let port := getPort s p
  let fn := match vf with
    | none => 0
    | some n => n + 1
  if !port.up || !port.msixEn.getLsbD fn || (vf.isSome && !port.vfEn) then s
  else if port.msixOff.contains (vecKey vf v) then
    modPort s p (fun x => { x with pendingVec := if x.pendingVec.contains (vecKey vf v) then x.pendingVec else x.pendingVec ++ [vecKey vf v] })
  else emit s (.msix p vf v)

/-! ## Error records (R644 to R653) -/

/-- The fields of an error record that its producer gives (R646); none values are the defaults. -/
structure ErrRec where
  sev : Nat
  cause : Nat
  addr : Option Nat := none
  virt : Bool := false
  job : Option Block64 := none
  replace : Bool := false
  hubO : Bool := false
  die : Nat := 0xFF
  region : Nat := 0xFF
  cluster : Nat := 0xFF
  core : Nat := 0xFF
  unit : Nat := 0xFF
  index : Nat := 0xFF
  slice : Nat := 0xFF
  ring : Nat := 0xFFFF
  status : Nat := 0xFF
  exc : Nat := 0
  count : Nat := 1
  detail : Nat := 0
deriving DecidableEq, Repr

/-- R646: the 64-byte record. -/
def errBytes (r : ErrRec) (seq : Nat) (time : Word) : Block64 :=
  let flags := (r.addr.isSome).toNat + 2 * r.virt.toNat + 4 * (r.job.isSome).toNat + 8 * r.replace.toNat + 16 * r.hubO.toNat
  let job := match r.job with
    | some d => fld d 95 64 + 2 ^ 32 * fld d 47 32 + 2 ^ 48 * fld d 63 48
    | none => 0
  BitVec.ofNat 512
    (seq + 2 ^ 32 * r.sev + 2 ^ 40 * flags + 2 ^ 48 * r.cause + 2 ^ 64 * time.toNat
      + 2 ^ 128 * r.die + 2 ^ 136 * r.region + 2 ^ 144 * r.cluster + 2 ^ 152 * r.core + 2 ^ 160 * r.unit
      + 2 ^ 168 * r.index + 2 ^ 176 * r.slice + 2 ^ 192 * (r.addr.getD 0) + 2 ^ 256 * job
      + 2 ^ 320 * r.ring + 2 ^ 336 * r.status + 2 ^ 344 * r.exc + 2 ^ 352 * r.count + 2 ^ 384 * (r.detail % 2 ^ 128))

/-- The bytes of a 64-byte block, lowest address first. -/
def blockBytes (b : Block64) : List Byte := leBytes 64 b.toNat

/-- R650: deliver a record to one ACTIVE event ring: record at TAIL, TAIL advanced, tail word, message. -/
def ringDeliver (s : Dev) (n : Nat) (rb : Block64) : Dev :=
  let size := 2 ^ getF s (fFLT_ER_CFG_LOG2SZ n)
  let tail := getF s (fFLT_ER_STATE_TAIL n)
  let head := getF s (fFLT_ER_STATE_HEAD n)
  if (tail + 1) % size = head then satF s (fFLT_ER_LOST_LOST n) 1
  else
    let p := portOf (getF s (fFLT_ER_CFG_PORT n))
    let s := hostWrite s p none (64 * getF s (fFLT_ER_BASE_ADDR n) + 64 * tail) (blockBytes rb)
    let s := setF s (fFLT_ER_STATE_TAIL n) ((tail + 1) % size)
    let s := hostWrite s p none (8 * getF s (fFLT_ER_WB_ADDR n)) (leBytes 8 ((tail + 1) % size))
    if getF s (fFLT_ER_CFG_IRQ_EN n) = 1 then sendMsix s p none (getF s (fFLT_ER_CFG_VECTOR n)) else s

/-- The event rings that are ACTIVE. -/
def activeRings (s : Dev) : List Nat := [0, 1].filter (fun n => getF s (fFLT_ER_STATE_STATE n) == 1)

/-- R652: hold a record in the backlog of the hub that produced it, 256 records per hub. -/
def backlogPut (s : Dev) (hub : Nat) (rb : Block64) : Dev :=
  if (s.flt.backlog.filter (fun e => e.1 == hub)).length < 256 then
    let s := { s with flt := { s.flt with backlog := s.flt.backlog ++ [(hub, rb)] } }
    setF s fFLT_SEQ_BACKLOG s.flt.backlog.length
  else satF s fFLT_SEQ_BACKLOG_LOST 1

/-- R653, R54: a record at DEFERRED or above goes to the primary Bridle, or waits for it, 64 records per hub. DEVICE
records and records of lost parts go to the flash fault log. -/
def bridlePut (s : Dev) (hub : Nat) (r : ErrRec) (rb : Block64) : Dev :=
  let log := r.sev == 4 || r.replace
  if s.bridle.up then
    { s with bridle := { s.bridle with seen := s.bridle.seen ++ [rb],
                                       faultLog := if log then s.bridle.faultLog ++ [rb] else s.bridle.faultLog } }
  else if (s.bridle.queue.filter (fun e => e.1 == hub)).length < 64 then
    { s with bridle := { s.bridle with queue := s.bridle.queue ++ [(hub, rb)] } }
  else { s with bridle := { s.bridle with lost := s.bridle.lost + 1 } }

/-- R667: the event count of a severity. -/
def sevField (sev : Nat) : Fld :=
  if sev = 0 then fFLT_CNT0_CORRECTED else if sev = 1 then fFLT_CNT0_DEFERRED
  else if sev = 2 then fFLT_CNT1_CONTAINED else if sev = 3 then fFLT_CNT1_DOMAIN else fFLT_CNT1_DEVICE

/-- R661: the first record with REPLACE set makes the health DEGRADED, asserts SERVICE_N and marks its kind. -/
def noteReplace (s : Dev) (bitNo : Nat) : Dev :=
  let s := if getF s fFLT_HEALTH_STATE = 0 then setF s fFLT_HEALTH_STATE 1 else s
  let s := setF s fFLT_HEALTH_SERVICE 1
  let s := setF s fSU_PINS_SERVICE 1
  setReg s offFLT_REPLACE (reg s offFLT_REPLACE ||| BitVec.ofNat 64 (2 ^ bitNo))

/-- R646, R650 to R653: produce one record: sequence number, counts, rings or backlog, Bridle. -/
def putRecord (s : Dev) (r : ErrRec) : Dev :=
  let seq := getF s fFLT_SEQ_NEXT_SEQ
  let rb := errBytes r seq (timeBase s)
  let s := setF s fFLT_SEQ_NEXT_SEQ ((seq + 1) % 2 ^ 32)
  let s := satF s (sevField r.sev) r.count
  let hub := r.hubO.toNat
  let s :=
    if r.sev < getF s fFLT_CFG_MIN_SEV then s
    else
      match activeRings s with
      | [] => backlogPut s hub rb
      | l => l.foldl (fun s n => ringDeliver s n rb) s
  if r.sev = 0 then s else bridlePut s hub r rb

/-- The causes of CORRECTED records that are not coalesced (R649). -/
def notCoalesced (cause : Nat) : Bool :=
  [0x0005, 0x0006, 0x0020, 0x0021, 0x0050, 0x0051, 0x0064].contains cause

/-- R649: the source unit, cause and, for SETUP_ACCESS, port and offset, as one number. -/
def coalKey (r : ErrRec) : Nat :=
  r.cause + 2 ^ 16 * (r.die + 256 * (r.region + 256 * (r.cluster + 256 * (r.core + 256 * (r.unit + 256 * r.index)))))
    + (if r.cause = 0x0015 then 2 ^ 64 * r.detail else 0)

/-- R649: an event of a fault: CORRECTED ones are coalesced, one record for the first and one for each further 256. -/
def errRecord (s : Dev) (r : ErrRec) : Dev :=
  if r.sev = 0 && !notCoalesced r.cause then
    let k := coalKey r
    let n := tabGet (fun _ => 0) s.flt.coal k
    let s := { s with flt := { s.flt with coal := tabSet (fun _ => 0) s.flt.coal k (n + 1) } }
    if n = 0 then putRecord s r
    else if n % 256 = 0 then putRecord s { r with count := 256 }
    else s
  else putRecord s r

/-- R29, R67: log a set-up access error: CORRECTED, SETUP_ACCESS, per port and offset. -/
def setupError (s : Dev) (port off : Nat) : Dev :=
  errRecord s { sev := 0, cause := 0x0015, unit := 0x0F, detail := off % 2 ^ 26 + 2 ^ 32 * (port + 1) }

/-! ## Bays -/

/-- R438, R452: a bay's effective rights, as its status shows them. -/
def showRights (s : Dev) (b : Nat) : Dev :=
  setF s (fDL_BAY_STATUS_RIGHTS b)
    (if getF s (fDL_BAY_STATUS_STATE b) = 2 ∧ getF s (fDL_BAY_CTL_BIND b) = 1 then
      Nat.land (getF s (fDL_BAY_STATUS_RIGHTS_REQ b)) (getF s (fDL_BAY_CTL_GRANT b)) else 0)

/-! ## The ordering mode and the start-up stage -/

/-- CD_ORDER.MODE: TSO (R334). -/
def tso (s : Dev) : Bool := getF s fCD_ORDER_MODE == 1

/-- SU_STATUS.STAGE (R636): 0 STAND, 1 HALTER, 2 SADDLED, 3 FAILED, 4 RESETTING. -/
def stage (s : Dev) : Nat := getF s fSU_STATUS_STAGE

/-- A Halter or Saddled step has been reached at this time; the first time counts (R640). -/
def noteStep (s : Dev) (k : Nat) : Dev :=
  if tabGet (fun _ => 0) s.su.steps k = 0 then { s with su := { s.su with steps := tabSet (fun _ => 0) s.su.steps k (s.now + 1) } } else s

/-- A Halter or Saddled step has been reached. -/
def stepDone (s : Dev) (k : Nat) : Bool := tabGet (fun _ => 0) s.su.steps k != 0

/-- Debug authorization is enabled (R736, R738). -/
def debugOn (s : Dev) : Bool := getF s fSU_FW_DEBUG == 1

end Sys2Proof.Machine
end

