-- ==== Sys2Proof/Machine/Trace.lean ====
section
/-! DEFINITION. Sys2Proof/Machine/Trace.lean: event counters (R680 to R684), trace records and comparators (R687 to
R691), and the Whoa stop that sources share (R692, R693). -/

namespace Sys2Proof.Machine

open Sys2Proof

/-- The module has been stopped by Whoa. -/
def whoaStopped (s : Dev) : Bool := getF s fOBS_WHOA_CTL_STOPPED == 1

/-- The slice resident on a region, when the region is in service. -/
def residentOf (s : Dev) (region : Nat) : Option Nat :=
  if getF s (fSLC_RGN_STATE region) = 1 then some (getF s (fSLC_RGN_RESIDENT region)) else none

/-- R681: add to the core counters that select an event. -/
def countCore (s : Dev) (core code n : Nat) : Dev :=
  match residentOf s (coreRegion core) with
  | none => s
  | some sl =>
    let sel := reg s (offOBS_SLC_SEL sl 0)
    let hits := (List.range 8).filter (fun i => fld sel (8 * i + 7) (8 * i) == code)
    match hits with
    | [] => s
    | _ => modCore s core (fun c => { c with ctr := hits.foldl (fun t i => tabMod (fun _ => 0) t i (fun w => w + BitVec.ofNat 64 n)) c.ctr })

/-- R681: add to the region counters that select an event. -/
def countRegion (s : Dev) (region code n : Nat) : Dev :=
  match residentOf s region with
  | none => s
  | some sl =>
    let hits := (List.range 16).filter (fun i => fld (reg s (offOBS_SLC_SEL sl (1 + i / 8))) (8 * (i % 8) + 7) (8 * (i % 8)) == code)
    { s with obs := { s.obs with rctr := hits.foldl (fun t i => tabMod (fun _ => 0) t (16 * region + i) (fun w => w + BitVec.ofNat 64 n)) s.obs.rctr } }

/-! ## Whoa -/

/-- R692, R693: a stop source acts: only an armed module that is not stopped stops. With OUT_EN set, STOP_IO is driven. -/
def whoaStop (s : Dev) (source : Nat) : Dev :=
  if !debugOn s || whoaStopped s then s
  else
    let s := setF (setF s fOBS_WHOA_CTL_STOPPED 1) fOBS_WHOA_CTL_SOURCE source
    let s := { s with obs := { s.obs with stoppedAt := s.now } }
    if getF s fOBS_WHOA_CFG_OUT_EN = 1 then setF { s with obs := { s.obs with stopOut := true } } fSU_PINS_STOP 1 else s

/-! ## Trace -/

/-- The fields of a trace record (R688). -/
structure TraceRec where
  kind : Nat
  job : Nat
  layer : Nat
  op : Nat
  slice : Nat
  chan : Nat
  status : Nat
  info : Nat
  payload : Nat
deriving DecidableEq, Repr

/-- R688: the 32-byte record. -/
def traceWord (r : TraceRec) (time : Word) : BitVec 256 :=
  BitVec.ofNat 256 (time.toNat + 2 ^ 64 * (r.job % 2 ^ 32) + 2 ^ 96 * (r.layer % 2 ^ 16) + 2 ^ 112 * (r.op % 2 ^ 16)
    + 2 ^ 128 * r.kind + 2 ^ 136 * r.slice + 2 ^ 144 * r.chan + 2 ^ 152 * r.status + 2 ^ 160 * (r.info % 2 ^ 32) + 2 ^ 192 * (r.payload % 2 ^ 64))

/-- R690, R551: how many trace records a hub's staging holds. -/
def stagingRoom (s : Dev) (hub : Nat) : Nat :=
  let anyLog := (List.range 16).any (fun n => getF s (fSLC_DLOG_CTL_EN_A n) == 1 || getF s (fSLC_DLOG_CTL_EN_B n) == 1 || getF s (fSLC_DLOG_CTL_EN_D n) == 1)
  let share := if anyLog then 128 else 512
  let dump := if (tabGet (fun _ => DumpRun.init) s.obs.dumps hub).active then 32 else 0
  (share - 16 - dump) * 32

/-- Records staged on a hub. -/
def stagedOn (s : Dev) (hub : Nat) : Nat := (s.obs.staged.filter (fun e => e.1 == hub)).length

/-- R689: write staged records of a buffer to its ring while it is ACTIVE and has room (fuel: records staged). -/
def traceDrain (b : Nat) : Nat → Dev → Dev
  | 0, s => s
  | fuel + 1, s =>
    match s.obs.staged.find? (fun e => e.1 == b) with
    | none => s
    | some e =>
      let size := 2 ^ getF s (fOBS_TRB_CFG_LOG2SZ b)
      let tail := getF s (fOBS_TRB_STATE_TAIL b)
      let head := getF s (fOBS_TRB_STATE_HEAD b)
      if getF s (fOBS_TRB_STATE_STATE b) ≠ 1 ∨ (tail + 1) % size = head then s
      else
        let p := portOf (getF s (fOBS_TRB_CFG_PORT b))
        let s := { s with obs := { s.obs with staged := s.obs.staged.erase e } }
        let s := hostWrite s p none (64 * getF s (fOBS_TRB_BASE_ADDR b) + 32 * tail) (leBytes 32 e.2.toNat)
        let s := setF s (fOBS_TRB_STATE_TAIL b) ((tail + 1) % size)
        let s := hostWrite s p none (8 * getF s (fOBS_TRB_WB_ADDR b)) (leBytes 8 ((tail + 1) % size))
        let used := (tail + 1 + size - head) % size
        let s := if getF s (fOBS_TRB_CFG_IRQ_EN b) = 1 ∧ used = size / 2 + 1 then sendMsix s p none (getF s (fOBS_TRB_CFG_VECTOR b)) else s
        traceDrain b fuel s

/-- R690: stage a record on a hub, behind a DROPPED record where records were dropped and there is room for two. -/
def traceStage (s : Dev) (hub : Nat) (w : BitVec 256) : Dev :=
  let d := tabGet (fun _ => 0) s.obs.dropped hub
  let n := stagedOn s hub
  let room := stagingRoom s hub
  let s :=
    if (d = 0 ∧ n < room) then { s with obs := { s.obs with staged := s.obs.staged ++ [(hub, w)] } }
    else if 0 < d ∧ n + 2 ≤ room then
      let dr := traceWord { kind := 6, job := 0, layer := 0, op := 0, slice := 0xFF, chan := 0xFF, status := 0, info := d, payload := 0 } (timeBase s)
      { s with obs := { s.obs with staged := s.obs.staged ++ [(hub, dr), (hub, w)], dropped := tabSet (fun _ => 0) s.obs.dropped hub 0 } }
    else
      let s := satF s (fOBS_TRB_DROPS_DROPS hub) 1
      let s := countHub s hub 0xC9 1
      { s with obs := { s.obs with dropped := tabSet (fun _ => 0) s.obs.dropped hub (d + 1) } }
  traceDrain hub (s.obs.staged.length) s

/-- R691: whether comparator `c` matches a record. -/
def cmpMatches (s : Dev) (c : Nat) (r : TraceRec) : Bool :=
  let k := getF s (fOBS_CMP_CTL_KIND c)
  let sl := getF s (fOBS_CMP_CTL_SLICE c)
  let tag := BitVec.ofNat 64 (r.job % 2 ^ 32 + 2 ^ 32 * (r.layer % 2 ^ 16) + 2 ^ 48 * (r.op % 2 ^ 16))
  getF s (fOBS_CMP_CTL_EN c) == 1 && (k == 0 || k == r.kind) && (sl == 0x1F || sl == r.slice)
    && ((tag ^^^ reg s (offOBS_CMP_MATCH c)) &&& reg s (offOBS_CMP_MASK c)) == 0

/-- R691: the actions of a comparator that matches. A record it stages is not itself compared (log 7). -/
def cmpAct (s : Dev) (hub c : Nat) (r : TraceRec) : Dev :=
  let act := getF s (fOBS_CMP_CTL_ACTION c)
  let s := if act.testBit 0 then traceStage s hub (traceWord { r with kind := 5, status := 0, info := c, payload := r.info } (timeBase s)) else s
  let s := if act.testBit 2 then setF s fOBS_TRC_CFG_EN 1 else s
  let s := if act.testBit 3 then setF s fOBS_TRC_CFG_EN 0 else s
  if act.testBit 1 then whoaStop s 3 else s

/-- R687: whether a record of a kind, slice and channel is generated. -/
def traceOn (s : Dev) (r : TraceRec) : Bool :=
  getF s fOBS_TRC_CFG_EN == 1
    && (decide (16 ≤ r.slice) || (getF s fOBS_TRC_CFG_SLICE_EN).testBit r.slice)
    && (!(r.kind == 2 || r.kind == 3) || (getF s fOBS_TRC_CFG_CHAN_EN).testBit r.chan)

/-- R687 to R691: generate a trace record of a time on a hub: comparators see it, then it is staged. -/
def traceAt (s : Dev) (hub : Nat) (r : TraceRec) (time : Word) : Dev :=
  if traceOn s r then
    let s1 := traceStage s hub (traceWord r time)
    ([0, 1, 2, 3].filter (fun c => cmpMatches s c r)).foldl (fun s c => cmpAct s hub c r) s1
  else s

/-- A trace record of the present time. -/
def trace (s : Dev) (hub : Nat) (r : TraceRec) : Dev := traceAt s hub r (timeBase s)

/-- Whether a slice is frozen by a hang dump (R700). -/
def frozenSlice (s : Dev) (tag : Nat) : Bool :=
  [0, 1].any (fun h => let d := tabGet (fun _ => DumpRun.init) s.obs.dumps h; d.frozen && d.slice == tag)

/-- R703: a dump of a slice runs or is held. -/
def dumping (s : Dev) (n : Nat) : Bool :=
  [0, 1].any (fun h => let d := tabGet (fun _ => DumpRun.init) s.obs.dumps h; (d.active || d.held) && d.slice == n)

/-- The hub of a channel (R461). -/
def chanHub (c : Nat) : Nat := c / 8

end Sys2Proof.Machine
end

