-- ==== Sys2Proof/Machine/Routes.lean ====
section
/-! DEFINITION. Sys2Proof/Machine/Routes.lean: the die links and the routes over them (R44, R48 to R50). Dies are numbered 0 to 7 for C0 to C7,
8 for HN, 9 for HO, 10 and 11 for the bays. -/

namespace Sys2Proof.Machine

open Sys2Proof

/-- The dies at the ends of a link, in the order of R419's table. -/
def linkEnds (l : Nat) : Nat × Nat :=
  match l with
  | 0 => (8, 0) | 1 => (8, 2) | 2 => (0, 1) | 3 => (2, 3) | 4 => (0, 2) | 5 => (1, 3) | 6 => (1, 5) | 7 => (3, 7)
  | 8 => (5, 4) | 9 => (7, 6) | 10 => (5, 7) | 11 => (4, 6) | 12 => (9, 4) | 13 => (9, 6) | 14 => (8, 10) | _ => (9, 11)

/-! ## The routes of a package without loss (R48, R49) -/

/-- Row (0 top) and column of a compute die in the placement grid, and the die at a place. -/
def dieRow (d : Nat) : Nat := d / 2 % 2
def dieCol (d : Nat) : Nat := if d < 4 then d % 2 else 3 - d % 2
def dieAt (row col : Nat) : Nat := if col < 2 then 2 * row + col else 4 + 2 * row + (3 - col)

/-- The dies of a row from one column to another, both included. -/
def alongRow (row c1 c2 : Nat) : List Nat :=
  (List.range (max c1 c2 - min c1 c2 + 1)).map (fun i => dieAt row (if c1 ≤ c2 then c1 + i else c1 - i))

/-- The column beside a hub. -/
def hubCol (h : Nat) : Nat := if h = 8 then 0 else 3

/-- R48, R49: the route between two dies while every link is up, ends included. -/
def fixedRoute (a b : Nat) : List Nat :=
  if a = b then [a]
  else if 10 ≤ a ∨ 10 ≤ b then [a, b]
  else if a < 8 ∧ b < 8 then alongRow (dieRow a) (dieCol a) (dieCol b) ++ (if dieRow a = dieRow b then [] else [b])
  else if a < 8 then alongRow (dieRow a) (dieCol a) (hubCol b) ++ [b]
  else if b < 8 then a :: alongRow (dieRow b) (hubCol a) (dieCol b)
  else a :: alongRow (if a = 8 then 0 else 1) (hubCol a) (hubCol b) ++ [b]

/-! ## Rebuilt routes (R50) -/

/-- A link of the package that has failed. -/
def linkLost (s : Dev) (l : Nat) : Bool := getF s (fDL_LINK_STATE l) == 3

/-- The dies one hop from a die over surviving links, the bays apart. -/
def hopsFrom (s : Dev) (d : Nat) : List Nat :=
  (List.range 14).filterMap (fun l =>
    if linkLost s l then none
    else if (linkEnds l).1 = d then some (linkEnds l).2
    else if (linkEnds l).2 = d then some (linkEnds l).1 else none)

/-- Each path made one hop longer, to dies it has not passed; paths stand with their last die first. -/
def growPaths (s : Dev) (ps : List (List Nat)) : List (List Nat) :=
  ps.flatMap (fun p => match p with
    | [] => []
    | d :: _ => ((hopsFrom s d).filter (fun e => !p.contains e)).map (fun e => e :: p))

/-- The shortest paths to a die, source first (fuel: hops). -/
def shortestPaths (s : Dev) (b : Nat) : Nat → List (List Nat) → List (List Nat)
  | 0, _ => []
  | fuel + 1, ps =>
    let done := ps.filter (fun p => p.head? == some b)
    if done.isEmpty then shortestPaths s b fuel (growPaths s ps) else done.map List.reverse

/-- R50, test 1: whether a hop crosses the mirror line, which links 6 and 7 do. -/
def mirrorHop (a b : Nat) : Bool := [(1, 5), (5, 1), (3, 7), (7, 3)].contains (a, b)

/-- Mirror-line crossings of a route. -/
def crossings (p : List Nat) : Nat := ((p.zip (p.drop 1)).filter (fun e => mirrorHop e.1 e.2)).length

/-- R50, test 2: the rank of an intermediate die. -/
def dieRank (d : Nat) : Nat := if 8 ≤ d then 1 else 2 * dieRow d

/-- R50: the three tests as one number, for routes of equal length: a smaller one is chosen. -/
def routeKey (p : List Nat) : Nat :=
  let mid := (p.drop 1).dropLast
  mid.foldl (fun a d => 16 * a + d) (mid.foldl (fun a d => 4 * a + dieRank d) (crossings p))

/-- R50: the shortest route over the surviving links that passes the tests, where one exists. -/
def rebuiltRoute (s : Dev) (a b : Nat) : Option (List Nat) :=
  (shortestPaths s b 10 [[a]]).foldl (fun acc p => match acc with
    | none => some p
    | some q => if routeKey p < routeKey q then some p else acc) none

/-- R48 to R50: the route between two dies that are no bay, ends included. -/
def route (s : Dev) (a b : Nat) : Option (List Nat) :=
  if (List.range 14).all (fun l => !linkLost s l) then some (fixedRoute a b) else rebuiltRoute s a b

/-! ## Traffic -/

/-- The die of an agent of the coherent domain (R281). -/
def agentDie (a : Nat) : Nat := if a < 32 then a / 4 else if a < 34 then 8 else 9

/-- R683: a message passes along the route between two dies: each compute die that sends it on counts its flits, whose number the spec does not
give (free value, log 92). -/
def sendOn (s : Dev) (a b : Nat) : Dev :=
  if a = b then s
  else
    ((route s a b).getD []).dropLast.foldl (fun s d => if d < 8 then countDie (bumpFree s) d 0x84 (Config.flits s.free).toNat else s) s

/-- A message to each of some dies in turn. -/
def sendVia (s : Dev) : List Nat → Dev
  | [] => s
  | [_] => s
  | a :: b :: t => sendVia (sendOn s a b) (b :: t)

/-- A request of an entry point to a die, and its answer. An access that enters at its home has no entry point here (log 92). -/
def askDie (s : Dev) (x : Option Nat) (d : Nat) : Dev :=
  match x with
  | some a => sendVia s [agentDie a, d, agentDie a]
  | none => s

end Sys2Proof.Machine
end

