-- ==== Sys2Proof/Machine/Tandem.lean ====
section
/-! DEFINITION. Sys2Proof/Machine/Tandem.lean: how this module sends on the Tandem transport (R741 to R746, R748, R749, R756): peer
windows, flows, ports, and the packets an access to a peer window leaves in. -/

namespace Sys2Proof.Machine

open Sys2Proof

/-! ## Peer windows (R744, R756) -/

/-- The module whose peer window holds an address. -/
def peerMod (pa : Nat) : Nat := (pa - 0x100000000000) / 0xF00000000

/-- The byte offset of an address in its peer window. -/
def peerOff (pa : Nat) : Nat := (pa - 0x100000000000) % 0xF00000000

/-- What an access to a module's window meets before any packet: ACCESS_FAULT at the module's own window, ACCESS_FAULT with a record
where its entry is not VALID or names no port, a dead module, or a flow. -/
inductive PeerUse where
  | own | noEntry | dead | flow
deriving DecidableEq, Repr

/-- R744, R756: how an access to module `m` goes. -/
def peerUse (s : Dev) (m : Nat) : PeerUse :=
  if getF s fSO_CFG_MODULE_ID = m then .own
  else if getF s (fSO_PEER_VALID m) = 0 ∨ getF s (fSO_PEER_PORTMASK m) = 0 then .noEntry
  else if getF s (fSO_PEER_DEAD m) = 1 then .dead
  else .flow

/-- R756: the record of an access to a module with no entry. -/
def peerRecord (s : Dev) (m tag : Nat) (r : ErrRec) : Dev :=
  match peerUse s m with
  | .noEntry => errRecord s { r with sev := 2, cause := 0x0011, unit := 0x0C, slice := if 16 ≤ tag then 0x10 else tag }
  | _ => s

/-- R746: the ports of a module's PORTMASK that are UP, lowest first; none while Tandem is off (R757). -/
def upPorts (s : Dev) (m : Nat) : List Nat :=
  if getF s fSO_CFG_EN = 0 then []
  else (bitsOf 48 (getF s (fSO_PEER_PORTMASK m))).filter (fun p => getF s (fSO_PORT_STATE p) == 2)

/-- R746: the flow hash. -/
def flowHash (eng m tc : Nat) : Nat := Nat.xor (Nat.xor eng (m * 0x10)) (tc * 0x111) % 2 ^ 16

/-- R746: the port a flow is pinned to. -/
def pinPort (s : Dev) (eng m tc : Nat) : Option Nat :=
  let l := upPorts s m
  if l.isEmpty then none else l[flowHash eng m tc % l.length]?

/-- R739: the rate of a port in Mb/s, from its group's mode. -/
def portRate (s : Dev) (p : Nat) : Nat :=
  let mode := getF s (fSO_GRP_MODE (p / 4))
  if mode = 1 then 1600000 else if mode = 2 then 800000 else 400000

/-- The hub of a port. -/
def portHub (p : Nat) : Nat := p / 24

/-! ## Flows -/

/-- Update the flows that satisfy a test. -/
def modTx (s : Dev) (p : TxFlow → Bool) (f : TxFlow → TxFlow) : Dev :=
  { s with tandem := { s.tandem with tx := updAll p f s.tandem.tx } }

/-- A flow by its triple. -/
def isFlow (eng m tc : Nat) (f : TxFlow) : Bool := f.eng == eng && f.mod == m && f.tc == tc

/-- R762: SO_STATh.FLOWS shows the contexts in use. -/
def showFlows (s : Dev) : Dev :=
  [0, 1].foldl (fun s h => setF s (fSO_STAT_FLOWS h) (min 16384 ((s.tandem.tx.filter (fun f => f.hub == h)).length + (s.tandem.rx.filter (fun f => f.hub == h)).length))) s

/-- The hub whose context a new flow takes: that of the port it is pinned to, else of the lowest port of its PORTMASK. -/
def flowHub (s : Dev) (eng m tc : Nat) : Nat :=
  portHub ((pinPort s eng m tc).getD ((bitsOf 48 (getF s (fSO_PEER_PORTMASK m))).headD 0))

/-- R746: find or make the flow of a triple; false where every context of its hub is in use. -/
def takeFlow (s : Dev) (eng m tc : Nat) : Dev × Bool :=
  if s.tandem.tx.any (isFlow eng m tc) then (s, true)
  else
    let h := flowHub s eng m tc
    if 16384 ≤ (s.tandem.tx.filter (fun f => f.hub == h)).length then (s, false)
    else
      let p := pinPort s eng m tc
      let f : TxFlow := { eng := eng, mod := m, tc := tc, hub := h, port := p, next := 0, unacked := [], rate := (p.map (portRate s)).getD 0, rateAt := s.now, ackAt := s.now, idleAt := s.now, waitAt := if p.isSome then none else some s.now }
      (showFlows { s with tandem := { s.tandem with tx := s.tandem.tx ++ [f] } }, true)

/-- R749: bytes of a hub's retransmission area in use: packets waiting for acknowledgement and packets held out of order. -/
def rtxUsed (s : Dev) (h : Nat) : Nat :=
  ((s.tandem.tx.filter (fun f => f.hub == h)).map (fun f => (f.unacked.map (fun q => 32 + q.pkt.payload.length)).sum)).sum
    + ((s.tandem.rx.filter (fun f => f.hub == h)).map (fun f => (f.held.map (fun q => 32 + q.payload.length)).sum)).sum

/-! ## Frames (R741, R742) -/

/-- A number as `n` bytes in network order. -/
def netBytes (n v : Nat) : List Byte := (leBytes n v).reverse

/-- R742: the 32-byte header of a packet. -/
def headerBytes (p : Packet) : List Byte :=
  netBytes 1 (16 * p.ver.toNat + p.op.toNat) ++ netBytes 1 (32 * p.tc.toNat + 16 * p.masked.toNat + 8 * p.poison.toNat + p.dt.toNat)
    ++ netBytes 2 p.src.toNat ++ netBytes 2 p.dst.toNat ++ netBytes 2 p.eng.toNat ++ netBytes 4 p.psn.toNat ++ netBytes 4 p.ack.toNat
    ++ netBytes 8 p.addr.toNat ++ netBytes 2 p.len.toNat ++ netBytes 2 0 ++ netBytes 4 p.tag.toNat

/-- The sum of the 16-bit words of bytes in network order, an odd last byte padded with zero. -/
def netSum : List Byte → Nat
  | [] => 0
  | [a] => 256 * a.toNat
  | a :: b :: t => 256 * a.toNat + b.toNat + netSum t

/-- R741: the UDP checksum over pseudo-header, UDP header, Tandem header and payload, by the Internet's standard for UDP over IPv6
(PRESUMED, log 93): the complement of the ones' complement sum, 0xFFFF for 0. -/
def udpSum (src dst sport dport : Nat) (body : List Byte) : Nat :=
  let n := 8 + body.length
  let t := netSum (netBytes 16 src ++ netBytes 16 dst ++ netBytes 4 n ++ netBytes 4 17 ++ netBytes 2 sport ++ netBytes 2 dport ++ netBytes 2 n ++ body)
  let c := 65535 - (if t = 0 then 0 else (t - 1) % 65535 + 1)
  if c = 0 then 65535 else c

/-- R741, R745, R746, R752: the frame in which a packet leaves on a port. -/
def frameOf (s : Dev) (port : Nat) (p : Packet) : Frame :=
  let nh := getF s (fSO_PEER_NH p.dst.toNat)
  let tc := p.tc.toNat
  let six := getF s fSO_CFG_ENCAP == 1
  let src := getF s fSO_SRC6_HI_ADDR_HI * 2 ^ 64 + getF s fSO_SRC6_LO_ADDR_LO
  let dst := getF s (fSO_NH1_IP6_HI nh) * 2 ^ 64 + getF s (fSO_NH2_IP6_LO nh)
  let sport := 0xC000 + flowHash p.eng.toNat p.dst.toNat tc % 0x4000
  let dport := getF s fSO_CFG_UDP_PORT
  { dmac := BitVec.ofNat 48 (getF s (fSO_NH0_MAC nh))
    smac := Config.macBase + BitVec.ofNat 48 port
    vlan := if !six && getF s (fSO_TC_VLAN_EN tc) == 1 then some (BitVec.ofNat 3 (getF s (fSO_TC_PCP tc)), BitVec.ofNat 12 (getF s (fSO_TC_VID tc))) else none
    etherType := BitVec.ofNat 16 (if six then 0x86DD else getF s fSO_CFG_ETHERTYPE)
    udp := if six then some
        { src := BitVec.ofNat 128 src
          dst := BitVec.ofNat 128 dst
          dscp := BitVec.ofNat 6 (getF s (fSO_TC_DSCP tc))
          ect := true
          sport := BitVec.ofNat 16 sport
          dport := BitVec.ofNat 16 dport
          checksum := BitVec.ofNat 16 (udpSum src dst sport dport (headerBytes p ++ p.payload)) }
      else none }

/-- A packet leaves on a port (R741); its hub's lanes count header and payload bytes (R683). -/
def sendPacket (s : Dev) (port : Nat) (p : Packet) : Dev :=
  emit (countHub s (portHub port) 0xC4 (32 + p.payload.length)) (.packet port (frameOf s port p) p)

/-- A packet of this module with its constant fields. -/
def newPacket (s : Dev) (op eng m tc : Nat) : Packet :=
  { op := BitVec.ofNat 4 op, ver := 1, res := false, tc := BitVec.ofNat 3 tc, masked := false, poison := false, dt := 0,
    src := BitVec.ofNat 12 (getF s fSO_CFG_MODULE_ID), dst := BitVec.ofNat 12 m, eng := BitVec.ofNat 16 eng, psn := 0, ack := 0, addr := 0,
    len := 0, tag := 0, ce := false, payload := [] }

/-! ## Framing accesses (R743, R744, R751) -/

/-- First and last byte of a line that a mask selects. -/
def maskSpan (m : Nat) : Nat × Nat :=
  let l := bitsOf 512 m
  (l.headD 0, l.getLastD 0)

/-- The whole-packet granule mask of R743: each granule of the span is written whole. -/
def wholeGranules (m : Nat) : Bool :=
  (List.range 8).all (fun i => nField m (64 * i + 63) (64 * i) == 0 || nField m (64 * i + 63) (64 * i) == 2 ^ 64 - 1)

/-- Bytes `[lo, hi]` of a line. -/
def lineSpan (d : LineData) (lo hi : Nat) : List Byte := (List.range (hi + 1 - lo)).map (fun i => byteOf d (lo + i))

/-- R743: the packet of one access. A core's store covers the granules from its first to its last, masked unless every byte of them is
written; an engine's covers its bytes. -/
def framePeer (s : Dev) (eng tc : Nat) (q : PeerReq) : Packet :=
  let p := newPacket s (if q.kind = 0 then 1 else if q.kind = 1 then 4 else 2) eng (peerMod q.pa) tc
  let (lo, hi) := maskSpan q.mask.toNat
  let core := decide (0x400 ≤ eng) && decide (eng < 0x800)
  if q.kind = 0 ∧ core = true then
    let g0 := lo / 64
    let g1 := hi / 64
    let part := nField q.mask.toNat (64 * g1 + 63) (64 * g0)
    let masked := part != 2 ^ (64 * (g1 + 1 - g0)) - 1
    let gs := (List.range (g1 + 1 - g0)).map (fun i => g0 + i)
    let masks := if masked then gs.flatMap (fun g => leBytes 8 (nField q.mask.toNat (64 * g + 63) (64 * g))) else []
    let body := masks ++ gs.flatMap (fun g => lineSpan q.data (64 * g) (64 * g + 63))
    { p with masked := masked, poison := q.poison, addr := BitVec.ofNat 64 (peerOff q.pa + 64 * g0), len := BitVec.ofNat 12 (body.length - 1), payload := body }
  else if q.kind = 2 then
    { p with addr := BitVec.ofNat 64 (peerOff q.pa + lo), len := BitVec.ofNat 12 (hi - lo), tag := BitVec.ofNat 32 q.id }
  else
    { p with poison := q.poison, dt := BitVec.ofNat 3 q.dt, addr := BitVec.ofNat 64 (peerOff q.pa + lo), len := BitVec.ofNat 12 (hi - lo), payload := lineSpan q.data lo hi }

/-- R743: a DMA engine packs following bytes of one aligned 4 KiB block into the packet before. -/
def canPack (a b : Packet) : Bool :=
  a.op == b.op && a.op != 2 && a.poison == b.poison && a.dt == b.dt && !a.masked && !b.masked
    && a.addr.toNat + a.payload.length == b.addr.toNat && a.addr.toNat / 4096 == (b.addr.toNat + b.payload.length - 1) / 4096

/-- Pack a list of framed accesses, oldest first. -/
def packAll (eng : Nat) : List (Packet × List Nat) → List (Packet × List Nat)
  | [] => []
  | x :: t =>
    match packAll eng t with
    | y :: u =>
      if eng < 0x400 ∧ canPack x.1 y.1 = true then
        ({ x.1 with payload := x.1.payload ++ y.1.payload, len := BitVec.ofNat 12 (x.1.payload.length + y.1.payload.length - 1) }, x.2 ++ y.2) :: u
      else x :: y :: u
    | [] => [x]

/-- R746, R748: number a packet in its flow and send it where the flow has a port; false where the flow must wait for a context, for
its window of 65,536 packets, or for the retransmission area. -/
def enqueue (s : Dev) (eng m tc : Nat) (p : Packet) (reqs : List Nat) : Dev × Bool :=
  match takeFlow s eng m tc with
  | (s, false) => (s, false)
  | (s, true) =>
    match s.tandem.tx.find? (isFlow eng m tc) with
    | none => (s, false)
    | some f =>
      if 65536 ≤ f.unacked.length ∨ getF s (fSO_RTX_SIZE_MIB f.hub) * 2 ^ 20 < rtxUsed s f.hub + 32 + p.payload.length then (s, false)
      else
        let p := { p with psn := BitVec.ofNat 32 f.next }
        let q : TxPkt := { pkt := p, reqs := reqs, sent := f.port.isSome, resends := 0, sentAt := s.now }
        let s := modTx s (isFlow eng m tc) (fun f => { f with next := (f.next + 1) % 2 ^ 32, unacked := f.unacked ++ [q], ackAt := if f.unacked.isEmpty then s.now else f.ackAt, waitAt := if f.port.isSome then none else some (f.waitAt.getD s.now) })
        let s := { s with peerOut := updAll (fun r => reqs.contains r.id) (fun r => { r with framed := true }) s.peerOut }
        match f.port with
        | some port => (sendPacket s port p, true)
        | none => (s, true)

/-- The class of a flow: the spec names no source for it. A free value (log 24). -/
def flowClass (eng m : Nat) : Nat := (Config.trafficClass eng m).toNat

/-- Frame and send, in order, the peer accesses of one engine that are in no packet yet. An access that must wait stays, and so do the
later ones of its flow. -/
def launchEng (s : Dev) (eng : Nat) : Dev :=
  let fresh := s.peerOut.filter (fun q => !q.framed && q.eng == some eng)
  let framed := packAll eng (fresh.map (fun q => (framePeer s eng (flowClass eng (peerMod q.pa)) q, [q.id])))
  (framed.foldl (fun (a : Dev × List Nat) x =>
    let m := x.1.dst.toNat
    if a.2.contains m then a
    else
      match enqueue a.1 eng m x.1.tc.toNat x.1 x.2 with
      | (s, true) => (s, a.2)
      | (s, false) => (s, m :: a.2)) (s, [])).1

/-- Every waiting access is tried again. -/
def launchAll (s : Dev) : Dev :=
  ((s.peerOut.filter (fun q => !q.framed)).filterMap (fun q => q.eng)).eraseDups.foldl launchEng s

/-- The accesses to peer windows that a command has just made leave from engine `eng`. -/
def launch (eng : Nat) (s : Dev) : Dev :=
  if s.peerOut.any (fun q => q.eng.isNone) then
    launchAll { s with peerOut := updAll (fun q => q.eng.isNone) (fun q => { q with eng := some eng }) s.peerOut }
  else s

/-- The accesses to peer windows that an engine has just made for a command leave; its reads hold the command's end as its writes do. -/
def launchFor (eng key : Nat) (s : Dev) : Dev :=
  launch eng { s with peerOut := updAll (fun q => q.eng.isNone && q.kind == 2) (fun q => { q with cmd := key }) s.peerOut }

/-- A module's flow has no port that is UP: an access to it waits (R756). -/
def peerWaits (s : Dev) (m : Nat) : Bool := peerUse s m == .flow && (upPorts s m).isEmpty

end Sys2Proof.Machine
end

