-- ==== Sys2Proof/Machine/Memory.lean ====
section
/-! DEFINITION. Sys2Proof/Machine/Memory.lean: the address space (R58 to R63), the tiers with their protection and
adders ("Near and far memory"). -/

namespace Sys2Proof.Machine

open Sys2Proof

/-- The slice tag of a command as records and trace records show it (R646, R688): 0x10 for the manager's Halter channels. -/
def tagByte (t : Nat) : Nat := if 0x20 ≤ t then 0x10 else t

/-! ## Places (R58 to R63) -/

/-- Where a device physical address lies. -/
inductive Place where
  /-- A backed near-tier or far-tier byte. -/
  | tier
  /-- A backed scratchpad-window byte: cluster and offset. -/
  | spad (cl off : Nat)
  /-- A host-window byte: port and host address. -/
  | host (port off : Nat)
  /-- A peer-window byte. -/
  | peer
  /-- Reserved or unbacked (R62). -/
  | bad
deriving DecidableEq, Repr

/-- The far port of a far-tier address. -/
def farPort (pa : Nat) : Nat := (pa - 0x010000000000) / 2 ^ 39

/-- Whether an address lies in the near tier. -/
def isNear (pa : Nat) : Bool := decide (pa < 0x010000000000)

/-- Whether an address lies in a far port's range. -/
def isFar (pa : Nat) : Bool := decide (0x010000000000 ≤ pa) && decide (pa < 0x030000000000)

/-- R58, R60, R61, R62: the place of an address. -/
def placeOf (s : Dev) (pa : Nat) : Place :=
  if pa < 0x010000000000 then .tier
  else if pa < 0x030000000000 then
    let f := farPort pa
    if getF s (fMT_FAR_CAP_STATE f) ≠ 0 ∧ (pa - 0x010000000000) % 2 ^ 39 < getF s (fMT_FAR_CAP_CAP_GIB f) * 2 ^ 30 then .tier else .bad
  else if pa < 0x040000000000 then .bad
  else if pa < 0x040060000000 then
    let d := pa - 0x040000000000
    if d % 0x800000 < 0x600000 then .spad (d / 0x800000) (d % 0x800000) else .bad
  else if pa < 0x080000000000 then .bad
  else if pa < 0x0C0000000000 then .host 0 (pa - 0x080000000000)
  else if pa < 0x100000000000 then .host 1 (pa - 0x0C0000000000)
  else if pa < 2 ^ 48 then .peer
  else .bad

/-- Base of a cluster's scratchpad window (R245). -/
def spadBase (cl : Nat) : Nat := 0x040000000000 + cl * 0x800000

/-- R117: bytes of a scratchpad that are backed. -/
def spadSize : Nat := 0x600000

/-- A compute die has been lost. -/
def dieLost (s : Dev) (d : Nat) : Bool := !(getF s fSU_STATUS_DIES_OK).testBit d

/-- A stack has been lost (R656). -/
def stackLost (s : Dev) (k : Nat) : Bool := !(getF s fMT_STATUS_STACK_OK).testBit k

/-- A far port is DEAD or LATCHED (R368, R396). -/
def farDead (s : Dev) (f : Nat) : Bool :=
  getF s (fMT_FAR_CAP_STATE f) == 2 || getF s (fMT_FAR_CAP_STATE f) == 3

/-- A host window is dead (R368). -/
def hostDead (s : Dev) (p : Nat) : Bool := (getPort s p).dead || !portUp s p

/-! ## Homes (R280 to R283, R312) -/

/-- The line index L of R280 and its 5-bit fold F. -/
def lineL (pa : Nat) : Nat := if isNear pa then nField pa 36 9 else nField pa 38 9
def foldF (l : Nat) : Nat :=
  [0, 5, 10, 15, 20, 25].foldl (fun a i => Nat.xor a (nField l (i + 4) i)) 0

/-- R280: home die, cache slice within the die, and backing address, under policy `pol`
(0 LOCAL, 1 HALF, 2 DEVICE). -/
def homeNominal (pa pol : Nat) : Nat × Nat × Nat :=
  let near := isNear pa
  let d := if near then nField pa 39 37 else 2 * farPort pa
  let o := pa % 2 ^ 37
  let f := foldF (lineL pa)
  let hd :=
    if pol = 0 then d
    else if pol = 1 then 4 * (d / 4) + Nat.xor (d % 4) (nField f 3 2)
    else Nat.xor d (nField f 4 2)
  (hd, f % 4, if near then hd * 2 ^ 37 + o else pa)

/-- R280: the set of a line. -/
def setIdx (pa : Nat) : Nat :=
  let l := lineL pa
  Nat.xor (Nat.xor (nField l 12 2) (nField l 23 13)) (nField l 29 24)

/-- Whether an agent is a member of the coherent domain (R311, R322). -/
def member (s : Dev) (a : Nat) : Bool := (getF s fCD_STATUS_MEMBERS).testBit a

/-- The first member cache slice of a die, starting with region `r` and wrapping. -/
def firstMember (s : Dev) (d r : Nat) : Option Nat :=
  ((List.range 4).map (fun i => 4 * d + (r + i) % 4)).find? (fun a => member s a)

/-- R280, R312: the home agent of a line, or `none` where the line has none. -/
def homeAgent (s : Dev) (pa pol : Nat) : Option Nat :=
  let (hd, r, _) := homeNominal pa pol
  if member s (4 * hd + r) then some (4 * hd + r)
  else
    match firstMember s hd (r + 1) with
    | some a => some a
    | none =>
      if isNear pa then none
      else
        let half := hd / 4
        let own := (List.range 3).map (fun i => 4 * half + (hd % 4 + 1 + i) % 4)
        let other := (List.range 4).map (fun i => 4 * (1 - half) + i)
        (own ++ other).findSome? (fun d => firstMember s d r)

/-- The backing address of a byte (R280). -/
def backingOf (pa pol : Nat) : Nat := (homeNominal pa pol).2.2

/-- R399: the policy the zones give a tier address; `none` for a granule that is DEVICE in one table only. -/
def zonePolicy (s : Dev) (pa : Nat) : Option Nat :=
  if isNear pa then
    let g := nField pa 36 30
    let zn := fld (reg s (offMT_ZONE_N (g / 32))) (2 * (g % 32) + 1) (2 * (g % 32))
    let zo := fld (reg s (offMT_ZONE_O (g / 32))) (2 * (g % 32) + 1) (2 * (g % 32))
    if (zn = 2) = (zo = 2) then some (if nField pa 39 37 < 4 then zn else zo) else none
  else
    let g := (pa - 0x010000000000) % 2 ^ 39 / 2 ^ 34
    some (fld (reg s (offMT_FZONE (farPort pa))) (2 * g + 1) (2 * g))

/-- R378: the stack, pseudo-channel and bank-row of a near-tier backing address. -/
def stackOf (b : Nat) : Nat :=
  let o := b % 2 ^ 37
  2 * nField b 39 37 + ([16, 21, 26, 31, 36].foldl (fun a i => a + (o.testBit i).toNat) 0) % 2

def pseudoChannel (b : Nat) : Nat :=
  let o := b % 2 ^ 37
  let ls := nField o 36 17 * 2 ^ 7 + nField o 15 9
  Nat.xor (Nat.xor (Nat.xor (Nat.xor (nField ls 5 0) (nField ls 11 6)) (nField ls 17 12)) (nField ls 23 18)) (nField ls 26 24)

/-- Bank, row and column of a near-tier backing address (R378). -/
def nearPlace (b : Nat) : Nat × Nat × Nat × Nat × Nat :=
  let o := b % 2 ^ 37
  let ls := nField o 36 17 * 2 ^ 7 + nField o 15 9
  let pl := nField ls 26 6
  (stackOf b, pseudoChannel b, nField pl 3 0, nField pl 20 5, (nField pl 4 4) * 512 + o % 512)

/-- The controller whose adder serves a backing address: near pseudo-channels 0 to 1023, far ports from 2000. -/
def ctlOf (b : Nat) : Nat := if isNear b then 64 * stackOf b + pseudoChannel b else 2000 + farPort b

/-- The bank row of a backing address, as one key (R386): stack, pseudo-channel, bank, row. -/
def rowKey (b : Nat) : Nat :=
  let (st, pc, bk, rw, _) := nearPlace b
  ((st * 64 + pc) * 16 + bk) * 65536 + rw

/-! ## Byte masks and data -/

/-- Expand a mask of `n` bytes to the mask of their bits. -/
def expandMask (n m : Nat) : Nat :=
  (List.range n).foldl (fun a i => if m.testBit i then a + 255 * 2 ^ (8 * i) else a) 0

/-- Replace the masked bytes of a block of `n` bytes. -/
def mergeBytes {w : Nat} (n : Nat) (old new : BitVec w) (mask : Nat) : BitVec w :=
  let m := BitVec.ofNat w (expandMask n mask)
  (old &&& ~~~m) ||| (new &&& m)

/-- The byte mask of a sector mask. -/
def sectorBytes (sv : Nat) : Nat := (List.range 8).foldl (fun a i => if sv.testBit i then a + (2 ^ 64 - 1) * 2 ^ (64 * i) else a) 0

/-- The sectors a byte mask touches. -/
def maskSectors (m : Nat) : Nat :=
  (List.range 8).foldl (fun a i => if nField m (64 * i + 63) (64 * i) ≠ 0 then a + 2 ^ i else a) 0

/-- The sectors a byte mask covers whole. -/
def maskFullSectors (m : Nat) : Nat :=
  (List.range 8).foldl (fun a i => if nField m (64 * i + 63) (64 * i) = 2 ^ 64 - 1 then a + 2 ^ i else a) 0

/-- Sector `i` of a line. -/
def lineSector (d : LineData) (i : Nat) : BitVec 512 := BitVec.ofNat 512 (d.toNat / 2 ^ (512 * i))

/-- Replace sector `i` of a line. -/
def putSector (d : LineData) (i : Nat) (x : BitVec 512) : LineData := putFld d (512 * i + 511) (512 * i) x.toNat

/-- Byte `i` of a line. -/
def lineByte (d : LineData) (i : Nat) : Byte := BitVec.ofNat 8 (d.toNat / 2 ^ (8 * i))

/-- A line holding `bytes` from offset `off`, with its byte mask. -/
def lineOfBytes (off : Nat) (bytes : List Byte) : LineData × Nat :=
  (BitVec.ofNat 4096 (leNat bytes * 2 ^ (8 * off)), (2 ^ bytes.length - 1) * 2 ^ off % 2 ^ 512)

/-- Insert into a rising list without repeats. -/
def insSorted (x : Nat) : List Nat → List Nat
  | [] => [x]
  | y :: t => if x < y then x :: y :: t else if x = y then y :: t else y :: insSorted x t

/-- Remove from a list. -/
def delNat (x : Nat) (l : List Nat) : List Nat := l.filter (fun y => y != x)

/-- Bytes from a table of bytes, as a number, lowest address first; unlisted bytes read as zero
(DESIGN CHOICE for memory nothing has written, log 2). -/
def readNat (t : Tab Byte) (a n : Nat) : Nat := leNat ((List.range n).map (fun i => tabGet (fun _ => 0) t (a + i)))

/-- Write bytes of a number under a mask. -/
def writeNat (t : Tab Byte) (a n v mask : Nat) : Tab Byte :=
  (List.range n).foldl (fun t i => if mask.testBit i then tabSet (fun _ => 0) t (a + i) (BitVec.ofNat 8 (v / 2 ^ (8 * i))) else t) t

/-- The canonical form of memory: in tier and scratchpads, addresses strictly rise and no listed byte is zero, which is what an unlisted byte
reads as (log 2). -/
def Memory.wf (m : MemSys) : Bool := tabWf (fun _ => 0) m.tier && tabWf (fun _ => 0) m.spad

/-! ## Tier errors and retirement (R403 to R406) -/

/-- R405, R406: retire a frame: one DEFERRED record per frame, later events counted; the list keeps 1,024. -/
def retireFrame (s : Dev) (pa cause : Nat) (slice : Nat) (r : ErrRec) : Dev :=
  let fr := pa / 2 ^ 16
  if s.ms.badFrames.contains fr then satF s fMT_RETIRE_CNT_REPEATS 1
  else
    let s := modMs s (fun m => { m with badFrames := insSorted fr m.badFrames })
    let n := getF s fMT_RETIRE_CNT_COUNT
    let s :=
      if n < 1024 then
        let s := setReg s (offMT_RETIRE n) (BitVec.ofNat 64 (2 ^ 63 + fr * 2 ^ 16 + cause))
        setF s fMT_RETIRE_CNT_COUNT (n + 1)
      else satF s fMT_RETIRE_CNT_OVERFLOW 1
    let s := { s with bridle := { s.bridle with repairLog := s.bridle.repairLog ++ [fr] } }
    errRecord s { r with sev := 1, cause := 0x0004, addr := some pa, slice := slice, detail := cause }

/-- The unit of a tier record: the stack controller or the far port. -/
def tierUnit (b : Nat) : ErrRec :=
  if isNear b then { sev := 0, cause := 0, die := stackOf b / 2, unit := 0x07, index := stackOf b }
  else { sev := 0, cause := 0, die := if farPort b < 2 then 8 else 9, unit := 0x08, index := farPort b, hubO := decide (2 ≤ farPort b) }

/-- R402: the backing copy of a frame by the table in force: the first valid entry that covers it. -/
def backingCopy (s : Dev) (pa : Nat) : Option Nat :=
  (s.ms.backTable.find? (fun e => e.1.getLsbD 63 && decide (fld e.1 47 16 ≤ pa / 2 ^ 16)
      && decide (pa / 2 ^ 16 ≤ fld e.1 47 16 + fld e.1 15 0))).map
    (fun e => (fld e.2 47 16 + (pa / 2 ^ 16 - fld e.1 47 16)) * 2 ^ 16 + pa % 2 ^ 16)

/-- R280, R399, R400: the physical address behind a backing address: the home hash under the zone's policy, inverted. -/
def paOf (s : Dev) (b : Nat) : Nat :=
  if isNear b then
    let hd := nField b 39 37
    let o := b % 2 ^ 37
    let f := foldF (nField o 36 9)
    match zonePolicy s b with
    | some 1 => (4 * (hd / 4) + Nat.xor (hd % 4) (nField f 3 2)) * 2 ^ 37 + o
    | some 2 => Nat.xor hd (nField f 4 2) * 2 ^ 37 + o
    | _ => b
  else b

/-- R382, R405: count a correction of a stack, 0 by the controller and 1 on the die; one CORRECTED record per 256 events (R649). -/
def countCe (s : Dev) (b : Nat) (kind : Nat) : Dev :=
  let u := tierUnit b
  let s := if isNear b then satF s (fMT_STACK_CE_COUNT (stackOf b)) 1 else s
  errRecord s { u with sev := 0, cause := 0x0003, detail := kind }

/-! ## Requests to the tiers -/

/-- R576: a die whose stacks an access needs leaves SELF_REFRESH. -/
def wakeStacks (s : Dev) (b : Nat) : Dev :=
  if isNear b && s.pw.sleeping.getLsbD (nField b 39 37) then
    { s with pw := { s.pw with sleeping := putBit s.pw.sleeping (nField b 39 37) false } } else s

/-- A backing address whose port is dead, or whose stack or die is lost. -/
def tierDead (s : Dev) (b : Nat) : Bool :=
  (isFar b && farDead s (farPort b)) || (isNear b && (stackLost s (stackOf b) || dieLost s (nField b 39 37)))

/-- What the tier answers in this step for the line of a physical address, beyond its data. -/
def tierSays (s : Dev) (pa : Nat) : Option CxlResp :=
  match s.ms.resp with
  | some (l, r) => if l = pa / 512 then some r else none
  | none => none

/-- R391, R393: a sector's CXL.mem request leaves on its far port; a DevLoad report in its response sets the port's rate for 10 µs. -/
def cxlRequest (s : Dev) (b : Nat) (write : Bool) (x : BitVec 512) (mask : Nat) (poison : Bool) : Dev :=
  if !isFar b then s
  else
    let s := emit s (.cxl (farPort b) write ((b - 0x010000000000) % 2 ^ 39) x (BitVec.ofNat 64 mask) poison)
    match tierSays s b with
    | some r =>
      if r.load.val < 2 then s
      else modMs s (fun m => { m with devLoad := tabSet (fun _ => 1) m.devLoad (farPort b) (if r.load.val = 2 then 2 else 4) })
    | none => s

/-- R289, R330: remember what a write to a far port replaces, until the port has completed it. -/
def noteFarOut (s : Dev) (b mask : Nat) : Dev :=
  match s.ms.who with
  | none => s
  | some k =>
    if !isFar b then s
    else
      let o : FarOut :=
        { who := k
          line := b / 512
          old := putSector 0 (b % 512 / 64) (BitVec.ofNat 512 (readNat s.ms.tier b 64))
          mask := BitVec.ofNat 512 (mask * 2 ^ (b % 512))
          poison := if s.ms.tierPoison.contains (b / 64) then BitVec.ofNat 8 (2 ^ (b % 512 / 64)) else 0 }
      modMs s (fun m => { m with farOut := m.farOut ++ [o] })

/-- R576, R683: an access that stores to a near tier wakes its stacks and is counted. -/
def tierCount (s : Dev) (b mask : Nat) : Dev :=
  if isNear b then countDie (wakeStacks s b) (nField b 39 37) 0x81 (bitsOf 64 mask).length else s

/-- Store a sector in the tier: data under a mask, with the poison rules of R384. -/
def tierStore (s : Dev) (b : Nat) (x : BitVec 512) (mask : Nat) (poison : Bool) : Dev :=
  if tierDead s b then s
  else
    modMs (noteFarOut (cxlRequest (tierCount s b mask) b true x mask poison) b mask) (fun m =>
      let full := mask == 2 ^ 64 - 1
      { m with
        tier := writeNat m.tier b 64 x.toNat mask,
        tierPoison := if poison then insSorted (b / 64) m.tierPoison
                      else if full then delNat (b / 64) m.tierPoison else m.tierPoison,
        tierErr := if full then tabSet (fun _ => 0) m.tierErr (b / 64) 0 else m.tierErr })

/-- R389: write a buffered sector to the tier before an access to it proceeds. -/
def adderFlush (s : Dev) (b : Nat) : Dev :=
  match s.ms.adders.find? (fun a => a.sector == b / 64) with
  | none => s
  | some a =>
    let s := modMs s (fun m => { m with adders := m.adders.filter (fun x => x.sector != b / 64) })
    tierStore s b a.data (2 ^ 64 - 1) a.poison

/-- R389, R393, R403, R404: the 512-byte line of a backing copy in the far tier, where it is backed, alive and clean. -/
def backingFar (s : Dev) (a : Nat) : Dev × Option LineData :=
  if placeOf s a ≠ .tier ∨ farDead s (farPort a) = true then (s, none)
  else
    let s := (List.range 8).foldl (fun s i => cxlRequest (adderFlush s (a + 64 * i)) (a + 64 * i) false 0 (2 ^ 64 - 1) false) s
    if (List.range 8).any (fun i => s.ms.tierPoison.contains (a / 64 + i)) then (s, none)
    else (s, some (BitVec.ofNat 4096 (readNat s.ms.tier a 512)))

/-- R403, R404: the backing data of the 512-byte line of an address, where a repair can read it. A host window is read without a PASID. -/
def backingRead (s : Dev) (pa : Nat) : Dev × Option LineData :=
  if getF s fMT_CFG_REPAIR_EN = 0 then (s, none)
  else
    match backingCopy s (pa / 512 * 512) with
    | none => (s, none)
    | some a =>
      if isFar a then backingFar s a
      else
        match placeOf s a with
        | .host p h =>
          if hostDead s p then (s, none)
          else (bumpFree (emit s (.hostRead p none h 512)), some (BitVec.ofNat 4096 (leNat ((List.range 512).map (fun i => Config.hostByte s.free p (h + i))))))
        | _ => (s, none)

/-! ## Reads of the tier (R382, R383, R403 to R405) -/

/-- What a read of a sector gives: data, poison, whether it was corrected, and whether it stayed uncorrectable when it was rewritten. -/
structure Decoded where
  data : BitVec 512
  poison : Bool
  fixed : Bool
  hard : Bool
deriving DecidableEq, Repr

/-- R395: a far sector's read: CXL poison in the response poisons it and retires its frame. -/
def farDecode (s : Dev) (pa b slice : Nat) (bad : Bool) : Dev × Decoded :=
  let s := cxlRequest s b false 0 (2 ^ 64 - 1) false
  let x := BitVec.ofNat 512 (readNat s.ms.tier b 64)
  if bad then
    (retireFrame (modMs s (fun m => { m with tierPoison := insSorted (b / 64) m.tierPoison })) pa 1 slice (tierUnit b), { data := x, poison := true, fixed := false, hard := false })
  else (s, { data := x, poison := s.ms.tierPoison.contains (b / 64), fixed := false, hard := false })

/-- R403 to R405: an uncorrectable sector of a stack: its line is rewritten from the backing copy, or the sector is poisoned and its frame
retired. -/
def nearRepair (s : Dev) (pa b slice : Nat) (hard : Bool) : Dev × Decoded :=
  match backingRead s pa with
  | (s, some y) =>
    let s := (List.range 8).foldl (fun s i => tierStore s (b / 512 * 512 + 64 * i) (y.extractLsb' (512 * i) 512) (2 ^ 64 - 1) false) s
    let u := tierUnit b
    (errRecord s { u with sev := 0, cause := 0x0006, addr := some pa, slice := slice, detail := (backingCopy s pa).getD 0 },
      { data := y.extractLsb' (512 * (b % 512 / 64)) 512, poison := false, fixed := false, hard := hard })
  | (s, none) =>
    let y := Config.poisonData s.free
    (retireFrame (bumpFree (tierStore s b y (2 ^ 64 - 1) true)) pa 0 slice (tierUnit b), { data := y, poison := true, fixed := false, hard := hard })

/-- R382, R383: a sector of a stack: the on-die result and the codeword's. -/
def nearDecode (s : Dev) (pa b slice : Nat) (shows : (CxlResp → BitVec 8) → Bool) : Dev × Decoded :=
  let e := tabGet (fun _ => 0) s.ms.tierErr (b / 64)
  let s := if shows CxlResp.onDie then countCe s b 1 else s
  if 2 ≤ e ∨ shows CxlResp.onDieBad = true then nearRepair s pa b slice (shows CxlResp.hard)
  else
    let s := if e = 1 then countCe (modMs s (fun m => { m with tierErr := tabSet (fun _ => 0) m.tierErr (b / 64) 0 })) b 0 else s
    (s, { data := BitVec.ofNat 512 (readNat s.ms.tier b 64), poison := s.ms.tierPoison.contains (b / 64), fixed := e == 1 || shows CxlResp.onDie, hard := false })

/-- R383: read one sector of the tier. `pa` is its physical address, `b` its backing address, `slice` the reader. -/
def tierDecode (s : Dev) (pa b slice : Nat) : Dev × Decoded :=
  let s := adderFlush (wakeStacks s b) b
  let shows (f : CxlResp → BitVec 8) : Bool := match tierSays s pa with
    | some r => (f r).getLsbD (pa % 512 / 64)
    | none => false
  if tierDead s b then (bumpFree s, { data := Config.poisonData s.free, poison := true, fixed := false, hard := false })
  else if isFar b then farDecode s pa b slice (shows CxlResp.poison)
  else nearDecode s pa b slice shows

/-- R378: the other line of a line's row: bits 20 and 13 of the offset flip the column half and keep stack, pseudo-channel, bank and row. -/
def rowMate (b : Nat) : Nat := Nat.xor (b / 512 * 512) (2 ^ 20 + 2 ^ 13)

/-- R386 step 1: read both lines of a row through R383. -/
def readRow (s : Dev) (b : Nat) : Dev :=
  [b / 512 * 512, rowMate b].foldl (fun s l => (List.range 8).foldl (fun s i => (tierDecode s (paOf s (l + 64 * i)) (l + 64 * i) 0xFF).1) s)
    (modMs s (fun m => { m with resp := none }))

/-- R386, R387, R405: soft post-package repair of a row, or retirement of its two frames when no spare row is left. -/
def softPpr (s : Dev) (pa b slice : Nat) : Dev :=
  let k := rowKey b
  let st := stackOf b
  let bank := k / 65536
  if getF s fMT_CFG_SPPR_EN = 0 then s
  else
    let s := readRow s b
    if 2 ≤ tabGet (fun _ => 0) s.ms.rowSpare bank then
      retireFrame (retireFrame s pa 2 slice (tierUnit b)) (paOf s (rowMate b)) 2 slice (tierUnit b)
    else
      let s := modMs s (fun m => { m with rowSpare := tabMod (fun _ => 0) m.rowSpare bank (fun n => n + 1),
                                          rowFix := tabSet (fun _ => 0) m.rowFix k 0 })
      let spares := getF s (fMT_STACK_SPARES st) - 1
      let s := setF s (fMT_STACK_SPARES st) spares
      let s := satF s (fMT_STACK_SOFT_PPR st) 1
      let s := { s with bridle := { s.bridle with repairLog := s.bridle.repairLog ++ [2 ^ 40 + k] } }
      let u := tierUnit b
      let s := errRecord s { u with sev := 0, cause := 0x0005, addr := some pa, detail := pseudoChannel b + 2 ^ 8 * (bank % 16) + 2 ^ 16 * (k % 65536) + 2 ^ 32 * spares }
      if spares = 0 then
        let s := noteReplace s 8
        errRecord s { u with sev := 0, cause := 0x0064, replace := true, detail := st }
      else s

/-- R385, R386: the scrub period in progress. Periods are counted from model time 0 (DESIGN CHOICE, log 81). -/
def scrubNow (s : Dev) : Nat := s.now / (getF s fMT_CFG_SCRUB_H * 3600000000000)

/-- R386: one more correction in a row; the third within a scrub period makes the row hard-faulty. -/
def countRowFix (s : Dev) (pa b slice : Nat) : Dev :=
  let k := rowKey b
  let s := if s.ms.scrubPeriod = scrubNow s then s else modMs s (fun m => { m with rowFix := [], scrubPeriod := scrubNow s })
  let n := tabGet (fun _ => 0) s.ms.rowFix k + 1
  let s := modMs s (fun m => { m with rowFix := tabSet (fun _ => 0) m.rowFix k n })
  if 3 ≤ n then softPpr s pa b slice else s

/-- R383, R386, R403 to R405: read one sector of the tier, with its poison, and repair its row where it is hard-faulty. -/
def tierRead (s : Dev) (pa b slice : Nat) : Dev × BitVec 512 × Bool :=
  let (s, d) := tierDecode (if isNear b then countDie s (nField b 39 37) 0x80 64 else s) pa b slice
  (if d.hard then softPpr s pa b slice else if d.fixed then countRowFix s pa b slice else s, d.data, d.poison)

/-- A masked sector write to the tier (R379, R384); a partial write decodes the sector first. -/
def tierWrite (s : Dev) (pa b : Nat) (x : BitVec 512) (mask : Nat) (poison : Bool) (slice : Nat) : Dev :=
  if mask = 0 then s
  else
    let s := adderFlush s b
    let s := if mask = 2 ^ 64 - 1 ∨ isFar b = true then s else (tierRead s pa b slice).1
    tierStore s b x mask poison

end Sys2Proof.Machine
end

