-- ==== Sys2Proof/Machine/Coherent.lean ====
section
/-! DEFINITION. Sys2Proof/Machine/Coherent.lean: the coherent domain ("The unified cache"): copies and the directory, reads (R286, R291,
R299, R300), writes (R286, R289, R290), and read-modify-writes with their placement (R301 to R304). -/

namespace Sys2Proof.Machine

open Sys2Proof

/-! ## Lines of the coherent domain -/

/-- A copy of a line held by an agent, a DEAD tag included. -/
def findLine (s : Dev) (agent line : Nat) : Option CacheLine :=
  s.ms.lines.find? (fun l => l.agent == agent && l.line == line)

/-- A live copy. -/
def liveLine (s : Dev) (agent line : Nat) : Option CacheLine :=
  match findLine s agent line with
  | some l => if l.st = .dead then none else some l
  | none => none

/-- Store a copy, replacing the agent's copy of the line. -/
def putLine (s : Dev) (l : CacheLine) : Dev :=
  modMs s (fun m => { m with lines := (m.lines.filter (fun x => !(x.agent == l.agent && x.line == l.line))) ++ [l] })

/-- Drop an agent's copy of a line. -/
def dropLine (s : Dev) (agent line : Nat) : Dev :=
  modMs s (fun m => { m with lines := m.lines.filter (fun x => !(x.agent == agent && x.line == line)) })

/-- A fresh age stamp. -/
def bumpStamp (s : Dev) : Dev := modMs s (fun m => { m with stamp := m.stamp + 1 })

/-- R310: note that a home first holds a dirty byte of a frame of its die; `backing` is the line number behind the home's line. -/
def markDirty (s : Dev) (home backing : Nat) : Dev :=
  if isNear (backing * 512) then
    modMs s (fun m => { m with dirtyMap := insSorted (home * 2 ^ 21 + backing * 512 % 2 ^ 37 / 2 ^ 16) m.dirtyMap })
  else s

/-- R277, R289: write back the dirty bytes of a home line, sector by sector, with its poison bits. -/
def writeBack (s : Dev) (l : CacheLine) : Dev :=
  (List.range 8).foldl (fun s i =>
    let m := nField l.dm.toNat (64 * i + 63) (64 * i)
    if m = 0 then s
    else tierWrite s (l.line * 512 + 64 * i) (l.backing * 512 + 64 * i) (lineSector l.data i) m (l.ps.getLsbD i) 0xFF) s

/-- R289, R310: the home takes bytes newer than the tier: a near-tier line's frame is noted dirty, and a far-tier line is written through. -/
def homeTakes (s : Dev) (h : CacheLine) : Dev :=
  if h.dm = 0 then putLine s h
  else if isFar (h.line * 512) then putLine (writeBack s h) { h with dm := 0 }
  else putLine (markDirty s h.agent h.backing) h

/-- Merge a copy into the home's: sectors the home lacks, and dirty bytes, with their poison. -/
def mergeCopy (h l : CacheLine) : CacheLine :=
  let lacks := l.sv &&& ~~~h.sv
  let sec := maskSectors l.dm.toNat
  let full := maskFullSectors l.dm.toNat
  let ps := (h.ps &&& ~~~lacks) ||| (l.ps &&& lacks)
  { h with data := mergeBytes 512 (mergeBytes 512 h.data l.data (sectorBytes lacks.toNat)) l.data l.dm.toNat, sv := h.sv ||| l.sv,
           dm := h.dm ||| l.dm, ps := BitVec.ofNat 8 (Nat.lor (Nat.land ps.toNat (255 - full)) (Nat.land l.ps.toNat sec)) }

/-- The home holds the data itself, with `x` among the holders of an S copy. -/
def toHv (h : CacheLine) (x : Nat) : CacheLine := { h with st := .hv, owner := 0x3F, sharers := h.sharers ||| BitVec.ofNat 36 (2 ^ x) }

/-- R286, R287: bring the owner's newest bytes to the home, which becomes HV; the owner keeps an S copy. -/
def recallOwner (s : Dev) (home line : Nat) : Dev :=
  match liveLine s home line with
  | none => s
  | some h =>
    if h.st ≠ .hx then s
    else
      match liveLine s h.owner line with
      | none => putLine s { h with st := .hv, owner := 0x3F }
      | some o =>
        let s := sendVia s [agentDie home, agentDie h.owner, agentDie home]
        putLine (homeTakes s (toHv (mergeCopy h o) h.owner)) { o with st := .s, dm := 0 }

/-- Invalidate every copy of a line but the home's and `keep`'s; the directory is exact (R287). -/
def invalCopies (s : Dev) (home line : Nat) (keep : Option Nat) : Dev :=
  let goes (l : CacheLine) : Bool := l.line == line && l.agent != home && some l.agent != keep
  let s := (s.ms.lines.filter goes).foldl (fun s l => sendVia s [agentDie home, agentDie l.agent, agentDie home]) s
  let s := modMs s (fun m => { m with lines := m.lines.filter (fun l => !goes l) })
  match findLine s home line with
  | none => s
  | some h =>
    let sh := match keep with
      | some k => if h.sharers.getLsbD k then BitVec.ofNat 36 (2 ^ k) else 0
      | none => 0
    putLine s { h with sharers := sh }

/-- R287: evict a copy: a home recalls its owner, invalidates every copy and writes back; a guest returns its dirty
bytes or notifies the home. -/
def evict (s : Dev) (l : CacheLine) : Dev :=
  if l.home then
    let s := invalCopies (recallOwner s l.agent l.line) l.agent l.line none
    let s := match liveLine s l.agent l.line with
      | some h => writeBack s h
      | none => s
    dropLine s l.agent l.line
  else
    let homes := s.ms.lines.find? (fun h => h.line == l.line && h.home)
    let s := dropLine s l.agent l.line
    match homes with
    | none => s
    | some h =>
      let s := sendOn s (agentDie l.agent) (agentDie h.agent)
      let h := if h.owner = l.agent then { mergeCopy h l with st := .hv, owner := 0x3F } else h
      homeTakes s { h with sharers := h.sharers &&& ~~~(BitVec.ofNat 36 (2 ^ l.agent)) }

/-- Ways and the set of a line in an agent: 2,048 sets of 32 ways in a cache slice, 64 sets of 8 in a sequencer cache
(R271, R281). -/
def waysOf (agent : Nat) : Nat := if agent < 32 then 32 else 8
def setOf (agent line : Nat) : Nat := if agent < 32 then setIdx (line * 512) else setIdx (line * 512) % 64

/-- The entries of a line's set in an agent. -/
def setLines (s : Dev) (agent line : Nat) : List CacheLine :=
  s.ms.lines.filter (fun l => l.agent == agent && setOf agent l.line == setOf agent line)

/-- The least recently used of a list of entries. -/
def lruOf (l : List CacheLine) : Option CacheLine :=
  match l with
  | [] => none
  | x :: t => some (t.foldl (fun a b => if b.used < a.used then b else a) x)

/-- R294: the candidate taken when a set needs a way; pinned ways are never taken. -/
def victim (ls : List CacheLine) : Option CacheLine :=
  let ok := ls.filter (fun l => l.pin == 0)
  match lruOf (ok.filter (fun l => l.st == .dead)) with
  | some x => some x
  | none =>
    let live := ok.filter (fun l => l.st != .dead)
    match lruOf (live.filter (fun l => l.ret == 2)) with
    | some x => some x
    | none =>
      match lruOf (live.filter (fun l => l.ret == 0)) with
      | some x => some x
      | none => lruOf (live.filter (fun l => l.ret == 1))

/-- A set with 8 pinned ways (R295). -/
def fullyPinned (s : Dev) (agent line : Nat) : Bool :=
  decide (8 ≤ ((setLines s agent line).filter (fun l => l.pin != 0)).length)

/-- Make room for a home line (R294, R295); false when the set is fully pinned. -/
def roomHome (s : Dev) (agent line : Nat) : Dev × Bool :=
  if fullyPinned s agent line then (s, false)
  else
    let ls := setLines s agent line
    if ls.length < waysOf agent then (s, true)
    else
      match victim ls with
      | some v => (if v.st = .dead then dropLine s v.agent v.line else evict s v, true)
      | none => (s, false)

/-- R288: make room for a guest: at most GUEST_WAYS guest ways of a set; a sequencer cache has no such limit. -/
def roomGuest (s : Dev) (agent line : Nat) : Dev × Bool :=
  let ls := setLines s agent line
  let gs := ls.filter (fun l => !l.home)
  let lim := if agent < 32 then getF s fCD_CFG_GUEST_WAYS else 8
  if lim = 0 then (s, false)
  else if lim ≤ gs.length then
    match lruOf gs with
    | some v => (evict s v, true)
    | none => (s, false)
  else if ls.length < waysOf agent then (s, true)
  else
    match victim ls with
    | some v => (if v.st = .dead then dropLine s v.agent v.line else evict s v, true)
    | none => (s, false)

/-- R288: may agent `x` hold a guest of a line of `home`. -/
def mayGuest (s : Dev) (x home : Nat) (attr : PageAttr) : Bool :=
  x != home && attr.cache == 0 &&
    (decide (32 ≤ x) || (getF s fCD_CFG_GUEST_MODE == 2) || (getF s fCD_CFG_GUEST_MODE == 1 && x / 4 != home / 4))

/-- R314: a substitute home takes up a line at the first access to it since its home was lost: the line is poisoned when the dead slice's
dirty-frame map has the frame's bit set. -/
def takeUp (s : Dev) (pa pol home : Nat) : Dev :=
  let (hd, r, b) := homeNominal pa pol
  let nom := 4 * hd + r
  if nom = home ∨ isNear pa = false ∨ s.ms.taken.contains (pa / 512) = true ∨ s.ms.dirtyMap.contains (nom * 2 ^ 21 + b % 2 ^ 37 / 2 ^ 16) = false then s
  else
    (List.range 8).foldl (fun s i => bumpFree (tierStore (adderFlush s (b / 512 * 512 + 64 * i)) (b / 512 * 512 + 64 * i) (Config.poisonData s.free) (2 ^ 64 - 1) true))
      (modMs s (fun m => { m with taken := insSorted (pa / 512) m.taken }))

/-! ## What a home refuses with retry -/

/-- A coherent request is refused with retry: the command of the step waits (log 8). -/
def refuseRetry (s : Dev) : Dev := modMs s (fun m => { m with blocked := true })

/-- R303: an operation sent to an adder for a line is still to be applied. -/
def adderPending (s : Dev) (line : Nat) : Bool := s.ms.adderQ.any (fun q => q.line == line)

/-- R527: an access to a frame of a queued or running page-groom request waits. -/
def pgHeld (s : Dev) (pa : Nat) : Bool :=
  s.pgq.any (fun q => decide (q.1 ≤ pa / 2 ^ 16) && decide (pa / 2 ^ 16 < q.1 + q.2))

/-- R303, R306, R313, R527: every request to a line waits: a domain drop is in progress, its frame is to be groomed, operations have been
sent to an adder for the line, or the home holds a range operation or a mark there. -/
def lineShut (s : Dev) (home line : Nat) : Bool :=
  getF s fCD_STATUS_DROP_ACTIVE == 1 || pgHeld s (line * 512) || adderPending s line || s.ms.heldOps.any (fun q => q.home == home && q.line == line)

/-- R303: a request that must follow the operations queued on a line waits. A write does not: a fill takes every write that came before it
(R292). -/
def lineBusy (s : Dev) (home line : Nat) : Bool := lineShut s home line || s.ms.redQ.any (fun q => q.home == home && q.line == line)

/-! ## Dirty logging (R548 to R551): staged page numbers -/

/-- R550: the hub whose event SRAM stages a bit of a bitmap (0 port A, 1 port B, 2 frames; near-tier frames by their die, far ones by their
port). -/
def dlogHub (kind page : Nat) : Nat :=
  if kind < 2 then kind
  else
    let pa := page * 2 ^ 16
    if isFar pa then farPort pa / 2 else nField pa 39 37 / 4

/-- R550: a bit of a bitmap is staged. Where that needs a new entry and staging is full, the write waits; its bit is not lost. -/
def stageBit (s : Dev) (n kind page : Nat) : Dev :=
  if s.dlog.contains (n, kind, page) then s
  else
    let word (e : Nat × Nat × Nat) : Nat × Nat × Nat := (e.1, e.2.1, e.2.2 / 64)
    let used := ((s.dlog.filter (fun e => dlogHub e.2.1 e.2.2 == dlogHub kind page)).map word).eraseDups
    let full := !used.contains (n, kind, page / 64) && decide (Config.stagingWords ≤ used.length)
    let s := { s with dlog := s.dlog ++ [(n, kind, page)] }
    if full then refuseRetry s else s

/-- R548: a device write to a host window page, or a write to a frame, of a slice that logs it: stage its bitmap bit. -/
def dlogStage (s : Dev) (tag : Nat) (place : Place) (pa : Nat) : Dev :=
  if 16 ≤ tag then s
  else
    match place with
    | .host 0 h =>
      if getF s (fSLC_DLOG_CTL_EN_A tag) = 1 then
        if h / 2 ^ 30 < getF s (fSLC_DLOG_LIM_LIM_A tag) then stageBit s tag 0 (h / 4096) else setF s (fSLC_DLOG_CTL_OVF_A tag) 1
      else s
    | .host _ h =>
      if getF s (fSLC_DLOG_CTL_EN_B tag) = 1 then
        if h / 2 ^ 30 < getF s (fSLC_DLOG_LIM_LIM_B tag) then stageBit s tag 1 (h / 4096) else setF s (fSLC_DLOG_CTL_OVF_B tag) 1
      else s
    | .tier => if getF s (fSLC_DLOG_CTL_EN_D tag) = 1 ∧ pa / 2 ^ 16 < 50331648 then stageBit s tag 2 (pa / 2 ^ 16) else s
    | _ => s

/-- R291: no entry of a home's miss table is free, and none is open for the line. -/
def missFull (s : Dev) (home line : Nat) : Bool :=
  decide (256 ≤ (s.ms.misses.filter (fun m => m.slice == home)).length) && !s.ms.misses.any (fun m => m.slice == home && m.line == line)

/-- R305: sector operations queued at the reduction unit of a home. -/
def redLoad (s : Dev) (home : Nat) : Nat := (s.ms.redQ.filter (fun q => q.home == home)).foldl (fun a q => a + q.n) 0

/-- R301: set PIN of a home line. -/
def setPin (s : Dev) (home line v : Nat) : Dev :=
  match findLine s home line with
  | some h => putLine s { h with pin := v }
  | none => s

/-- A fresh home entry with no data. -/
def newHome (home pa pol tag ret stamp : Nat) : CacheLine :=
  { agent := home, line := pa / 512, backing := backingOf pa pol / 512, home := true, st := .hv, sv := 0, dm := 0, ps := 0,
    tag := tag, ret := ret, sharers := 0, owner := 0x3F, pin := 0, used := stamp, written := stamp, data := 0 }

/-- R277, R291: fetch the wanted sectors of a line that are not in SV, for a reader; bytes set in DM keep their value. -/
def fillLine (s : Dev) (h : CacheLine) (want : BitVec 8) (slice : Nat) : Dev × CacheLine :=
  (List.range 8).foldl (fun (acc : Dev × CacheLine) i =>
    let (s, h) := acc
    if h.sv.getLsbD i || !want.getLsbD i then (s, h)
    else
      let (s, x, p) := tierRead s (h.line * 512 + 64 * i) (h.backing * 512 + 64 * i) slice
      let dmask := nField h.dm.toNat (64 * i + 63) (64 * i)
      let merged := mergeBytes 64 x (lineSector h.data i) dmask
      (s, { h with data := putSector h.data i merged, sv := h.sv ||| BitVec.ofNat 8 (2 ^ i),
                   ps := putBit h.ps i (h.ps.getLsbD i || (p && dmask != 2 ^ 64 - 1)) })) (s, h)

/-- The result of a coherent read: line data, sector poison, and the failing status if the access is refused. -/
structure RdRes where
  data : LineData
  poison : BitVec 8
  err : Option Nat
deriving DecidableEq, Repr

/-- Nothing read: the answer to a request that is refused with retry, or to a read that returns no data. -/
def RdRes.nil : RdRes := { data := 0, poison := 0, err := none }

/-- What a coherent read is: a demand read, a PREFETCH, or an element of a GATHER, which fetches its one sector (R291). -/
inductive RdKind where
  | demand | prefetch | gather
deriving DecidableEq, Repr

/-- R276: what the tags of a request and of the line at the home say: 0 proceed, 1 retag a manager's line, 2 refuse. -/
def tagCheck (tag lineTag : Nat) (write : Bool) : Nat :=
  if tag = 0x10 then 0
  else if lineTag = tag then 0
  else if lineTag = 0x11 ∧ write = false then 0
  else if lineTag = 0x10 then 1
  else 2

/-- R275: the tag a line takes from its page. -/
def pageTag (tag : Nat) (attr : PageAttr) : Nat := if tag = 0x10 then 0x10 else if attr.sharedRO then 0x11 else attr.owner

/-- R276: give a manager's line the tag of the request's page, after recalling its owner and dropping other copies. -/
def retag (s : Dev) (home line newTag : Nat) : Dev :=
  let s := invalCopies (recallOwner s home line) home line none
  match findLine s home line with
  | some h => putLine s { h with tag := newTag }
  | none => s

/-- R300: a re-read of a DEAD-tagged line by the slice of its tag: counted, and with DEAD_TRAP it fails the command. -/
def deadReread (s : Dev) (tag lineTag : Nat) : Dev × Option Nat :=
  if tag = lineTag ∧ tag < 16 then
    let s := satF s (fCD_DEADRR_COUNT tag) 1
    (s, if getF s (fCD_SLICE_CFG_DEAD_TRAP tag) = 1 then some 0x0D else none)
  else (s, none)

/-- Sectors of a line read straight from the tier, allocating nothing (R278, R300). -/
def narrowRead (s : Dev) (pa b slice : Nat) (sectors : BitVec 8) : Dev × LineData × BitVec 8 :=
  (List.range 8).foldl (fun (acc : Dev × LineData × BitVec 8) i =>
    let (s, d, p) := acc
    if sectors.getLsbD i then
      let (s, x, q) := tierRead s (pa / 512 * 512 + 64 * i) (b / 512 * 512 + 64 * i) slice
      (s, putSector d i x, putBit p i q)
    else (s, d, p)) (s, 0, 0)

/-- Any reservation held on a sector of the line (R286). -/
def lineReserved (s : Dev) (line : Nat) : Bool := s.ms.resv.any (fun r => r.sector / 8 == line && decide (r.home < 36))

/-- R286: place a copy in the requester's cache: E when no other copy exists, DM is clear and no reservation is held on
the line; else S. A grant of E is logged as a write is (R548). -/
def grantGuest (s : Dev) (x : Nat) (h : CacheLine) (attr : PageAttr) : Dev :=
  if !mayGuest s x h.agent attr || fullyPinned s x h.line then s
  else
    let (s, ok) := roomGuest s x h.line
    if !ok then s
    else
      match findLine s h.agent h.line with
      | none => s
      | some h =>
        let ex := h.st == .hv && h.sharers == 0 && h.dm == 0 && !lineReserved s h.line
        let s := bumpStamp (if ex then dlogStage s h.tag .tier (h.line * 512) else s)
        let g : CacheLine := { h with agent := x, home := false, st := if ex then .e else .s, dm := 0, sharers := 0,
                                      owner := 0x3F, pin := 0, ret := 0, used := s.ms.stamp, written := 0 }
        let s := putLine s (if ex then { h with st := .hx, owner := x } else { h with sharers := h.sharers ||| BitVec.ofNat 36 (2 ^ x) })
        putLine s g

/-- R286: a requester takes an S copy of the data of an owner in O. -/
def grantShared (s : Dev) (x home : Nat) (src : CacheLine) (attr : PageAttr) : Dev :=
  if !mayGuest s x home attr then s
  else
    let (s, ok) := roomGuest s x src.line
    match ok, findLine s home src.line with
    | true, some h =>
      putLine (putLine s { h with sharers := h.sharers ||| BitVec.ofNat 36 (2 ^ x) })
        { src with agent := x, home := false, st := .s, dm := 0, sharers := 0, owner := 0x3F, used := s.ms.stamp, written := 0 }
    | _, _ => s

/-! ## Coherent reads -/

/-- R300: a read of a line whose DEAD tag stands. -/
def readDead (s : Dev) (tag pa b : Nat) (h : CacheLine) (sectors : BitVec 8) (kind : RdKind) : Dev × RdRes :=
  if kind = .prefetch then (s, RdRes.nil)
  else
    let (s, trap) := deadReread s tag h.tag
    let (s, d, p) := narrowRead s pa b (tagByte tag) sectors
    (s, { data := d, poison := p, err := trap })

/-- R286: the read is forwarded to an owner in HX: M becomes O; E becomes S and the home HV. -/
def forwardRead (s : Dev) (home line : Nat) : Dev :=
  match findLine s home line with
  | none => s
  | some h =>
    if h.st ≠ .hx then s
    else
      match liveLine s h.owner line with
      | some o => if o.st = .e then putLine (putLine (sendOn s (agentDie o.agent) (agentDie home)) (toHv (mergeCopy h o) h.owner)) { o with st := .s } else putLine s { o with st := .o }
      | none => putLine s { h with st := .hv, owner := 0x3F }

/-- The copy that answers a read at the home: the owner's where an owner in O remains, else the home's. -/
def readSource (s : Dev) (h : CacheLine) : CacheLine := if h.st = .hx then (liveLine s h.owner h.line).getD h else h

/-- The copy the entry point holds, where it is not the home. -/
def ownCopy (s : Dev) (x : Option Nat) (home line : Nat) : Option CacheLine :=
  match x with
  | some a => if a = home then none else liveLine s a line
  | none => none

/-- R683: a request is served: the home's die counts it, and so does the region at whose cache slice it entered: by whom it was served,
and whether it missed. `need` is the sectors it reads. -/
def countServed (s : Dev) (x : Option Nat) (home line : Nat) (need : BitVec 8) : Dev :=
  let s := countDie s (home / 4) 0x85 1
  match x with
  | none => s
  | some r =>
    if 32 ≤ r then s
    else
      let own := (ownCopy s x home line).any (fun g => need &&& ~~~g.sv == 0)
      let s := countRegion (countRegion s r 0x40 1) r (if r == home || own then 0x41 else 0x42) 1
      let miss := match liveLine s home line with
        | some h => h.st == .hv && need &&& ~~~h.sv != 0
        | none => true
      if miss && !own then countRegion s r (if isFar (512 * line) then 0x44 else 0x43) 1 else s

/-- R286: the messages of a read that a home serves: an owner in HX sends the data to the entry point itself. -/
def readTraffic (s : Dev) (x : Option Nat) (home line : Nat) : Dev :=
  match x, findLine s home line with
  | some a, some h => if h.st = .hx then sendVia s [agentDie a, agentDie home, agentDie h.owner, agentDie a] else askDie s x (agentDie home)
  | _, _ => askDie s x (agentDie home)

/-- R286, R291: a read served by the home, or by the owner it names. -/
def readAtHome (s : Dev) (x : Option Nat) (tag : Nat) (attr : PageAttr) (sectors : BitVec 8) (kind : RdKind) (home line : Nat) : Dev × RdRes :=
  let s := forwardRead (readTraffic s x home line) home line
  match findLine s home line with
  | none => (s, RdRes.nil)
  | some h =>
    let src := readSource s h
    if src.sv &&& sectors ≠ sectors ∧ missFull s home line = true then (refuseRetry s, RdRes.nil)
    else
      let (s, src) := if src.sv &&& sectors == sectors then (s, src) else fillLine s src (if kind = .gather then sectors else 255) (tagByte tag)
      let s := bumpStamp s
      let s := putLine s (if src.home then { src with used := s.ms.stamp } else src)
      let s := match x with
        | some a => if a = home then s else if h.st = .hx then grantShared s a home src attr else grantGuest s a src attr
        | none => s
      (s, { data := src.data, poison := src.ps, err := none })

/-- R276, R286: a read of a line that the home holds. -/
def readPresent (s : Dev) (x : Option Nat) (tag pa : Nat) (attr : PageAttr) (sectors : BitVec 8) (kind : RdKind) (home : Nat) (h : CacheLine) : Dev × RdRes :=
  let line := pa / 512
  let c := tagCheck tag h.tag false
  if c = 2 then (s, { RdRes.nil with err := some 0x02 })
  else
    let s := if c = 1 then retag s home line (pageTag tag attr) else s
    match ownCopy s x home line with
    | some g =>
      if g.sv &&& sectors = sectors then
        let s := bumpStamp s
        (putLine s { g with used := s.ms.stamp }, { data := g.data, poison := g.ps, err := none })
      else readAtHome s x tag attr sectors kind home line
    | none => readAtHome s x tag attr sectors kind home line

/-- R259, R278, R291, R295: a read of a line that the home does not hold. -/
def readAbsent (s : Dev) (x : Option Nat) (tag pa : Nat) (attr : PageAttr) (sectors : BitVec 8) (kind : RdKind) (home : Nat) : Dev × RdRes :=
  let s := askDie s x (agentDie home)
  if attr.cache = 2 ∨ attr.cache = 3 ∨ kind = .gather then
    let (s, d, p) := narrowRead s pa (backingOf pa attr.home) (tagByte tag) sectors
    (s, { data := d, poison := p, err := none })
  else if missFull s home (pa / 512) then (refuseRetry s, RdRes.nil)
  else
    let (s, ok) := roomHome s home (pa / 512)
    let s := bumpStamp s
    let (s, h) := fillLine s (newHome home pa attr.home (pageTag tag attr) (if attr.cache = 1 then 2 else 0) s.ms.stamp) 255 (tagByte tag)
    if !ok then (s, { data := h.data, poison := h.ps, err := none })
    else
      let s := putLine s h
      let s := match x with
        | some a => if a = home then s else grantGuest s a h attr
        | none => s
      (s, { data := h.data, poison := h.ps, err := none })

/-- A coherent read of sectors of a tier line by a request of tag `tag` that enters at agent `x` (`none`: at the home)
(R285, R286, R291, R299, R300, R312, R314). The fill of a miss is part of the read. -/
def cohRead (s : Dev) (x : Option Nat) (tag pa : Nat) (attr : PageAttr) (sectors : BitVec 8) (kind : RdKind) : Dev × RdRes :=
  match homeAgent s pa attr.home with
  | none => (bumpFree s, { data := BitVec.ofNat 4096 (Config.poisonData s.free).toNat, poison := sectors, err := none })
  | some home =>
    if lineBusy s home (pa / 512) then (refuseRetry s, RdRes.nil)
    else
      let s := takeUp (countServed s x home (pa / 512) sectors) pa attr.home home
      match findLine s home (pa / 512) with
      | some h => if h.st = .dead then readDead s tag pa (backingOf pa attr.home) h sectors kind else readPresent s x tag pa attr sectors kind home h
      | none => readAbsent s x tag pa attr sectors kind home

/-! ## Reservations (R183 to R185, R365) -/

/-- A thread: core, group slot, lane. -/
abbrev Thread := Nat × Nat × Nat

/-- Who writes each sector of a line, by sector index: `none` for a writer that is no thread, or several. -/
abbrev Writer := Nat → Option Thread

/-- A write by no thread. -/
def noThread : Writer := fun _ => none

/-- A write to sectors clears the reservations of every thread but the writer's own store or atomic (R365). -/
def clearResv (s : Dev) (sectors : List Nat) (except : Writer) : Dev :=
  modMs s (fun m => { m with resv := m.resv.filter (fun r =>
    !(sectors.contains r.sector && some (r.core, r.slot, r.lane) != except (r.sector % 8))) })

/-- The sectors (address / 64) of a line that a byte mask touches. -/
def sectorsOf (line mask : Nat) : List Nat :=
  ((List.range 8).filter (fun i => nField mask (64 * i + 63) (64 * i) != 0)).map (fun i => line * 8 + i)

/-! ## Coherent writes (R286, R289, R290) -/

/-- Apply masked bytes and poison to a copy (R247, R277, R315). -/
def applyBytes (l : CacheLine) (d : LineData) (mask : Nat) (poison : BitVec 8) (stamp : Nat) : CacheLine :=
  let full := maskFullSectors mask
  let sec := maskSectors mask
  { l with data := mergeBytes 512 l.data d mask, dm := l.dm ||| BitVec.ofNat 512 mask, used := stamp, written := stamp,
           ps := BitVec.ofNat 8 (Nat.lor (Nat.land l.ps.toNat (255 - full)) (Nat.land poison.toNat sec)) }

/-- R290: a dirty guest is written back to its home: M becomes E and O becomes S. -/
def cleanGuest (s : Dev) (v : CacheLine) : Dev :=
  match s.ms.lines.find? (fun h => h.line == v.line && h.home) with
  | none => s
  | some h =>
    let h1 := mergeCopy h v
    let s := homeTakes (sendOn s (agentDie v.agent) (agentDie h.agent)) (if v.st = .m then h1 else toHv h1 v.agent)
    putLine s { v with dm := 0, st := if v.st = .m then .e else .s }

/-- R290: room for one more dirty guest in a cache slice, its least recently written one written back where DGUEST_MAX is reached. False
where DGUEST_MAX is 0, which admits none (DEDUCED, log 82). A sequencer cache has no such limit. -/
def dguestRoom (s : Dev) (x : Nat) : Dev × Bool :=
  let ds := s.ms.lines.filter (fun l => l.agent == x && !l.home && (l.st == .m || l.st == .o))
  if 32 ≤ x ∨ ds.length < getF s fCD_CFG_DGUEST_MAX then (s, true)
  else
    match ds with
    | [] => (s, false)
    | y :: t => (cleanGuest s (t.foldl (fun a b => if b.written < a.written then b else a) y), decide (0 < getF s fCD_CFG_DGUEST_MAX))

/-- The result of a write: the failing status if refused, and whether the write was dropped at a dead destination. -/
structure WrRes where
  err : Option Nat
  lost : Bool
  /-- The address that failed, of a run by virtual address. -/
  bad : Nat := 0
deriving DecidableEq, Repr

/-- A write applied. -/
def WrRes.ok : WrRes := { err := none, lost := false }

/-- A write dropped at a dead destination. -/
def WrRes.gone : WrRes := { err := none, lost := true }

/-- R286: a write applied in the home; the entry point keeps its S copy, which takes the same bytes. -/
def writeAtHome (s : Dev) (x : Option Nat) (home line : Nat) (d : LineData) (mask : Nat) (poison : BitVec 8) : Dev :=
  let s := bumpStamp (invalCopies (recallOwner (askDie s x (agentDie home)) home line) home line x)
  let s := match findLine s home line with
    | some h => homeTakes s (applyBytes h d mask poison s.ms.stamp)
    | none => s
  match ownCopy s x home line with
  | some g => putLine s { applyBytes g d mask poison s.ms.stamp with dm := 0 }
  | none => s

/-- R286, R290: a write at a line the home holds: applied at an owner through which it enters, else in the home. -/
def writePresent (s : Dev) (x : Option Nat) (home line : Nat) (d : LineData) (mask : Nat) (poison : BitVec 8) : Dev :=
  match x, ownCopy s x home line with
  | some a, some g =>
    if g.st = .e ∨ g.st = .m ∨ g.st = .o then
      let (s, ok) := if g.st = .e then dguestRoom s a else (if g.st = .o then invalCopies s home line (some a) else s, true)
      if ok then
        let s := bumpStamp s
        putLine s { applyBytes g d mask poison s.ms.stamp with st := .m }
      else writeAtHome s x home line d mask poison
    else writeAtHome s x home line d mask poison
  | _, _ => writeAtHome s x home line d mask poison

/-- Masked sector writes of a line straight to the tier (R278). -/
def writeTier (s : Dev) (tag pa b : Nat) (d : LineData) (mask : Nat) (poison : BitVec 8) : Dev :=
  (List.range 8).foldl (fun s i =>
    tierWrite s (pa / 512 * 512 + 64 * i) (b / 512 * 512 + 64 * i) (lineSector d i) (nField mask (64 * i + 63) (64 * i)) (poison.getLsbD i) (tagByte tag)) s

/-- R277, R278, R295, R299: a write to a line that the home does not hold; it clears a DEAD tag. -/
def writeAbsent (s : Dev) (x : Option Nat) (tag pa : Nat) (attr : PageAttr) (home : Nat) (d : LineData) (mask : Nat) (poison : BitVec 8) : Dev :=
  let s := dropLine (askDie s x (agentDie home)) home (pa / 512)
  let b := backingOf pa attr.home
  if attr.cache = 2 ∨ attr.cache = 3 then writeTier s tag pa b d mask poison
  else
    let (s, ok) := roomHome s home (pa / 512)
    if !ok then writeTier s tag pa b d mask poison
    else
      let s := bumpStamp s
      homeTakes s (applyBytes (newHome home pa attr.home (pageTag tag attr) (if attr.cache = 1 then 2 else 0) s.ms.stamp) d mask poison s.ms.stamp)

/-- A tier address to which no write gets through: its port is dead, its stack is lost, or its line has no home (R62, R312, R368). -/
def cohDead (s : Dev) (pa : Nat) (attr : PageAttr) : Bool :=
  tierDead s (backingOf pa attr.home) || (homeAgent s pa attr.home).isNone

/-- R276: whether a request meets a line of another slice, and what tag the line must take first. -/
def lineCheck (s : Dev) (home line tag : Nat) (write : Bool) : Nat :=
  match liveLine s home line with
  | some h => tagCheck tag h.tag write
  | none => 0

/-- A coherent write of masked bytes of a tier line (R276, R277, R278, R286, R289). -/
def cohWrite (s : Dev) (x : Option Nat) (tag pa : Nat) (attr : PageAttr) (d : LineData) (mask : Nat) (poison : BitVec 8)
    (thr : Writer) : Dev × WrRes :=
  let line := pa / 512
  if cohDead s pa attr then (s, WrRes.gone)
  else
    match homeAgent s pa attr.home with
    | none => (s, WrRes.gone)
    | some home =>
      if lineShut s home line then (refuseRetry s, WrRes.ok)
      else
        let s := takeUp (countServed s x home line 0) pa attr.home home
        let chk := lineCheck s home line tag true
        if chk = 2 then (s, { WrRes.ok with err := some 0x02 })
        else
          let s := clearResv (if chk = 1 then retag s home line (pageTag tag attr) else s) (sectorsOf line mask) thr
          ((if (liveLine s home line).isSome then writePresent s x home line d mask poison else writeAbsent s x tag pa attr home d mask poison), WrRes.ok)

/-! ## Elements: atomics and reductions (R180, R258, R304, R388) -/

/-- R179, R180: the new value of an element under an ATOM operation, with the flags of floating-point ADD. -/
def atomElem (aop dt : Nat) (w64 : Bool) (old op cmp : Nat) : Nat × ArithFlags :=
  let n := if w64 then 64 else 32
  let fm : NumFmt := if w64 then .fp64 else .fp32
  match aop with
  | 0 => if dt = 2 then fpAdd fm .rne old op else ((old + op) % 2 ^ n, 0)
  | 1 => if dt = 2 then fpMin fm old op else
           ((if dt = 1 then (if sextNat n old ≤ sextNat n op then old else op) else min old op), 0)
  | 2 => if dt = 2 then fpMax fm old op else
           ((if dt = 1 then (if sextNat n old ≤ sextNat n op then op else old) else max old op), 0)
  | 3 => (Nat.land old op, 0)
  | 4 => (Nat.lor old op, 0)
  | 5 => (Nat.xor old op, 0)
  | 6 => (op, 0)
  | _ => (if old = cmp then op else old, 0)

/-- R251, R258: element bytes of a REDUCE data type. -/
def redBytes (dt : Nat) : Nat := if dt = 1 ∨ dt = 5 then 8 else if dt = 2 ∨ dt = 3 then 2 else 4

/-- R258: a REDUCE of one element; `rop` 0 ADD, 1 MIN, 2 MAX. -/
def redElem (rop dt old op : Nat) : Nat × ArithFlags :=
  let fp (fm : NumFmt) : Nat × ArithFlags :=
    if rop = 0 then fpAdd fm .rne old op else if rop = 1 then fpMin fm old op else fpMax fm old op
  let int (n : Nat) : Nat × ArithFlags :=
    if rop = 0 then ((old + op) % 2 ^ n, 0)
    else if rop = 1 then ((if sextNat n old ≤ sextNat n op then old else op), 0)
    else ((if sextNat n old ≤ sextNat n op then op else old), 0)
  match dt with
  | 0 => fp .fp32 | 1 => fp .fp64 | 2 => fp .bf16 | 3 => fp .fp16 | 4 => int 32 | _ => int 64

/-- Bytes of a line as a number, and their replacement. -/
def lineNat (d : LineData) (off n : Nat) : Nat := d.toNat / 2 ^ (8 * off) % 2 ^ (8 * n)
def putNat (d : LineData) (off n v : Nat) : LineData := putFld d (8 * (off + n) - 1) (8 * off) v

/-- R388, R389: an operation in a memory-side adder: the sector is read into the merge buffer first, the least recently
used sector leaving when the buffer is full; a poisoned sector stays poisoned. -/
def adderApply (s : Dev) (pa b slice : Nat) (f : BitVec 512 → BitVec 512) : Dev × BitVec 512 × Bool :=
  let ctl := ctlOf b
  let key := b / 64
  let (s, cur, p) :=
    match s.ms.adders.find? (fun (a : AdderSector) => a.sector == key) with
    | some a => (s, a.data, a.poison)
    | none =>
      let mine : List AdderSector := s.ms.adders.filter (fun a => a.ctl == ctl)
      let cap := if ctl < 2000 then 32 else 256
      let s := if mine.length < cap then s
        else
          match mine with
          | [] => s
          | y :: (t : List AdderSector) => adderFlush s ((t.foldl (fun (a c : AdderSector) => if c.stamp < a.stamp then c else a) y).sector * 64)
      tierRead s pa b slice
  let s := bumpStamp s
  let new := f cur
  let e : AdderSector := { ctl := ctl, sector := key, data := if p then cur else new, poison := p, last := s.now, stamp := s.ms.stamp }
  (modMs s (fun m => { m with adders := (m.adders.filter (fun (a : AdderSector) => a.sector != key)) ++ [e] }), cur, p)

/-! ## Read-modify-writes (R301 to R304) -/

/-- An operation that the home performs as one step: an atomic or reduction, returning or not, an LDR, or an STC that succeeds. -/
inductive RmwKind where
  | op (returning : Bool) | ldr | stc
deriving DecidableEq, Repr

/-- Whether the operation is a returning atomic (R301). -/
def RmwKind.returns (k : RmwKind) : Bool := k != .op false

/-- What a read-modify-write needs beyond its place: its kind, its entry point (none: at the home), the sectors it reads, the bytes it writes, the sectors its operands poison,
the writer of each sector, and the line it makes of a line. -/
structure Rmw where
  kind : RmwKind
  entry : Option Nat := none
  need : BitVec 8
  mask : Nat
  poison : BitVec 8
  thr : Writer
  f : LineData → LineData

/-- Where R301 and R302 place an operation. -/
inductive RmwPlace where
  /-- In the cache, on a line that the home holds. -/
  | held
  /-- In the cache, after a fill. -/
  | fill
  /-- In the adders. -/
  | adder
  /-- In the adders, after the resident line has been written back and dropped. -/
  | drop
deriving DecidableEq, Repr

/-- The placement table of R301, with R302. -/
def rmwPlace (s : Dev) (home line : Nat) (attr : PageAttr) (kind : RmwKind) (need : BitVec 8) : RmwPlace :=
  match liveLine s home line with
  | some h =>
    if h.pin = 0 ∧ fullyPinned s home line = true then .drop
    else if (readSource s h).sv &&& need = need ∧ s.ms.misses.any (fun m => m.slice == home && m.line == line) = false then .held
    else .fill
  | none =>
    if s.ms.misses.any (fun m => m.slice == home && m.line == line) then .fill
    else if kind.returns && decide (attr.cache < 2) && !fullyPinned s home line then .fill
    else .adder

/-- The result of a read-modify-write: the line before it, its poison, and the access result. -/
abbrev RmwRes := LineData × BitVec 8 × WrRes

/-- R301, R304: perform an operation in the cache, on the home's line with every other copy gone. A poisoned sector stays poisoned. -/
def rmwCache (s : Dev) (tag home line : Nat) (r : Rmw) : Dev × RmwRes :=
  let s := invalCopies (recallOwner s home line) home line none
  match findLine s home line with
  | none => (s, 0, 0, WrRes.ok)
  | some h =>
    let (s, h) := fillLine s h 255 (tagByte tag)
    let s := bumpStamp s
    let sec := BitVec.ofNat 8 (maskSectors r.mask)
    let h' := applyBytes h (r.f h.data) r.mask (r.poison &&& sec) s.ms.stamp
    (homeTakes s { h' with ps := h'.ps ||| (h.ps &&& sec), written := if r.mask = 0 then h.written else h'.written }, h.data, h.ps, WrRes.ok)

/-- R388: perform an operation at memory: in the adder, sector by sector; an LDR is a narrow read and an STC a masked sector write. -/
def rmwAdder (s : Dev) (tag pa b : Nat) (r : Rmw) : Dev × RmwRes :=
  let base := b / 512 * 512
  match r.kind with
  | .ldr =>
    let (s, d, p) := narrowRead s pa b (tagByte tag) r.need
    (s, d, p, WrRes.ok)
  | .stc => (writeTier s tag pa b (r.f 0) r.mask r.poison, 0, 0, WrRes.ok)
  | .op _ =>
    let secs := bitsOf 8 (maskSectors r.mask)
    let (s, d, p) := secs.foldl (fun (acc : Dev × LineData × BitVec 8) i =>
      let (s, d, p) := acc
      let (s, x, q) := adderApply s (pa / 512 * 512 + 64 * i) (base + 64 * i) (tagByte tag) (fun cur => lineSector (r.f (putSector 0 i cur)) i)
      (s, putSector d i x, putBit p i q)) (s, 0, 0)
    ((secs.filter (fun i => r.poison.getLsbD i)).foldl (fun s i => modMs s (fun m =>
      { m with adders := updAll (fun a => a.sector == base / 64 + i) (fun a => { a with poison := true }) m.adders })) s, d, p, WrRes.ok)

/-- Perform an operation where it is placed. A fill allocates the line first; where the set gives no way, the operation goes to memory. -/
def rmwAt (s : Dev) (tag pa : Nat) (attr : PageAttr) (home : Nat) (r : Rmw) : RmwPlace → Dev × RmwRes
  | .held => rmwCache s tag home (pa / 512) r
  | .fill =>
    if (liveLine s home (pa / 512)).isSome then rmwCache s tag home (pa / 512) r
    else
      let (s, ok) := roomHome (dropLine s home (pa / 512)) home (pa / 512)
      if !ok then rmwAdder s tag pa (backingOf pa attr.home) r
      else
        let s := bumpStamp s
        rmwCache (putLine s (newHome home pa attr.home (pageTag tag attr) (if attr.cache = 1 then 2 else 0) s.ms.stamp)) tag home (pa / 512) r
  | .adder => rmwAdder (if r.kind = .ldr then s else dropLine s home (pa / 512)) tag pa (backingOf pa attr.home) r
  | .drop =>
    match liveLine s home (pa / 512) with
    | some h => rmwAdder (evict s h) tag pa (backingOf pa attr.home) r
    | none => rmwAdder s tag pa (backingOf pa attr.home) r

/-- How a read-modify-write of a tier line is performed: by tag, address and attributes. -/
abbrev RmwFn := Dev → Nat → Nat → PageAttr → Rmw → Dev × RmwRes

/-- R370: what a read-modify-write gives where its destination is dead. -/
def rmwGone (s : Dev) : Dev × RmwRes := (bumpFree s, BitVec.ofNat 4096 (Config.poisonData s.free).toNat, BitVec.allOnes 8, WrRes.gone)

/-- R303, R388: an operation that its home has sent to the adders is performed there. -/
def adderRmw : RmwFn := fun s tag pa attr r =>
  if cohDead s pa attr then rmwGone s
  else rmwAdder (if r.mask = 0 then s else clearResv s (sectorsOf (pa / 512) r.mask) r.thr) tag pa (backingOf pa attr.home) r

/-- R276, R301 to R305: a read-modify-write of a tier line at its home. -/
def cohRmw : RmwFn := fun s tag pa attr r =>
  let line := pa / 512
  if cohDead s pa attr then rmwGone s
  else
    match homeAgent s pa attr.home with
    | none => rmwGone s
    | some home =>
      let n := (bitsOf 8 (r.need.toNat ||| maskSectors r.mask)).length
      let place := rmwPlace s home line attr r.kind r.need
      if lineBusy s home line || decide (128 < redLoad s home + n) || (place == .fill && missFull s home line) then (refuseRetry s, 0, 0, WrRes.ok)
      else
        let s := takeUp (countServed s r.entry home line r.need) pa attr.home home
        let chk := lineCheck s home line tag (r.kind != .ldr)
        if chk = 2 then (s, 0, 0, { WrRes.ok with err := some 0x02 })
        else
          let s := if chk = 1 then retag s home line (pageTag tag attr) else s
          let s := askDie s r.entry (agentDie home)
          rmwAt (if r.mask = 0 then s else clearResv s (sectorsOf line r.mask) r.thr) tag pa attr home r place

end Sys2Proof.Machine
end

