-- ==== Sys2Proof/Machine/Access.lean ====
section
/-! DEFINITION. Sys2Proof/Machine/Access.lean: translation of slice virtual addresses (R397, R398, R514) and the
accesses every engine makes: reads and writes of bytes by virtual or physical address. -/

namespace Sys2Proof.Machine

open Sys2Proof

/-! ## Translation -/

/-- The outcome of a translation. -/
inductive TrRes where
  /-- Physical address and attributes. -/
  | ok (pa : Nat) (attr : PageAttr)
  /-- TRANSLATION (R176, R398); the physical address of the table entry read, in its last two cases. -/
  | trans (entry : Option Nat)
  /-- ACCESS_FAULT: the page's HOME differs from the zone's policy, or the granule's zone is invalid (R398, R399). -/
  | access
deriving DecidableEq, Repr

/-- Attributes of an access by physical address (R400): the zone's policy, NORMAL, no slice page. -/
def physAttr (s : Dev) (pa : Nat) : PageAttr :=
  { home := (zonePolicy s pa).getD 0, cache := 0, sharedRO := false, owner := 0 }

/-- R281, R285: a sequencer core of a hub enters at its sequencer cache. The spec does not say which of a hub's two caches a core has: cores
alternate by number (DESIGN CHOICE, log 84). -/
def seqEntry (hub core : Nat) : Option Nat := some (32 + 2 * hub + core % 2)

/-- A 64-bit word read by physical address through an entry point, with its poison (page tables, tables in memory); manager's tag. -/
def physWord (s : Dev) (x : Option Nat) (pa : Nat) : Dev × Nat × Bool :=
  let sec := BitVec.ofNat 8 (2 ^ (pa % 512 / 64))
  let (s, r) := cohRead s x 0x10 pa (physAttr s pa) sec .demand
  (s, lineNat r.data (pa % 512) 8, r.poison &&& sec != 0)

/-- Whether a table-entry address cannot be read (R398): reserved or unbacked, dead, or in an invalid zone. -/
def badEntryAddr (s : Dev) (pa : Nat) : Bool :=
  placeOf s pa != .tier || (isFar pa && farDead s (farPort pa)) || (zonePolicy s pa).isNone
    || (homeAgent s pa ((zonePolicy s pa).getD 0)).isNone

/-- Address bits a leaf of a level maps, and the shift of its index. -/
def levelBits (lvl : Nat) : Nat := if lvl = 1 then 30 else if lvl = 2 then 21 else 16

/-- Index width of a level (R397): 18, 9 and 5 bits. -/
def levelIdx (lvl va : Nat) : Nat :=
  if lvl = 1 then nField va 47 30 else if lvl = 2 then nField va 29 21 else nField va 20 16

/-- The checks of a leaf entry (R397, R398). -/
def leafOk (s : Dev) (slice lvl e va : Nat) (write : Bool) : Bool :=
  let owner := nField e 63 60
  let backed := e.testBit 56
  let shro := e.testBit 55
  let w := e.testBit 1
  let frame := nField e 47 16
  nField e 59 57 == 0 && nField e 50 48 == 0 && nField e 15 3 == 0 && nField e 52 51 != 3
    && (lvl != 2 || frame % 2 ^ 5 == 0) && (lvl != 1 || frame % 2 ^ 14 == 0)
    && !(write && !w) && !(shro && w) && !(owner != slice && !shro) && !(backed && !shro)
    && !(backed && (backingCopy s (frame * 2 ^ 16 + va % 2 ^ levelBits lvl)).isNone)

/-- A leaf's physical address and attributes, with the zone check of R398. -/
def leafRes (s : Dev) (lvl e va : Nat) : TrRes :=
  let pa := nField e 47 16 * 2 ^ 16 + va % 2 ^ levelBits lvl
  let attr : PageAttr := { home := nField e 52 51, cache := nField e 54 53, sharedRO := e.testBit 55, owner := nField e 63 60 }
  if pa < 0x030000000000 then
    if zonePolicy s pa = some attr.home then .ok pa attr else .access
  else .ok pa attr

/-- The walk from level `lvl` (fuel: levels left) at table base `base`; a good leaf is kept in the translation cache. -/
def walk (s : Dev) (slice va : Nat) (write : Bool) : Nat → Nat → Nat → Dev × TrRes
  | 0, _, _ => (s, .trans none)
  | fuel + 1, lvl, base =>
    let ea := base + 8 * levelIdx lvl va
    if badEntryAddr s ea then (s, .trans (some ea))
    else
      let (s, e, p) := physWord s none ea
      if p then (s, .trans (some ea))
      else if e.testBit 0 = false then (s, .trans none)
      else if e.testBit 2 then
        if leafOk s slice lvl e va write then
          let bits := levelBits lvl
          (modMs s (fun m => { m with tlb := m.tlb ++ [(slice, va / 2 ^ bits * 2 ^ bits, bits, BitVec.ofNat 64 e)] }), leafRes s lvl e va)
        else (s, .trans none)
      else if lvl = 3 then (s, .trans none)
      else if nField e 63 48 ≠ 0 ∨ nField e 11 3 ≠ 0 ∨ e.testBit 1 then (s, .trans none)
      else walk s slice va write fuel (lvl + 1) (nField e 47 12 * 2 ^ 12)

/-- Level of a page size. -/
def levelOfBits (b : Nat) : Nat := if b = 30 then 1 else if b = 21 then 2 else 3

/-- R621: what a command of a Halter channel may address: the scratchpad windows of the channel's Halter region and the host window
of its ring's port. Its tag is 0x20 + 2 * hub + port. -/
def haltAllows (s : Dev) (tag va : Nat) : Bool :=
  match placeOf s va with
  | .spad cl _ => cl / 6 == 16 * ((tag - 0x20) / 2)
  | .host p _ => p == tag % 2
  | _ => false

/-- R176, R397, R398, R514: translate an address of a slice; a translation held is used. A request that carries the
manager's tag translates through no page (R275): its address is physical, with the zone's policy (R400). -/
def translate (s : Dev) (tag va : Nat) (write : Bool) : Dev × TrRes :=
  if 2 ^ 48 ≤ va then (s, .trans none)
  else if 0x20 ≤ tag then
    (s, if haltAllows s tag va then .ok va { home := 0, cache := 0, sharedRO := false, owner := 0 } else .access)
  else if tag = 0x10 then
    (s, if va < 0x030000000000 ∧ (zonePolicy s va).isNone then .access else .ok va (physAttr s va))
  else
    match s.ms.tlb.find? (fun t => t.1 == tag && va / 2 ^ t.2.2.1 * 2 ^ t.2.2.1 == t.2.1) with
    | some t =>
      let lvl := levelOfBits t.2.2.1
      (s, if leafOk s tag lvl t.2.2.2.toNat va write then leafRes s lvl t.2.2.2.toNat va else .trans none)
    | none => walk s tag va write 3 1 (getF s (fSLC_PTBASE_BASE tag) * 2 ^ 21)

/-- R398, R646: the address a failed access records, and whether it is a virtual address of the slice: the table entry's
physical address where the walk met an entry it cannot read or a poisoned one. -/
def failAddr (s : Dev) (tag va : Nat) : Nat × Bool :=
  match (translate s tag va false).2 with
  | .trans (some ea) => (ea, false)
  | _ => (va, decide (tag < 0x10))

/-! ## Reads and writes of one sector's bytes by physical address -/

/-- R245: may a request of tag `tag` reach the scratchpad of a cluster: the slice that owns the cluster's region, or the
manager. -/
def spadOwner (s : Dev) (tag cl : Nat) : Bool :=
  decide (0x10 ≤ tag) || (getF s (fSLC_RGN_STATE (cl / 6)) == 1 && getF s (fSLC_RGN_RESIDENT (cl / 6)) == tag)

/-- The outcome of an access of at most one line. -/
structure AccRes where
  bytes : List (Byte × Bool)
  err : Option Nat
  lost : Bool
  /-- The address that failed, of a run by virtual address. -/
  bad : Nat := 0
deriving DecidableEq, Repr

/-- The PASID of a slice's accesses to a host window (R63, R559); the manager carries none. Of the up to eight PASIDs that R512 binds to a
slice the spec does not say which one an access carries: the first valid one (DESIGN CHOICE, log 83). -/
def slicePasid (s : Dev) (tag : Nat) : Option Nat :=
  if 16 ≤ tag then none
  else ((List.range 8).find? (fun k => getF s (fSLC_PASID_VALID tag k) == 1)).map (fun k => getF s (fSLC_PASID_PASID tag k))

/-- R576: a CLOCK_GATED cluster wakes, at a window access or a multicast write too; its region's other state stays. -/
def wakeCl (s : Dev) (cl : Nat) : Dev :=
  if !(getCl s cl).gated || decide (2 ≤ getF s (fPW_RGN_STATE (cl / 6))) then s
  else
    let s := modCl s cl (fun c => { c with gated := false })
    if getF s (fPW_RGN_STATE (cl / 6)) = 1 then setF s (fPW_RGN_STATE (cl / 6)) 0 else s

/-- Read `n` bytes within one line at a physical address. -/
def readPa (s : Dev) (x : Option Nat) (tag pa n : Nat) (attr : PageAttr) (kind : RdKind := .demand) : Dev × AccRes :=
  match placeOf s pa with
  | .tier =>
    let off := pa % 512
    let secs := maskSectors ((2 ^ n - 1) * 2 ^ off)
    let (s, r) := cohRead s x tag pa attr (BitVec.ofNat 8 secs) kind
    (s, { bytes := (List.range n).map (fun i => (lineByte r.data (off + i), r.poison.getLsbD ((off + i) / 64))), err := r.err, lost := false })
  | .spad cl off =>
    let s := askDie s x (cl / 24)
    if dieLost s (cl / 24) then
      (bumpFree s, { bytes := (List.range n).map (fun i => (byteOf (Config.poisonData s.free) (i % 64), true)), err := none, lost := false })
    else if spadOwner s tag cl then
      (wakeCl s cl, { bytes := (List.range n).map (fun i => (tabGet (fun _ => 0) s.ms.spad (cl * 0x800000 + off + i),
              s.ms.spadPoison.contains ((cl * 0x800000 + off + i) / 64))), err := none, lost := false })
    else (s, { bytes := [], err := some 0x02, lost := false })
  | .host p h =>
    let s := askDie s x (8 + p)
    if hostDead s p then (bumpFree s, { bytes := (List.range n).map (fun i => (byteOf (Config.poisonData s.free) (i % 64), true)), err := none, lost := false })
    else
      (bumpFree (emit s (.hostRead p (slicePasid s tag) h n)),
        { bytes := (List.range n).map (fun i => (Config.hostByte s.free p (h + i), false)), err := none, lost := false })
  | .peer =>
    match peerUse s (peerMod pa) with
    | .dead => (bumpFree s, { bytes := (List.range n).map (fun i => (byteOf (Config.poisonData s.free) (i % 64), true)), err := none, lost := false })
    | .flow =>
      -- the READ_REQ leaves with what its engine launches; the data are those its READ_RSP will bring (log 97)
      let q : PeerReq := { id := s.nextKey, kind := 2, tag := tag, cmd := 0, pa := pa / 512 * 512, dt := 0, data := 0, mask := BitVec.ofNat 512 ((2 ^ n - 1) * 2 ^ (pa % 512)), poison := false, who := none, eng := none, framed := false }
      ({ (bumpFree s) with peerOut := s.peerOut ++ [q], nextKey := s.nextKey + 1 },
        { bytes := (List.range n).map (fun i => (Config.peerByte s.free (pa + i), Config.peerPoison s.free)), err := none, lost := false })
    | _ => (peerRecord s (peerMod pa) tag { sev := 2, cause := 0x0011 }, { bytes := [], err := some 0x02, lost := false })
  | .bad => (s, { bytes := [], err := some 0x02, lost := false })

/-- Write bytes to a scratchpad: whole clean granules clear poison, poisoned data sets it (R247); reservations of the
window unit are lost (R246, R365). -/
def spadWrite (s : Dev) (cl off : Nat) (data mask : Nat) (n : Nat) (poison : Bool) (thr : Writer) : Dev :=
  let a := cl * 0x800000 + off
  let s := clearResv (wakeCl s cl) [(spadBase cl + off) / 64] thr
  modMs s (fun m =>
    let full := n == 64 && off % 64 == 0 && mask == 2 ^ 64 - 1
    { m with spad := writeNat m.spad a n data mask,
             spadPoison := if poison then insSorted (a / 64) m.spadPoison
                           else if full then delNat (a / 64) m.spadPoison else m.spadPoison })

/-- Write masked bytes of one line at a physical address (line data and mask are line-relative). -/
def writePa (s : Dev) (x : Option Nat) (tag pa : Nat) (attr : PageAttr) (d : LineData) (mask : Nat) (poison : BitVec 8)
    (thr : Writer) (cmd : Nat) : Dev × WrRes :=
  match placeOf s pa with
  | .tier =>
    let (s, r) := cohWrite s x tag pa attr d mask poison thr
    (if r.err.isNone && !r.lost then dlogStage s tag .tier pa else s, r)
  | .spad cl off =>
    let s := askDie s x (cl / 24)
    if dieLost s (cl / 24) then (s, { err := none, lost := true })
    else if spadOwner s tag cl then
      let base := off / 512 * 512
      ((List.range 8).foldl (fun s i =>
        let m := nField mask (64 * i + 63) (64 * i)
        if m = 0 then s else spadWrite s cl (base + 64 * i) (lineSector d i).toNat m 64 (poison.getLsbD i) thr) s, { err := none, lost := false })
    else (s, { err := some 0x02, lost := false })
  | .host p h =>
    let s := askDie s x (8 + p)
    if hostDead s p then (s, { err := none, lost := true })
    else
      let base := h / 512 * 512
      -- one transaction per granule (R265)
      let s := (List.range 8).foldl (fun s i =>
        let m := nField mask (64 * i + 63) (64 * i)
        if m = 0 then s
        else if m = 2 ^ 64 - 1 then emit s (.hostWrite p (slicePasid s tag) (base + 64 * i) (leBytes 64 (lineSector d i).toNat))
        else emit s (.hostMasked p (slicePasid s tag) (base + 64 * i) (lineSector d i) (BitVec.ofNat 64 m))) s
      (dlogStage s tag (.host p h) pa, { err := none, lost := false })
  | .peer =>
    match peerUse s (peerMod pa) with
    | .flow =>
      ({ s with peerOut := s.peerOut ++ [{ id := s.nextKey, kind := 0, tag := tag, cmd := cmd, pa := pa / 512 * 512, dt := 0, data := d, mask := BitVec.ofNat 512 mask, poison := poison != 0, who := none, eng := none, framed := false }],
                nextKey := s.nextKey + 1 }, { err := none, lost := false })
    | .dead => (s, { err := none, lost := true })
    | _ => (peerRecord s (peerMod pa) tag { sev := 2, cause := 0x0011 }, { err := some 0x02, lost := false })
  | .bad => (s, { err := some 0x02, lost := false })

/-! ## Runs of bytes by virtual address (data movers, images, tables) -/

/-- Read a run of bytes by virtual address, line by line (fuel: lines). Stops at the first fault. -/
def readVa (x : Option Nat) (tag : Nat) : Nat → Dev → Nat → Nat → Dev × AccRes
  | 0, s, _, _ => (s, { bytes := [], err := none, lost := false })
  | fuel + 1, s, va, n =>
    if n = 0 then (s, { bytes := [], err := none, lost := false })
    else
      let k := min n (512 - va % 512)
      match translate s tag va false with
      | (s, .ok pa attr) =>
        let (s, r) := readPa s x tag pa k attr
        if r.err.isSome then (s, { r with bad := va })
        else
          let (s, r2) := readVa x tag fuel s (va + k) (n - k)
          (s, { r2 with bytes := r.bytes ++ r2.bytes })
      | (s, _) => (s, { bytes := [], err := some 0x02, lost := false, bad := va })

/-- Write a run of bytes by virtual address, line by line (fuel: lines). Bytes already written stay written (R254). -/
def writeVa (x : Option Nat) (tag cmd : Nat) : Nat → Dev → Nat → List (Byte × Bool) → Dev × WrRes
  | 0, s, _, _ => (s, { err := none, lost := false })
  | fuel + 1, s, va, bytes =>
    match bytes with
    | [] => (s, { err := none, lost := false })
    | _ =>
      let k := min bytes.length (512 - va % 512)
      let now := bytes.take k
      match translate s tag va true with
      | (s, .ok pa attr) =>
        let off := va % 512
        let (d, m) := lineOfBytes off (now.map (fun b => b.1))
        let pz := (List.range k).foldl (fun a i => match now[i]? with
          | some b => if b.2 then Nat.lor a (2 ^ ((off + i) / 64)) else a
          | none => a) 0
        let (s, r) := writePa s x tag pa attr d m (BitVec.ofNat 8 pz) noThread cmd
        if r.err.isSome then (s, { r with bad := va })
        else
          let (s, r2) := writeVa x tag cmd fuel s (va + k) (bytes.drop k)
          (s, { r2 with lost := r.lost || r2.lost })
      | (s, _) => (s, { err := some 0x02, lost := false, bad := va })

/-- Read `n` bytes by virtual address. -/
def readBytesVa (s : Dev) (x : Option Nat) (tag va n : Nat) : Dev × AccRes := readVa x tag (n / 512 + 2) s va n

/-- Write bytes by virtual address. -/
def writeBytesVa (s : Dev) (x : Option Nat) (tag cmd va : Nat) (bytes : List (Byte × Bool)) : Dev × WrRes :=
  writeVa x tag cmd (bytes.length / 512 + 2) s va bytes

/-- Whether any byte of a read is poisoned. -/
def anyPoison (l : List (Byte × Bool)) : Bool := l.any (fun b => b.2)

/-- The number little-endian bytes hold. -/
def accNat (l : List (Byte × Bool)) : Nat := leNat (l.map (fun b => b.1))

/-! ## What storage shows beyond its data -/

/-- An error record of a storage error: corrected, or a double-bit error (R138, R206, R239, R247). -/
def sramRec (s : Dev) (e : ErrRec) (double : Bool) : Dev :=
  errRecord s (if double then { e with sev := 1, cause := 0x0002 } else { e with sev := 0, cause := 0x0001 })

/-- R247: an error in a granule of a cluster's scratchpad. -/
def sramSpad (s : Dev) (cl granule : Nat) (double : Bool) : Dev :=
  let g := cl * 0x20000 + granule
  sramRec (if double then modMs s (fun m => { m with spadPoison := insSorted g m.spadPoison }) else s)
    { sev := 0, cause := 0, die := cl / 24, region := cl / 6 % 4, cluster := cl % 6, unit := 0x03 } double

/-- R247, R382, R391, R395: the device as a command meets it whose storage shows something beyond its data: an error of a scratchpad granule, or
what the tier that holds a line answers. -/
def flawIn (f : Flaw) (s : Dev) : Dev :=
  match f with
  | .none => s
  | .tier line resp => modMs s (fun m => { m with resp := some (line, resp) })
  | .spad cl granule double => sramSpad s cl granule double

/-- The tier's answer is that command's alone. -/
def flawOut (f : Flaw) (s : Dev) : Dev :=
  match f with
  | .tier _ _ => modMs s (fun m => { m with resp := none })
  | _ => s

/-- A command's effect under what its storage shows. -/
def withFlaw (f : Flaw) (op : Dev → Dev) (s : Dev) : Dev := flawOut f (op (flawIn f s))

end Sys2Proof.Machine
end

