-- ==== Sys2Proof/Machine/Lines.lean ====
section
/-! DEFINITION. Sys2Proof/Machine/Lines.lean: what happens to whole lines of the coherent domain: last-use marks
(R299), range operations (R296 to R298), retention (R293, R294), and the loss of the lines behind a dead
destination (R369). -/

namespace Sys2Proof.Machine

open Sys2Proof

/-- The kinds of a range operation (R296). -/
inductive RangeOp where
  | flush | inval | flushInv
deriving DecidableEq, Repr

/-- R299: a last-use mark of a home line: every copy dropped with no write-back, the tag kept as a DEAD tag. A mark on a
shared line does nothing. -/
def markLine (s : Dev) (h : CacheLine) : Dev :=
  if h.tag = 0x11 ∨ h.st = .dead then s
  else
    putLine (invalCopies s h.agent h.line none)
      { h with st := .dead, sv := 0, dm := 0, ps := 0, sharers := 0, owner := 0x3F, pin := 0, ret := 0, data := 0 }

/-- R296: a FLUSH of one line: the owner's dirty bytes reach the home and the home's reach the tier; the copies stay,
clean. A DEAD tag that a range operation covers is lost (R300). -/
def flushLine (s : Dev) (h : CacheLine) : Dev :=
  if h.st = .dead then dropLine s h.agent h.line
  else
    let s := match (if h.st = .hx then liveLine s h.owner h.line else none) with
      | some o =>
        let h1 := mergeCopy h o
        putLine (putLine s (if o.st = .o then toHv h1 h.owner else h1)) { o with dm := 0, st := if o.st = .m then .e else if o.st = .o then .s else o.st }
      | none => s
    match findLine s h.agent h.line with
    | some h => putLine (writeBack s h) { h with dm := 0 }
    | none => s

/-- R296: an INVALIDATE of one line: every copy dropped, dirty bytes discarded. -/
def invalLine (s : Dev) (h : CacheLine) : Dev := dropLine (invalCopies s h.agent h.line none) h.agent h.line

/-- R296: one range operation on one line, named by its home entry. -/
def rangeLine (op : RangeOp) (s : Dev) (h : CacheLine) : Dev :=
  match op with
  | .flush => flushLine s h
  | .inval => invalLine s h
  | .flushInv =>
    let s := flushLine s h
    match findLine s h.agent h.line with
    | some h => invalLine s h
    | none => s

/-! ## Operations that meet a pinned line (R306) -/

/-- The codes of what a home may hold at a pinned line: range operations, and 3 for a mark. -/
def RangeOp.code (op : RangeOp) : Nat :=
  match op with
  | .flush => 0
  | .inval => 1
  | .flushInv => 2

/-- R306: operations are queued on a home line, or what the home holds there is not yet done. -/
def lineHeld (s : Dev) (home line : Nat) : Bool :=
  s.ms.redQ.any (fun q => q.home == home && q.line == line) || s.ms.heldOps.any (fun q => q.home == home && q.line == line)

/-- R306: the home holds an operation at a pinned line until the pin clears. -/
def holdOp (s : Dev) (h : CacheLine) (op owner : Nat) : Dev :=
  modMs s (fun m => { m with heldOps := m.heldOps ++ [{ home := h.agent, line := h.line, op := op, owner := owner }] })

/-- R299: a last-use mark of one line. A mark on a line with no copy does nothing; one that meets a pinned line is held. -/
def lastUse (s : Dev) (pa : Nat) (attr : PageAttr) : Dev :=
  match homeAgent s pa attr.home with
  | none => s
  | some home =>
    match liveLine s home (pa / 512) with
    | none => s
    | some h => if lineHeld s home h.line then holdOp s h 3 0 else markLine s h

/-- What a home holds at a line, and the state without it. -/
def takeHeld (s : Dev) (home line : Nat) : Dev × List HeldOp :=
  (modMs s (fun m => { m with heldOps := m.heldOps.filter (fun q => !(q.home == home && q.line == line)) }),
    s.ms.heldOps.filter (fun q => q.home == home && q.line == line))

/-- R306: the pin of a line has cleared: what its home held there acts, in order of arrival. -/
def releaseHeld (s : Dev) (home line : Nat) (held : List HeldOp) : Dev :=
  held.foldl (fun s q =>
    match findLine s home line with
    | none => s
    | some h => if q.op = 0 then flushLine s h else if q.op = 1 then invalLine s h else if q.op = 2 then rangeLine .flushInv s h else markLine s h) s

/-- The home entries that satisfy `p`. -/
def homeLines (s : Dev) (p : CacheLine → Bool) : List CacheLine := s.ms.lines.filter (fun l => l.home && p l)

/-- R296, R298, R306: a range operation over every home line that satisfies `p`; `owner` is one more than the key of the FENCE that asks for it, 0 for
any other. -/
def rangeLines (op : RangeOp) (owner : Nat) (s : Dev) (p : CacheLine → Bool) : Dev :=
  (homeLines s p).foldl (fun s h => if lineHeld s h.agent h.line then holdOp s h op.code owner else rangeLine op s h) s

/-- R294: with one KEEP line too many in a set, the least recently used becomes NORMAL. -/
def keepLimit (s : Dev) (agent line : Nat) : Dev :=
  let ks := (setLines s agent line).filter (fun l => l.ret == 1)
  if ks.length ≤ getF s fCD_CFG_KEEP_MAX then s
  else
    match lruOf ks with
    | some v => putLine s { v with ret := 0 }
    | none => s

/-- R293: set RET of a resident home line. -/
def setRet (s : Dev) (pa : Nat) (attr : PageAttr) (ret : Nat) : Dev :=
  match homeAgent s pa attr.home with
  | none => s
  | some home =>
    match liveLine s home (pa / 512) with
    | none => s
    | some h => keepLimit (putLine s { h with ret := ret }) home (pa / 512)

/-- R369: the homes drop every cached line behind a dead destination, named by a predicate on the home entry. -/
def dropBehind (s : Dev) (p : CacheLine → Bool) : Dev := (homeLines s p).foldl invalLine s

end Sys2Proof.Machine
end

