-- ==== Sys2Proof/Machine/Operands.lean ====
section
/-! DEFINITION. Sys2Proof/Machine/Operands.lean: the fields of Caerko instruction words (R168 to R175) and the
reading and writing of a group's registers with their poison bits (R147, R150, R206). -/

namespace Sys2Proof.Machine

open Sys2Proof

/-! ## Instruction fields -/

/-- The field `[msb:lsb]` of the whole instruction word, for `lsb` at least 12 (R169). -/
def iFld (iw : IWord) (msb lsb : Nat) : Nat := nField iw.body.toNat (msb - 12) (lsb - 12)

/-- PNEG, bit 11 (R168). -/
def iPneg (iw : IWord) : Bool := iw.hdr.getLsbD 3

/-- PRED, bits [10:8] (R168). -/
def iPred (iw : IWord) : Nat := iw.hdr.toNat % 8

/-- VR and VI fields. -/
def iVD (iw : IWord) : Nat := iFld iw 19 12
def iVA (iw : IWord) : Nat := iFld iw 27 20
def iVB (iw : IWord) : Nat := iFld iw 35 28
def iVC (iw : IWord) : Nat := iFld iw 43 36
def iTYP (iw : IWord) : Nat := iFld iw 47 44
def iRND (iw : IWord) : Nat := iFld iw 49 48
def iSAT (iw : IWord) : Nat := iFld iw 50 50
def iMOD (iw : IWord) : Nat := iFld iw 63 51
/-- VI: IMM [63:32], TYP [31:28]; bits [51:..] belong to IMM. -/
def viIMM (iw : IWord) : Nat := iFld iw 63 32
def viTYP (iw : IWord) : Nat := iFld iw 31 28
/-- SR fields. -/
def sSD (iw : IWord) : Nat := iFld iw 17 12
def sSA (iw : IWord) : Nat := iFld iw 23 18
def sSB (iw : IWord) : Nat := iFld iw 29 24
def sSC (iw : IWord) : Nat := iFld iw 35 30
def sMOD (iw : IWord) : Nat := iFld iw 63 36
/-- SI fields: FN [27:24], IMM [63:28] signed. -/
def siFN (iw : IWord) : Nat := iFld iw 27 24
def siIMM (iw : IWord) : Nat := iFld iw 63 28
/-- CTL fields: T1 [63:40], T2 [39:16], TOK [15:12]. -/
def cT1 (iw : IWord) : Nat := iFld iw 63 40
def cT2 (iw : IWord) : Nat := iFld iw 39 16
def cTOK (iw : IWord) : Nat := iFld iw 15 12
/-- MEM fields. -/
def mOFF (iw : IWord) : Int := sextNat 15 (iFld iw 63 49)
def mDEAD (iw : IWord) : Nat := iFld iw 48 48
def mL1H (iw : IWord) : Nat := iFld iw 47 46
def mORD (iw : IWord) : Nat := iFld iw 45 44
def mSCOPE (iw : IWord) : Nat := iFld iw 43 41
def mSHL (iw : IWord) : Nat := iFld iw 40 39
def mAMODE (iw : IWord) : Nat := iFld iw 38 38
def mSEXT (iw : IWord) : Nat := iFld iw 37 37
def mSIZE (iw : IWord) : Nat := iFld iw 36 34
def mSB (iw : IWord) : Nat := iFld iw 33 28
/-- ATM fields. -/
def aVC (iw : IWord) : Nat := iFld iw 63 56
def aVB (iw : IWord) : Nat := iFld iw 55 48
def aSPACE (iw : IWord) : Nat := iFld iw 47 47
def aDT (iw : IWord) : Nat := iFld iw 46 44
def aORD (iw : IWord) : Nat := iFld iw 43 42
def aSCOPE (iw : IWord) : Nat := iFld iw 41 39
def aAOP (iw : IWord) : Nat := iFld iw 38 35
def aW64 (iw : IWord) : Nat := iFld iw 34 34
/-- SYN fields. -/
def yRES (iw : IWord) : Nat := iFld iw 63 22
def yBID (iw : IWord) : Nat := iFld iw 21 18
def yKIND (iw : IWord) : Nat := iFld iw 17 16
def yASYNC (iw : IWord) : Nat := iFld iw 15 15
def ySCOPE (iw : IWord) : Nat := iFld iw 14 12
/-- ASY fields. -/
def xRES (iw : IWord) : Nat := iFld iw 63 34
def xTOK (iw : IWord) : Nat := iFld iw 33 30
def xSD2 (iw : IWord) : Nat := iFld iw 29 24
def xSD1 (iw : IWord) : Nat := iFld iw 23 18
def xSC (iw : IWord) : Nat := iFld iw 17 12

/-! ## Register access -/

/-- A scalar register and its poison bit. -/
def getS (g : Group) (n : Nat) : Word := tabGet (fun _ => 0) g.sr n
def getSP (g : Group) (n : Nat) : Bool := tabGet (fun _ => false) g.sp n

/-- Write a scalar register with its poison bit. -/
def setS (g : Group) (n : Nat) (w : Word) (poison : Bool) : Group :=
  { g with sr := tabSet (fun _ => 0) g.sr n w, sp := tabSet (fun _ => false) g.sp n poison }

/-- A vector-register lane; index 255 is vz and reads as zero (R147). -/
def getV (g : Group) (r lane : Nat) : BitVec 32 :=
  if r = 255 then 0 else tabGet (fun _ => 0) g.v (32 * r + lane)

/-- A vector-register lane's poison bit; vz has none. -/
def getVP (g : Group) (r lane : Nat) : Bool :=
  if r = 255 then false else tabGet (fun _ => false) g.vp (32 * r + lane)

/-- Write a vector-register lane with its poison bit; a write to vz is discarded (R147). -/
def setV (g : Group) (r lane : Nat) (w : BitVec 32) (poison : Bool) : Group :=
  if r = 255 then g
  else { g with v := tabSet (fun _ => 0) g.v (32 * r + lane) w,
                vp := tabSet (fun _ => false) g.vp (32 * r + lane) poison }

/-- The 64-bit value of the pair at `r`, low word first; vz reads as zero. -/
def getV64 (g : Group) (r lane : Nat) : Nat :=
  if r = 255 then 0 else (getV g r lane).toNat + 2 ^ 32 * (getV g (r + 1) lane).toNat

/-- Poison of the pair at `r`. -/
def getVP64 (g : Group) (r lane : Nat) : Bool :=
  if r = 255 then false else getVP g r lane || getVP g (r + 1) lane

/-- Write `n` consecutive 32-bit registers of a lane from a number, low word first. -/
def setVn (g : Group) (r lane : Nat) (poison : Bool) : Nat → Nat → Group
  | 0, _ => g
  | n + 1, w => if r = 255 then g else setVn (setV g r lane (BitVec.ofNat 32 w) poison) (r + 1) lane poison n (w / 2 ^ 32)

/-- The value of `n` consecutive 32-bit registers of a lane; vz reads as zero. -/
def getVn (g : Group) (r lane : Nat) : Nat → Nat
  | 0 => 0
  | n + 1 => if r = 255 then 0 else (getV g r lane).toNat + 2 ^ 32 * getVn g (r + 1) lane n

/-- Poison of `n` consecutive registers of a lane. -/
def getVPn (g : Group) (r lane : Nat) : Nat → Bool
  | 0 => false
  | n + 1 => if r = 255 then false else getVP g r lane || getVPn g (r + 1) lane n

/-- A predicate register's lane mask; p7 reads as true in every lane (R147). -/
def getPmask (g : Group) (n : Nat) : BitVec 32 :=
  if n = 7 then BitVec.allOnes 32 else tabGet (fun _ => 0) g.p n

/-- A predicate register's poison mask. -/
def getPPmask (g : Group) (n : Nat) : BitVec 32 :=
  if n = 7 then 0 else tabGet (fun _ => 0) g.pp n

/-- Write one lane of a predicate register; writes to p7 are discarded (R147). -/
def setP (g : Group) (n lane : Nat) (b poison : Bool) : Group :=
  if n = 7 then g
  else { g with p := tabSet (fun _ => 0) g.p n (putBit (getPmask g n) lane b),
                pp := tabSet (fun _ => 0) g.pp n (putBit (getPPmask g n) lane poison) }

/-- The instruction's predicate as a lane mask (R168). -/
def predMask (g : Group) (iw : IWord) : BitVec 32 :=
  let m := getPmask g (iPred iw)
  if iPneg iw then ~~~m else m

/-- The lanes in which a vector instruction takes effect: active and predicate true (R144). -/
def execMask (g : Group) (iw : IWord) : BitVec 32 := g.act &&& predMask g iw

/-- Whether a scalar-slot or asynchronous instruction acts (R154). -/
def execOnce (g : Group) (iw : IWord) : Bool := execMask g iw != 0

/-- Poison of the predicate in a lane (R206). -/
def predPoison (g : Group) (iw : IWord) (lane : Nat) : Bool := (getPPmask g (iPred iw)).getLsbD lane

/-- Poison of the predicate in any active lane. -/
def predPoisonAny (g : Group) (iw : IWord) : Bool := (getPPmask g (iPred iw) &&& g.act) != 0

/-- The lanes 0 to 31. -/
def lanes : List Nat := List.range 32

/-- The lanes of a mask in ascending order. -/
def lanesOf (m : BitVec 32) : List Nat := lanes.filter (fun l => m.getLsbD l)

/-! ## Legal register names (R148) -/

/-- A single vector register: below A, or vz. -/
def legV (g : Group) (r : Nat) : Bool := r == 255 || decide (r < g.nv)

/-- An even-aligned pair that does not include index 255; vz alone is not a pair. -/
def legV2 (g : Group) (r : Nat) : Bool := r % 2 == 0 && decide (r + 1 < 255) && decide (r + 1 < g.nv)

/-- An aligned quad that does not include index 255. -/
def legV4 (g : Group) (r : Nat) : Bool := r % 4 == 0 && decide (r + 3 < 255) && decide (r + 3 < g.nv)

/-- A vector operand of `n` registers. -/
def legVn (g : Group) (r n : Nat) : Bool :=
  if n = 4 then legV4 g r else if n = 2 then legV2 g r else legV g r

/-- The registers an operand of `n` registers covers, for the scoreboard (R152). -/
def coverV (r n : Nat) : List Nat := if r = 255 then [] else (List.range n).map (fun i => r + i)

/-- A result of an arithmetic instruction: the group with its registers written, flags set, poison read. -/
structure ArithRes where
  g : Group
  fl : ArithFlags
  poison : Bool
deriving DecidableEq, Repr

/-- Apply a per-lane function to the executing lanes: it gives the result, its flags and its poison. -/
def perLane (g : Group) (iw : IWord) (n : Nat) (f : Nat → Nat × ArithFlags × Bool) : ArithRes :=
  (lanesOf (execMask g iw)).foldl
    (fun a l =>
      let (w, fl, p) := f l
      let p := p || predPoison g iw l
      { g := setVn a.g (iVD iw) l p n w, fl := a.fl ||| fl, poison := a.poison || p })
    { g := g, fl := 0, poison := false }

/-- As `perLane`, writing a predicate register's lanes. -/
def perLaneP (g : Group) (iw : IWord) (f : Nat → Bool × ArithFlags × Bool) : ArithRes :=
  (lanesOf (execMask g iw)).foldl
    (fun a l =>
      let (b, fl, p) := f l
      let p := p || predPoison g iw l
      { g := setP a.g (iVD iw % 8) l b p, fl := a.fl ||| fl, poison := a.poison || p })
    { g := g, fl := 0, poison := false }

/-- A scalar result: written when the instruction acts (R154). -/
def scalarRes (g : Group) (iw : IWord) (sd : Nat) (w : Nat) (poison : Bool) : ArithRes :=
  if execOnce g iw then
    let p := poison || predPoisonAny g iw
    { g := setS g sd (BitVec.ofNat 64 w) p, fl := 0, poison := p }
  else { g := g, fl := 0, poison := false }

/-- R170, R802: the opcodes that the opcode map lists, by group. -/
def opCodes (grp : Nat) : List Nat :=
  match grp with
  | 0x0 => [0, 1, 2, 3, 4, 5, 6, 7, 8]
  | 0x1 => [0, 1, 8, 9]
  | 0x2 => [0, 1, 2, 3, 4, 5]
  | 0x3 => [0, 1, 8]
  | 0x4 => [0, 8]
  | 0x5 => [0]
  | 0x6 => [0]
  | 0x7 => [0, 1, 2]
  | 0x8 => [0, 1, 2, 3, 4]
  | 0x9 => [0, 1, 2]
  | 0xA => [0, 1, 2, 3]
  | 0xB => [0, 1]
  | 0xC => [0, 1, 2]
  | 0xD => [0, 1]
  | 0xE => [0, 1, 2, 3, 4]
  | _ => []

/-- R168, R170: bits [7:0] of a word name an operation of the opcode map. -/
def opListed (b : BitVec 8) : Bool := (opCodes (fld b 7 4)).contains (fld b 3 0)

end Sys2Proof.Machine
end

