-- ==== Sys2Proof/Machine/CoreMem.lean ====
section
/-! DEFINITION. Sys2Proof/Machine/CoreMem.lean: what a core's memory requests and store-buffer entries do at their
points of coherence (R286, R301, R329, R349 to R355), the L1 (R163 to R167), and reservations (R183, R184). -/

namespace Sys2Proof.Machine

open Sys2Proof

/-- The slice tag of a command in flight. -/
def cmdTag (s : Dev) (k : Nat) : Nat :=
  match getCmd s k with
  | some c => c.tag
  | none => 0x10

/-- R285: the cache slice at which a core's requests enter. -/
def coreEntry (core : Nat) : Option Nat := some (coreRegion core)

/-- R285, R329: the point of coherence of an address for requests that enter at an agent, as a number: the agent itself where it owns the
line, else the home; then scratchpads, host ports, peer modules. -/
def pocOf (s : Dev) (x : Option Nat) (pa : Nat) (attr : PageAttr) : Nat :=
  match placeOf s pa with
  | .tier =>
    let home := (homeAgent s pa attr.home).getD 99
    match ownCopy s x home (pa / 512) with
    | some g => if g.st = .s then home else g.agent
    | none => home
  | .spad cl _ => 100 + cl
  | .host p _ => 300 + p
  | .peer => 400 + peerMod pa
  | .bad => 9999

/-- R345: the scope a wait must have to cover a write to an address: 1 memory and scratchpad windows, 4 host windows,
5 peer windows. -/
def lostLevel (s : Dev) (pa : Nat) : Nat :=
  match placeOf s pa with
  | .host _ _ => 4
  | .peer => 5
  | _ => 1

/-- The sole thread that touches sector `i` in a list of (sector, slot, lane). -/
def soleThread (core : Nat) (l : List (Nat × Nat × Nat)) : Writer := fun i =>
  match ((l.filter (fun w => w.1 == i)).map (fun w => w.2)).eraseDups with
  | [w] => some (core, w.1, w.2)
  | _ => none

/-! ## The L1 -/

/-- R332: loads whose value was taken before an L1 invalidation, and has not yet returned, no longer fill the L1. -/
def noFill (p : MemReq → Bool) (l : List MemReq) : List MemReq := updAll (fun r => r.served && !r.returned && p r) (fun r => { r with l1alloc := 0 }) l

/-- R167: flash-invalidate a core's L1. -/
def l1Flash (s : Dev) (core : Nat) : Dev := modCore s core (fun c => { c with l1 := [], reqs := noFill (fun _ => true) c.reqs })

/-- R359: drop the L1 sectors that a released interval of virtual addresses covers. -/
def l1DropRange (s : Dev) (core lo hi : Nat) : Dev :=
  modCore s core (fun c => { c with
    l1 := (c.l1.map (fun l =>
      { l with valid := BitVec.ofNat 8 ((bitsOf 8 l.valid.toNat).foldl (fun a i =>
          let b := l.va * 512 + 64 * i
          if decide (b < hi) && decide (lo < b + 64) then a else a + 2 ^ i) 0) })).filter (fun l => l.valid != 0),
    reqs := noFill (fun r => decide (r.va * 512 < hi) && decide (lo < r.va * 512 + 512)) c.reqs })

/-- R164, R332: a store updates the bytes of any sectors of its line that the L1 holds; an older load's response no longer
fills the line, so that the L1 never loses the core's own store. -/
def l1Update (s : Dev) (core line : Nat) (d : LineData) (mask : Nat) (poison : BitVec 8) : Dev :=
  modCore s core (fun c =>
    let full := maskFullSectors mask
    let sec := maskSectors mask
    let up (l : L1Line) : L1Line :=
      { l with data := mergeBytes 512 l.data d (Nat.land mask (sectorBytes l.valid.toNat)),
               poison := BitVec.ofNat 8 (Nat.lor (Nat.land l.poison.toNat (255 - full)) (Nat.land poison.toNat sec)) }
    { c with l1 := updAll (fun l => l.line == line) up c.l1,
             reqs := updAll (fun r => r.line == line) (fun r => { r with l1alloc := 0 }) c.reqs })

/-- The L1 set of a virtual line: address bits [13:9] (R163). -/
def l1Set (va : Nat) : Nat := va % 32

/-- R163: bring sectors into the L1. A line that must be displaced is the set's first-to-evict line, else the one the
pseudo-LRU state names, which the spec does not define further: the least recently filled or hit (log 6). -/
def l1Fill (s : Dev) (core line va : Nat) (d : LineData) (sectors poison : BitVec 8) (first : Bool) : Dev :=
  modCore s core (fun c =>
    let age := c.l1.foldl (fun a l => max a l.age) 0 + 1
    match c.l1.find? (fun l => l.line == line && l.va == va) with
    | some l =>
      let new := BitVec.ofNat 8 (Nat.land sectors.toNat (255 - l.valid.toNat))
      let l' := { l with data := mergeBytes 512 l.data d (sectorBytes new.toNat), valid := l.valid ||| new,
                         poison := (l.poison &&& l.valid) ||| (poison &&& new), age := age }
      { c with l1 := updFirst (fun x => x.line == line && x.va == va) (fun _ => l') c.l1 }
    | none =>
      let set := c.l1.filter (fun x => l1Set x.va == l1Set va)
      let oldest (q : List L1Line) : Option L1Line := match q with
        | [] => none
        | x :: t => some (t.foldl (fun a b => if b.age < a.age then b else a) x)
      let out : Option L1Line := if set.length < 8 then none
        else match oldest (set.filter (fun x => x.evictFirst)) with
          | some x => some x
          | none => oldest set
      let l1 := match out with
        | some v => c.l1.filter (fun x => !(x.line == v.line && x.va == v.va))
        | none => c.l1
      { c with l1 := l1 ++ [{ line := line, va := va, valid := sectors, poison := poison &&& sectors, data := d, evictFirst := first, age := age }] })

/-- R163: a hit makes a line the most recently used. -/
def l1Touch (s : Dev) (core line va : Nat) : Dev :=
  modCore s core (fun c =>
    let age := c.l1.foldl (fun a l => max a l.age) 0 + 1
    { c with l1 := updFirst (fun x => x.line == line && x.va == va) (fun x => { x with age := age }) c.l1 })

/-! ## The store buffer -/

/-- R165: bytes of a line held by a core's store buffer, youngest store last: data, byte mask, poison of sectors. -/
def sbBytes (s : Dev) (core line : Nat) : LineData × Nat × BitVec 8 :=
  (getCore s core).sb.foldl (fun (acc : LineData × Nat × BitVec 8) e =>
    if e.line = line then
      let full := maskFullSectors e.mask.toNat
      (mergeBytes 512 acc.1 e.data e.mask.toNat, Nat.lor acc.2.1 e.mask.toNat,
        BitVec.ofNat 8 (Nat.lor (Nat.land acc.2.2.toNat (255 - full)) e.poison.toNat))
    else acc) (0, 0, 0)

/-- Update a store-buffer entry by its age number. -/
def modSb (s : Dev) (core seq : Nat) (f : SbEntry → SbEntry) : Dev :=
  modCore s core (fun c => { c with sb := updFirst (fun e => e.seq == seq) f c.sb })

/-- Free a store-buffer entry. -/
def freeSb (s : Dev) (core seq : Nat) : Dev :=
  modCore s core (fun c => { c with sb := c.sb.filter (fun e => e.seq != seq) })

/-- R351: seal every OPEN entry of a core that satisfies `p`. -/
def sealSb (s : Dev) (core : Nat) (p : SbEntry → Bool) : Dev :=
  modCore s core (fun c => { c with sb := updAll (fun e => e.st == .open && p e) (fun e => { e with st := .sealed }) c.sb })

/-- R370, R373, R750: note in the groups and commands of a write that it was lost, with the status a wait for it gives. -/
def noteLost (s : Dev) (core : Nat) (groups : BitVec 16) (cmds : List Nat) (level status : Nat) : Dev :=
  let s := (List.range 16).foldl (fun s i =>
    if groups.getLsbD i then
      modGroup s core i (fun g => if cmds.contains g.cmd && !g.lost.contains (level, status) then { g with lost := g.lost ++ [(level, status)] } else g)
    else s) s
  cmds.foldl (fun s k => modCmd s k (fun c => if c.lost.contains status then c else { c with lost := c.lost ++ [status] })) s

/-- R330: a write of `who` to far ports is in flight while `f` applies it. -/
def inFlight (who : Nat) (f : Dev → Dev × α) (s : Dev) : Dev × α :=
  let (s, a) := f (modMs s (fun m => { m with who := some who }))
  (modMs s (fun m => { m with who := none }), a)

/-- R289, R330: the far ports have completed the writes of `who`: older writes in flight no longer stand behind its bytes. -/
def farDone (s : Dev) (who : Nat) : Dev :=
  modMs s (fun m => { m with farOut := (m.farOut.foldr (fun o (acc : List FarOut × List FarOut) =>
    if o.who = who then (acc.1, o :: acc.2)
    else
      let later := (acc.2.filter (fun d => d.line == o.line)).foldl (fun (b : BitVec 512) d => b ||| d.mask) 0
      let o' := { o with mask := o.mask &&& ~~~later }
      (if o'.mask = 0 then acc.1 else o' :: acc.1, acc.2)) ([], [])).1 })

/-- R330, R349: an entry reaches its point of coherence. It is applied, or dropped at a dead destination or refused by a peer module and
freed; the failing status if the access is refused. -/
def sbApply (s : Dev) (core : Nat) (e : SbEntry) : Dev × Option Nat :=
  let pa := e.line * 512
  let peer := match placeOf s pa with
    | .peer => some s.nextKey
    | _ => none
  let (s, r) := inFlight e.seq (fun s => writePa s (coreEntry core) e.tag pa e.attr e.data e.mask.toNat e.poison (soleThread core e.writers) (e.cmds.headD 0)) s
  if r.err.isSome then
    if peer.isSome then (freeSb (noteLost s core e.groups e.cmds (lostLevel s pa) 0x02) core e.seq, none) else (freeSb s core e.seq, r.err)
  else if r.lost then (freeSb (noteLost s core e.groups e.cmds (lostLevel s pa) 0x08) core e.seq, none)
  else (launch (0x400 + core) (modSb s core e.seq (fun e => { e with st := .sent, applied := true, peer := peer })), none)

/-! ## Requests at their points of coherence -/

/-- Update a request of a core. -/
def modReq (s : Dev) (core id : Nat) (f : MemReq → MemReq) : Dev :=
  modCore s core (fun c => { c with reqs := updFirst (fun r => r.id == id) f c.reqs })

/-- A destination that answers nothing: reads deliver poison and writes are dropped (R62, R369). -/
def deadPlace (s : Dev) (pa : Nat) (attr : PageAttr) : Bool :=
  match placeOf s pa with
  | .tier => cohDead s pa attr
  | .spad cl _ => dieLost s (cl / 24)
  | .host p _ => hostDead s p
  | .peer => peerUse s (peerMod pa) == .dead
  | _ => false

/-- A read of sectors of a line by a core at the point of coherence, outside the peer windows. -/
def lineRead (s : Dev) (core tag pa : Nat) (attr : PageAttr) (sectors : BitVec 8) : Dev × RdRes :=
  match placeOf s pa with
  | .tier => cohRead s (coreEntry core) tag pa attr sectors .demand
  | _ =>
    (bitsOf 8 sectors.toNat).foldl (fun (acc : Dev × RdRes) i =>
      let (s, r) := acc
      let (s, a) := readPa s none tag (pa / 512 * 512 + 64 * i) 64 attr
      match a.err with
      | some e => (s, { r with err := some e })
      | none => (s, { data := putSector r.data i (BitVec.ofNat 512 (accNat a.bytes)), poison := putBit r.poison i (anyPoison a.bytes), err := r.err })) (s, RdRes.nil)

/-- R182: the elements of one atomic request applied in ascending lane order; each lane's old value. -/
def atomFold (r : MemReq) (d : LineData) : LineData × List (Nat × Nat) :=
  r.elems.foldl (fun (acc : LineData × List (Nat × Nat)) e =>
    let old := lineNat acc.1 e.off r.size
    let new := (atomElem r.aop r.dt (r.size == 8) old e.opnd e.cmp).1
    (putNat acc.1 e.off r.size new, acc.2 ++ [(e.lane, old)])) (d, [])

/-- R77, R180: the flags of a floating-point atomic. -/
def atomFlags (r : MemReq) (d : LineData) : ArithFlags :=
  (r.elems.foldl (fun (acc : LineData × ArithFlags) e =>
    let a := atomElem r.aop r.dt (r.size == 8) (lineNat acc.1 e.off r.size) e.opnd e.cmp
    (putNat acc.1 e.off r.size a.1, acc.2 ||| a.2)) (d, 0)).2

/-- The byte mask of a request's elements, and the sectors of those whose operand is poisoned. -/
def elemMask (r : MemReq) : Nat := r.elems.foldl (fun a e => Nat.lor a ((2 ^ r.size - 1) * 2 ^ e.off)) 0
def elemPoison (r : MemReq) : BitVec 8 :=
  r.elems.foldl (fun a e => if e.poison then a ||| BitVec.ofNat 8 (2 ^ (e.off / 64)) else a) 0

/-- A read-modify-write at a scratchpad's window unit (R246): the line before, its poison. -/
def spadRmw (s : Dev) (cl off : Nat) (mask : Nat) (poison : BitVec 8) (w : Writer) (f : LineData → LineData) : Dev × LineData × BitVec 8 :=
  let base := off / 512 * 512
  let a := cl * 0x800000 + base
  let d : LineData := BitVec.ofNat 4096 (readNat s.ms.spad a 512)
  let p := BitVec.ofNat 8 ((List.range 8).foldl (fun m i => if s.ms.spadPoison.contains (a / 64 + i) then m + 2 ^ i else m) 0)
  let new := f d
  let s := (List.range 8).foldl (fun s i =>
    let m := nField mask (64 * i + 63) (64 * i)
    if m = 0 then s
    else spadWrite s cl (base + 64 * i) (lineSector new i).toNat m 64 (poison.getLsbD i || p.getLsbD i) (fun _ => w i)) s
  (s, d, p)

/-- The result of an atomic, reserved load or conditional store at its point of coherence. -/
structure AtomRes where
  results : List (Nat × Nat)
  poison : BitVec 8
  err : Option Nat
  lost : Bool
  /-- The flags a floating-point operation sets (R77). -/
  fl : ArithFlags := 0
deriving DecidableEq, Repr

/-- Where a reservation on an address is held (R183, R246). -/
def resvHome (s : Dev) (pa : Nat) (attr : PageAttr) : Nat :=
  match placeOf s pa with
  | .spad cl _ => 100 + cl
  | _ => (homeAgent s pa attr.home).getD 99

/-- R183: set a thread's reservation; its earlier one is replaced, and a full table evicts its oldest entry. -/
def setResv (s : Dev) (home : Nat) (t : Thread) (sector : Nat) : Dev :=
  modMs s (fun m =>
    let l := m.resv.filter (fun r => !(r.core == t.1 && r.slot == t.2.1 && r.lane == t.2.2))
    let l := if (l.filter (fun r => r.home == home)).length < 64 then l
      else match l.find? (fun r => r.home == home) with
        | some o => l.erase o
        | none => l
    { m with resv := l ++ [{ home := home, core := t.1, slot := t.2.1, lane := t.2.2, sector := sector }] })

/-- Clear a thread's reservation. -/
def clearThread (s : Dev) (t : Thread) : Dev :=
  modMs s (fun m => { m with resv := m.resv.filter (fun r => !(r.core == t.1 && r.slot == t.2.1 && r.lane == t.2.2)) })

/-- Whether a thread holds a reservation on a sector. -/
def holdsResv (s : Dev) (t : Thread) (sector : Nat) : Bool :=
  s.ms.resv.any (fun r => r.core == t.1 && r.slot == t.2.1 && r.lane == t.2.2 && r.sector == sector)

/-- An operation on nothing yet. -/
def AtomRes.start : AtomRes := { results := [], poison := 0, err := none, lost := false }

/-- A frame of the tiers that a slice has written is noted where it logs its writes (R548). -/
def stageWrite (s : Dev) (tag pa : Nat) (w : WrRes) : Dev := if w.err.isNone && !w.lost then dlogStage s tag .tier pa else s

/-- R183, R301, R364: an LDR reads at the point of coherence and sets its threads' reservations. -/
def serveLdr (rmw : RmwFn) (s : Dev) (core tag : Nat) (r : MemReq) : Dev × AtomRes :=
  let pa := r.line * 512
  let (s, a) := match placeOf s pa with
    | .tier =>
      let (s, d, p, w) := rmw s tag pa r.attr { kind := .ldr, entry := coreEntry core, need := r.sectors, mask := 0, poison := 0, thr := noThread, f := id }
      (s, ({ data := d, poison := p, err := w.err } : RdRes))
    | _ => lineRead s core tag pa r.attr r.sectors
  if a.err.isSome then (s, { AtomRes.start with err := a.err })
  else
    (r.elems.foldl (fun s e => setResv s (resvHome s pa r.attr) (core, r.slot, e.lane) (pa / 64 + e.off / 64)) s,
      { AtomRes.start with results := r.elems.map (fun e => (e.lane, lineNat a.data e.off r.size)), poison := a.poison })

/-- R184, R301, R364: the write of one lane's successful STC at the point of coherence. -/
def stcWrite (rmw : RmwFn) (s : Dev) (core tag : Nat) (r : MemReq) (e : LaneElem) : Dev × WrRes :=
  let pa := r.line * 512
  let mask := (2 ^ r.size - 1) * 2 ^ e.off
  let pz : BitVec 8 := if e.poison then BitVec.ofNat 8 (2 ^ (e.off / 64)) else 0
  let thr : Writer := fun _ => some (core, r.slot, e.lane)
  match placeOf s pa with
  | .tier =>
    let (s, _, _, w) := rmw s tag pa r.attr { kind := .stc, entry := coreEntry core, need := BitVec.ofNat 8 (2 ^ (e.off / 64)), mask := mask, poison := pz, thr := thr, f := fun d => putNat d e.off r.size e.opnd }
    (stageWrite s tag pa w, w)
  | _ => writePa s (coreEntry core) tag pa r.attr (putNat 0 e.off r.size e.opnd) mask pz thr 0

/-- R184, R185: an STC, lane by lane in ascending order: 0 for a lane whose reservation stands, which writes, and 1 for another. -/
def serveStc (rmw : RmwFn) (s : Dev) (core tag : Nat) (r : MemReq) : Dev × AtomRes :=
  r.elems.foldl (fun (acc : Dev × AtomRes) e =>
    let (s, a) := acc
    let t : Thread := (core, r.slot, e.lane)
    if a.err.isSome then (s, a)
    else if holdsResv s t (r.line * 8 + e.off / 64) then
      let (s, w) := stcWrite rmw s core tag r e
      (clearThread s t, { a with results := a.results ++ [(e.lane, 0)], err := w.err, lost := a.lost || w.lost })
    else (clearThread s t, { a with results := a.results ++ [(e.lane, 1)] })) (s, AtomRes.start)

/-- R179 to R182, R246, R301: an ATOM at a window unit or at the line's home. -/
def serveAtom (rmw : RmwFn) (s : Dev) (core tag : Nat) (r : MemReq) : Dev × AtomRes :=
  let pa := r.line * 512
  let w := soleThread core (r.elems.map (fun e => (e.off / 64, r.slot, e.lane)))
  match placeOf s pa with
  | .spad cl off =>
    if spadOwner s tag cl then
      let (s, d, p) := spadRmw s cl off (elemMask r) (elemPoison r) w (fun d => (atomFold r d).1)
      (s, { AtomRes.start with results := (atomFold r d).2, poison := p, fl := atomFlags r d })
    else (s, { AtomRes.start with err := some 0x02 })
  | .tier =>
    let (s, d, p, wr) := rmw s tag pa r.attr { kind := .op (r.vd != 255), entry := coreEntry core, need := r.sectors, mask := elemMask r, poison := elemPoison r, thr := w, f := fun d => (atomFold r d).1 }
    (stageWrite s tag pa wr, { AtomRes.start with results := (atomFold r d).2, poison := p, err := wr.err, lost := wr.lost, fl := if wr.lost then 0 else atomFlags r d })
  | _ => (s, { AtomRes.start with err := some 0x02 })

/-- R179 to R185, R301, R364, R370: serve an atomic, LDR or STC request at its point of coherence; a dead destination performs no write and
gives poison in each lane. `rmw` is where an operation on a tier line is performed. -/
def atomServe (rmw : RmwFn) (s : Dev) (core tag : Nat) (r : MemReq) : Dev × AtomRes :=
  if deadPlace s (r.line * 512) r.attr then
    let s := r.elems.foldl (fun s e => if r.kind == .stc then clearThread s (core, r.slot, e.lane) else s) s
    (bumpFree s, { AtomRes.start with results := r.elems.map (fun e => (e.lane, (Config.poisonData s.free).toNat % 2 ^ (8 * r.size))), poison := 255, lost := true })
  else
    match r.kind with
    | .ldr => serveLdr rmw s core tag r
    | .stc => serveStc rmw s core tag r
    | _ => serveAtom rmw s core tag r

end Sys2Proof.Machine
end

