-- ==== Sys2Proof/Machine/TileData.lean ====
section
/-! DEFINITION. Sys2Proof/Machine/TileData.lean: what the engines of a cluster have in flight, and what of it is written: tile descriptors
and the place of an element (R112 to R114), runs of bytes in a scratchpad (R247, R265), matrix operations with their held copies and the
output of a DRAIN (R111, R128, R135, R136), and the output ports of a fabric run (R220 to R222). -/

namespace Sys2Proof.Machine

open Sys2Proof

/-! ## Tile descriptors (R112) -/

/-- OFFSET, STRIDE, FMT, MAJOR and REUSE of word 0. -/
def dOFFSET (d0 : Word) : Nat := fld d0 22 0
def dSTRIDE (d0 : Word) : Nat := fld d0 46 24
def dFMT (d0 : Word) : Nat := fld d0 51 48
def dMAJOR (d0 : Word) : Bool := bit d0 52
def dREUSE (d0 : Word) : Bool := bit d0 53
/-- SCALE, EXT_X and EXT_MN of word 1. -/
def dSCALE (d1 : Word) : Nat := fld d1 63 32
def dEXTX (d1 : Word) : Nat := fld d1 16 8
def dEXTMN (d1 : Word) : Nat := fld d1 6 0

/-- R112: the res fields are zero. -/
def descResZero (d0 d1 : Word) : Bool := fld d0 63 54 == 0 && fld d0 47 47 == 0 && fld d0 23 23 == 0 && fld d1 31 17 == 0 && fld d1 7 7 == 0

/-- R113: the outer and inner extents. -/
def dOuter (d0 d1 : Word) : Nat := if dMAJOR d0 then dEXTX d1 + 1 else dEXTMN d1 + 1
def dInner (d0 d1 : Word) : Nat := if dMAJOR d0 then dEXTMN d1 + 1 else dEXTX d1 + 1

/-- R114: bytes of the run of an outer line, and of the span, in a format of `w` bits. -/
def dRun (d0 d1 : Word) (w : Nat) : Nat := ceilDiv (dInner d0 d1 * w) 8
def dSpan (d0 d1 : Word) (w : Nat) : Nat := (dOuter d0 d1 - 1) * dSTRIDE d0 + dRun d0 d1 w

/-- R116: OFFSET and STRIDE are multiples of 32, and the outer lines do not overlap. -/
def descShapeOk (d0 d1 : Word) (w : Nat) : Bool :=
  dOFFSET d0 % 32 == 0 && dSTRIDE d0 % 32 == 0 && (dOuter d0 d1 == 1 || decide (dRun d0 d1 w ≤ dSTRIDE d0))

/-- R117: whether a tile's span reaches beyond the scratchpad. -/
def spanBeyond (d0 d1 : Word) (w : Nat) : Bool := decide (spadSize < dOFFSET d0 + dSpan d0 d1 w)

/-- R114: the element at outer index `o` and inner index `n` of a tile held as a little-endian number. -/
def elemAt (data stride w o n : Nat) : Nat := data / 2 ^ (8 * o * stride + n * w) % 2 ^ w

/-! ## Runs of bytes in a scratchpad -/

/-- The key of a scratchpad byte. -/
def spadKey (cl off : Nat) : Nat := cl * 0x800000 + off

/-- A run of bytes of a scratchpad, as a little-endian number. -/
def spadNum (s : Dev) (cl off n : Nat) : Nat := readNat s.ms.spad (spadKey cl off) n

/-- Whether a granule that a run touches is poisoned (R247). -/
def spadRunPoison (s : Dev) (cl off n : Nat) : Bool :=
  n != 0 && s.ms.spadPoison.any (fun g => decide (spadKey cl off / 64 ≤ g) && decide (g ≤ (spadKey cl off + n - 1) / 64))

/-- R101, R132: the bytes of a tile's outer lines, as one number over its span, and whether any granule read is poisoned. -/
def tileData (s : Dev) (cl : Nat) (d0 d1 : Word) (w : Nat) : Nat × Bool :=
  (List.range (dOuter d0 d1)).foldl (fun (a : Nat × Bool) o =>
    let off := dOFFSET d0 + o * dSTRIDE d0
    (a.1 + spadNum s cl off (dRun d0 d1 w) * 2 ^ (8 * o * dSTRIDE d0), a.2 || spadRunPoison s cl off (dRun d0 d1 w))) (0, false)

/-- R247, R265: write a run of `n` bytes granule by granule; `pz` says which granules (by the offset of their first byte) take
poison. -/
def spadWriteRun (s : Dev) (cl off n data : Nat) (pz : Nat → Bool) : Dev :=
  if n = 0 then s
  else
    (List.range ((off + n - 1) / 64 - off / 64 + 1)).foldl (fun s i =>
      let g := (off / 64 + i) * 64
      let lo := max off g
      let hi := min (off + n) (g + 64)
      let x := data / 2 ^ (8 * (lo - off)) % 2 ^ (8 * (hi - lo))
      spadWrite s cl g (x * 2 ^ (8 * (lo - g))) ((2 ^ (hi - lo) - 1) * 2 ^ (lo - g)) 64 (pz g) noThread) s

/-! ## The random word of stochastic rounding -/

/-- R480: SR_SEED of a KERNEL command. -/
def cmdSeed (s : Dev) (key : Nat) : Word :=
  match getCmd s key with
  | some c => BitVec.ofNat 64 (fld c.desc 319 256)
  | none => 0

/-- R115: SR_STREAM, COL0 and ROW0 of an origin word. -/
def oSTREAM (w : Word) : Nat := fld w 63 48
def oCOL0 (w : Word) : Nat := fld w 47 24
def oROW0 (w : Word) : Nat := fld w 23 0

/-! ## Matrix operations -/

def xcPORT (w : Word) : Nat := fld w 18 16
def xcDEST (w : Word) : Bool := bit w 15
def xcSAT (w : Word) : Bool := bit w 14
def xcRND (w : Word) : Nat := fld w 13 12
def xcIACC (w : Word) : Bool := bit w 10
def xcPASS (w : Word) : Nat := fld w 9 8
/-- ZERO of an MMA, CLEAR of a DRAIN. -/
def xcZERO (w : Word) : Bool := bit w 6
def xcTILE (w : Word) : Nat := fld w 5 4
def xcOP (w : Word) : Nat := fld w 3 0

/-! ## Operand reuse (R135) -/

/-- The six descriptor fields compared. -/
def reuseKey (d0 d1 : Word) : Nat × Nat × Nat × Bool × Nat × Nat :=
  (dOFFSET d0, dSTRIDE d0, dFMT d0, dMAJOR d0, dEXTMN d1, dEXTX d1)

/-- The MMAs issued and not completed, oldest first. -/
def pendingMmas (c : Core) : List MxOp := c.arrayLane.toList ++ c.arrayNext.toList ++ c.mq.filter (fun o => xcOP o.ctrl == 1)

/-- R135: whether a side's operand with REUSE is the operand that the side will hold: that of the latest earlier MMA, `prev`, or where there
is none the copy held. `left` is side A. -/
def reuseFrom (held : Option Held) (prev : Option MxOp) (left : Bool) (d0 d1 : Word) : Bool :=
  match prev with
  | some o => if left then !o.staleA && reuseKey o.a0 o.a1 == reuseKey d0 d1 else !o.staleB && reuseKey o.b0 o.b1 == reuseKey d0 d1
  | none =>
    match held with
    | some h => h.valid && reuseKey h.d0 h.d1 == reuseKey d0 d1
    | none => false

/-- R135: whether a side's operand is matched at issue, against the copy the side will hold. -/
def reuseMatch (c : Core) (left : Bool) (d0 d1 : Word) : Bool :=
  dREUSE d0 && reuseFrom (if left then c.heldA else c.heldB) (pendingMmas c).getLast? left d0 d1

/-- R135, R139, R143: the queue without a command's operations. An MMA whose match was against a discarded one is judged again, against the copy
its sides will hold now (DEDUCED, log 87). `gone` says that the MMA before it was discarded, and `prev` is the latest one that stays. -/
def dropQueued (c : Core) (key : Nat) (gone : Bool) (prev : Option MxOp) : List MxOp → List MxOp
  | [] => []
  | o :: t =>
    if o.cmd = key then dropQueued c key (gone || xcOP o.ctrl == 1) prev t
    else if xcOP o.ctrl ≠ 1 then o :: dropQueued c key gone prev t
    else
      let o := if gone then { o with reuseA := o.reuseA && reuseFrom c.heldA prev true o.a0 o.a1, reuseB := o.reuseB && reuseFrom c.heldB prev false o.b0 o.b1 } else o
      o :: dropQueued c key false (some o) t

/-! ## Held copies of matrix operands (R136) -/

/-- Bits of an element of a format code (0 for a reserved one). -/
def codeBits (c : Nat) : Nat :=
  match fmtOfCode c with
  | some f => fmtBits f
  | none => 0

/-- Whether two half-open intervals meet. -/
def overlaps (a b c d : Nat) : Bool := decide (a < d) && decide (c < b)

/-- Whether a write of bytes `[lo, hi)` of the core's scratchpad meets the span of a descriptor. -/
def spanMeets (d0 d1 : Word) (lo hi : Nat) : Bool :=
  overlaps lo hi (dOFFSET d0) (dOFFSET d0 + dSpan d0 d1 (codeBits (dFMT d0)))

/-- R136: a write by the core to bytes `[lo, hi)` of its cluster's scratchpad invalidates the held copies it meets, and those
that the MMAs issued before it will leave. -/
def heldInval (s : Dev) (core lo hi : Nat) : Dev :=
  let hit (h : Option Held) : Option Held := match h with
    | some x => if spanMeets x.d0 x.d1 lo hi then some { x with valid := false } else some x
    | none => none
  let stale (o : MxOp) : MxOp :=
    { o with staleA := o.staleA || spanMeets o.a0 o.a1 lo hi, staleB := o.staleB || spanMeets o.b0 o.b1 lo hi }
  modCore s core (fun c => { c with heldA := hit c.heldA, heldB := hit c.heldB, mq := c.mq.map stale, arrayLane := c.arrayLane.map stale, arrayNext := c.arrayNext.map stale })

/-- The accumulator tile of an operation. -/
def getTile (c : Core) (t : Nat) : Tile := tabGet (fun _ => Tile.init) c.tiles t
def setTile (s : Dev) (core t : Nat) (x : Tile) : Dev := modCore s core (fun c => { c with tiles := tabSet (fun _ => Tile.init) c.tiles t x })

/-- The operand scales a DRAIN applies (R107). -/
def tileScales (t : Tile) : Nat × Nat :=
  match t.scl with
  | some (a, b) => (a.toNat, b.toNat)
  | none => (0x3F800000, 0x3F800000)

/-- R128: the value a DRAIN emits for one word, with its flags. -/
def drainElem (t : Tile) (f : NumFmt) (ctrl : Word) (sOut : Nat) (seed : Word) (origin : Word) (r c : Nat) : Nat × ArithFlags :=
  let acc := (tabGet (fun _ => 0) t.words (128 * r + c)).toNat
  let (sA, sB) := tileScales t
  let unit := sA == 0x3F800000 && sB == 0x3F800000 && sOut == 0x3F800000
  if !t.int && f == .fp32 && unit then (acc, 0)
  else if t.int && !fmtIsFloat f && unit then intConvert f (xcSAT ctrl) (sextNat 32 acc)
  else
    let x := if t.int then int32ToFp32 acc else acc
    let (sc, f0) := mul32 sA sB
    let (y, f1) := mul32 x sc
    let (z, f2) := mul32 y sOut
    let rw := srBits seed (oSTREAM origin) (srIndex (oROW0 origin + r) (oCOL0 origin + c))
    let (o, f3) := convertBits .fp32 f ((rndOfCode (xcRND ctrl)).getD .rne) (xcSAT ctrl) rw z
    (o, f0 ||| f1 ||| f2 ||| f3)

/-- Row and column of an element of a source or output tile (R113). -/
def tileRC (d0 : Word) (o n : Nat) : Nat × Nat := if dMAJOR d0 then (n, o) else (o, n)

/-- The elements of outer line `o` of a DRAIN, in ascending inner index, with their flags. -/
def drainLine (t : Tile) (f : NumFmt) (op : MxOp) (seed : Word) (o : Nat) : List (Nat × ArithFlags) :=
  (List.range (dInner op.a0 op.a1)).map (fun n =>
    drainElem t f op.ctrl (dSCALE op.a1) seed op.origin (tileRC op.a0 o n).1 (tileRC op.a0 o n).2)

/-- The format of a DRAIN's output. -/
def outFmt (op : MxOp) : NumFmt := (fmtOfCode (dFMT op.a0)).getD .fp32

/-- The flags of a DRAIN (R141). -/
def drainFlags (t : Tile) (op : MxOp) (seed : Word) : ArithFlags :=
  (List.range (dOuter op.a0 op.a1)).foldl (fun a o => (drainLine t (outFmt op) op seed o).foldl (fun a x => a ||| x.2) a) 0

/-- R128, R129, R140: a DRAIN writes the first `n` outer lines of its output to the scratchpad, in ascending order. -/
def drainRows (s : Dev) (core : Nat) (o : MxOp) (n : Nat) : Dev :=
  let t := getTile (getCore s core) (xcTILE o.ctrl)
  let seed := cmdSeed s o.cmd
  let w := fmtBits (outFmt o)
  (List.range n).foldl (fun s k =>
    let els := drainLine t (outFmt o) o seed k
    let data := ((List.range els.length).zip els).foldl (fun a e => a + e.2.1 * 2 ^ (e.1 * w)) 0
    spadWriteRun s (coreCluster core) (dOFFSET o.a0 + k * dSTRIDE o.a0) (dRun o.a0 o.a1 w) data (fun _ => t.poison || o.opPoison)) s

/-- A DRAIN writes its whole output. -/
def drainWrite (s : Dev) (core : Nat) (o : MxOp) : Dev := drainRows s core o (dOuter o.a0 o.a1)

/-! ## Output ports of a fabric run -/

/-- The active context of a cluster. -/
def actCtx (c : Cluster) : FabCtx := if c.actB then c.ctxB else c.ctxA

/-- Entry `n` of a port table. -/
def ptEntry (t : List (Word × Word)) (n : Nat) : Word × Word := t.getD n (0, 0)

/-- R220, R221: write elements of an output tile, from element `e` on, as their bytes are complete; what is left of a byte is held back, or
with `all` is written with its other bits zero (DEDUCED, log 88). -/
def putElems (cl : Nat) (d0 d1 : Word) (w : Nat) (all : Bool) : Dev → Nat → List (Nat × Bool) → Dev × List (Nat × Bool)
  | s, _, [] => (s, [])
  | s, e, [x] =>
    let off := dOFFSET d0 + e / dInner d0 d1 * dSTRIDE d0 + e % dInner d0 d1 * w / 8
    if 8 ≤ w ∨ e % dInner d0 d1 + 1 = dInner d0 d1 ∨ all = true then (spadWriteRun s cl off (ceilDiv w 8) x.1 (fun _ => x.2), []) else (s, [x])
  | s, e, x :: y :: t =>
    let off := dOFFSET d0 + e / dInner d0 d1 * dSTRIDE d0 + e % dInner d0 d1 * w / 8
    if 8 ≤ w ∨ e % dInner d0 d1 + 1 = dInner d0 d1 then putElems cl d0 d1 w all (spadWriteRun s cl off (ceilDiv w 8) x.1 (fun _ => x.2)) (e + 1) (y :: t)
    else putElems cl d0 d1 w all (spadWriteRun s cl off 1 (x.1 + 2 ^ w * y.1) (fun _ => x.2 || y.2)) (e + 2) t

/-- The run-time state of an output port. -/
def getOut (r : FabRun) (p : Nat) : OutPort := tabGet (fun _ => { n := 0, held := [] }) r.outs p
def setOut (r : FabRun) (p : Nat) (x : OutPort) : FabRun := { r with outs := tabSet (fun _ => { n := 0, held := [] }) r.outs p x }

/-- R221, R240: an output port writes what it holds: the complete bytes, or with `all` everything. -/
def writeOut (cl : Nat) (all : Bool) (a : Dev × FabRun) (p : Nat) : Dev × FabRun :=
  let x := getOut a.2 p
  let d := ptEntry a.2.ptab (8 + p)
  let (s, rest) := putElems cl d.1 d.2 (codeBits (dFMT d.1)) all a.1 (x.n - x.held.length) x.held
  (s, setOut a.2 p { x with held := rest })

/-- The output ports of a run write. -/
def writeOuts (s : Dev) (cl : Nat) (all : Bool) (r : FabRun) : Dev × FabRun := (List.range 8).foldl (writeOut cl all) (s, r)

/-! ## What an operation that is stopped leaves -/

/-- R143: a DRAIN of a command that is stopped in its transfer leaves the lines it has written. -/
def cutDrain (s : Dev) (key core : Nat) : Dev :=
  match (getCore s core).xferLane with
  | none => s
  | some o =>
    if o.cmd ≠ key ∨ xcOP o.ctrl ≠ 3 ∨ xcDEST o.ctrl = true then s
    else bumpFree (drainRows s core o (Config.cutLines s.free % (dOuter o.a0 o.a1 + 1)))

/-- R241: the run of a command that is stopped leaves the elements appended. -/
def cutRun (s : Dev) (key cl : Nat) : Dev :=
  match (getCl s cl).run with
  | none => s
  | some r => if r.op.cmd = key then (writeOuts s cl true r).1 else s

end Sys2Proof.Machine
end

