-- ==== Sys2Proof/Machine/Stop.lean ====
section
/-! DEFINITION. Sys2Proof/Machine/Stop.lean: how a command ends: completion records and their messages (R475, R491 to
R495), the first failing status, stopping a command (R207), exceptions (R204, R205) and the end of groups, blocks
and KERNELs (R145, R482). -/

namespace Sys2Proof.Machine

open Sys2Proof

/-! ## Descriptor header fields (R477) -/

/-- OPCODE, SERIAL, IDEM, TIMEOUT, LAYER_ID, OP_ID, JOB_ID, OPW. -/
def dOpcode (d : Block64) : Nat := fld d 7 0
def dSerial (d : Block64) : Bool := bit d 8
def dIdem (d : Block64) : Bool := bit d 9
def dTimeout (d : Block64) : Nat := fld d 31 16
def dLayer (d : Block64) : Nat := fld d 47 32
def dOp (d : Block64) : Nat := fld d 63 48
def dJob (d : Block64) : Nat := fld d 95 64
def dOpw (d : Block64) : Nat := fld d 127 96

/-! ## Completion records -/

/-- R602: a run's energy in µJ, rounded to the nearest, in the 32 bits that hold it. -/
def energyUj (c : Cmd) : Nat := min ((c.energy + 500) / 1000) (2 ^ 32 - 1)

/-- R610: add to the runs' energy of a slice, in nJ, and show it. -/
def creditJob (s : Dev) (slice nj : Nat) : Dev :=
  let e := tabGet (fun _ => 0) s.pw.eJob slice + nj
  setF { s with pw := { s.pw with eJob := tabSet (fun _ => 0) s.pw.eJob slice e } } (fPW_E_JOB_JOB_UJ slice) (e / 1000)

/-- R491: the 32-byte completion record. -/
def recordBytes (c : Cmd) (status : Nat) (tEnd : Word) : List Byte :=
  leBytes 32 (dJob c.desc + 2 ^ 32 * status + 2 ^ 40 * c.flags.toNat + 2 ^ 48 * (c.index % 2 ^ 16)
    + 2 ^ 64 * energyUj c + 2 ^ 96 * c.tStart.toNat + 2 ^ 160 * tEnd.toNat)

/-- The slice that owns a channel. -/
def chanSlice (s : Dev) (c : Nat) : Nat := getF s (fCH_STATUS_SLICE c)

/-- The completion-ring bookkeeping of a channel. -/
def getCqr (s : Dev) (c q : Nat) : CqRun := tabGet (fun _ => { count := 0, first := 0 }) (getCh s c).cqr q
def setCqr (s : Dev) (c q : Nat) (r : CqRun) : Dev :=
  modCh s c (fun ch => { ch with cqr := tabSet (fun _ => { count := 0, first := 0 }) ch.cqr q r })

/-- R495: send the message of a completion ring. -/
def cqMessage (s : Dev) (c q : Nat) : Dev :=
  let s := setCqr s c q { count := 0, first := 0 }
  sendMsix s (portOf (getF s (fCH_CQ_CFG_PORT c q))) (if getF s (fCH_CQ_CFG_VFV c q) = 1 then some (chanSlice s c) else none) (getF s (fCH_CQ_CFG_VECTOR c q))

/-- R495: count one record written, and send the message when it is due. -/
def cqCount (s : Dev) (c q : Nat) : Dev :=
  if getF s (fCH_CQ_CFG_IRQ_EN c q) = 0 then s
  else
    let r := getCqr s c q
    let n := r.count + 1
    if max 1 (getF s (fCH_CQ_CFG_MOD_CNT c q)) ≤ n then cqMessage s c q
    else setCqr s c q { count := n, first := if r.count = 0 then s.now else r.first }

/-- R475: write a command's record at TAIL of its completion ring, advance TAIL, write the tail word, and send the message
when due. A ring that is not ACTIVE, or whose port is down, gets no record (R476, R497). -/
def writeRecord (s : Dev) (c : Cmd) (status : Nat) : Dev :=
  let q := c.cq
  if getF s (fCH_CQ_STATE_STATE c.chan q) ≠ 1 ∨ !portUp s (portOf (getF s (fCH_CQ_CFG_PORT c.chan q))) then s
  else
    let p := portOf (getF s (fCH_CQ_CFG_PORT c.chan q))
    let pas := some (getF s (fCH_CQ_CFG_PASID c.chan q))
    let size := 2 ^ getF s (fCH_CQ_CFG_LOG2SZ c.chan q)
    let tail := getF s (fCH_CQ_STATE_TAIL c.chan q)
    let s := hostWrite s p pas (64 * getF s (fCH_CQ_BASE_ADDR c.chan q) + 32 * tail) (recordBytes c status (timeBase s))
    let s := setF s (fCH_CQ_STATE_TAIL c.chan q) ((tail + 1) % size)
    let s := hostWrite s p pas (8 * getF s (fCH_CQ_WB_ADDR c.chan q)) (leBytes 8 ((tail + 1) % size))
    let s := dlogStage s c.tag (.host p (64 * getF s (fCH_CQ_BASE_ADDR c.chan q) + 32 * tail)) 0
    let s := dlogStage s c.tag (.host p (8 * getF s (fCH_CQ_WB_ADDR c.chan q))) 0
    cqCount s c.chan q

/-- R472, R503: a channel's in-flight count, as its register shows it. -/
def syncInflight (s : Dev) (c : Nat) : Dev := setF s (fCH_STATUS_INFLIGHT c) ((s.cmds.filter (fun x => x.chan == c)).length)

/-- Whether a status is a failing one (R490, R493). -/
def failing (st : Nat) : Bool := !(st == 0 || st == 1 || st == 4)

/-- The ERRSTOP bookkeeping of a submission ring. -/
def getSqr (s : Dev) (c q : Nat) : SqRun := tabGet (fun _ => { failed := false, aborting := false }) (getCh s c).sq q
def setSqr (s : Dev) (c q : Nat) (r : SqRun) : Dev :=
  modCh s c (fun ch => { ch with sq := tabSet (fun _ => { failed := false, aborting := false }) ch.sq q r })

/-- R370, R373, R750: the status that an end-of-command drain takes: that of the first of the command's writes that was lost. -/
def lostStatus (c : Cmd) : Nat := c.lost.headD 0x08

/-- The status with which a command that has ended is recorded (R493). -/
def finalStatus (c : Cmd) : Nat :=
  match c.status with
  | some st => st
  | none => if !c.lost.isEmpty then lostStatus c else if c.late then 0x0B else if c.poisoned then 0x01 else 0x00

/-! ## Hobble (R522) -/

/-- The regions on which a slice is resident. -/
def residentRegions (s : Dev) (n : Nat) : List Nat := (List.range 32).filter (fun r => residentOf s r == some n)

/-- R522 step 4: the stores of a slice that are still in store buffers. -/
def sliceStores (s : Dev) (n : Nat) : Bool := s.cores.any (fun e => e.2.sb.any (fun x => x.tag == n))

/-- R514, R330: an access of a slice that was translated before its TLB_FLUSH is still to be performed. -/
def tlbBusy (s : Dev) (n : Nat) : Bool :=
  let old (tag id : Nat) : Bool := tag == n && decide (id < tabGet (fun _ => 0) s.ms.tlbWait n)
  s.cores.any (fun e => e.2.reqs.any (fun r => old r.tag r.id && !r.served) || e.2.sb.any (fun x => old x.tag x.seq && !x.applied))
    || s.peerOut.any (fun q => old q.tag q.id)

/-- R514: a TLB_FLUSH in progress completes with the last access it waits for. -/
def tryTlb (s : Dev) (n : Nat) : Dev :=
  if 16 ≤ n ∨ getF s (fSLC_CTL_BUSY_TLB n) = 0 ∨ tlbBusy s n = true then s
  else setF (modMs s (fun m => { m with tlbWait := tabSet (fun _ => 0) m.tlbWait n 0 })) (fSLC_CTL_BUSY_TLB n) 0

/-- The owner of the tag walk of a slice's Hobble, among what homes hold (R306, R522). -/
def hobbleOwner (n : Nat) : Nat := 2 ^ 64 + n

/-- R522 step 5: the tag walk of CACHE, limited to the slice's tag. -/
def hobbleWalk (s : Dev) (n : Nat) : Dev :=
  let hit (l : CacheLine) : Bool := l.tag == n
  match getF s (fSLC_CTL_CACHE n) with
  | 1 => rangeLines .flush (hobbleOwner n) s hit
  | 2 => rangeLines .inval (hobbleOwner n) s hit
  | 3 => rangeLines .flushInv (hobbleOwner n) s hit
  | _ => s

/-- Homes still hold a Hobble's walk at pinned lines. -/
def walkHeld (s : Dev) (n : Nat) : Bool := s.ms.heldOps.any (fun q => q.owner == hobbleOwner n)

/-- R522 steps 2 to 7: once no command of a HOBBLING slice is in flight but those saved, and every store is performed and acknowledged, the
tag walk of CACHE runs and the slice is STOPPED. Accesses of host ports complete within the commands that make them. -/
def tryHobble (s : Dev) (n : Nat) : Dev :=
  let s := tryTlb s n
  if 16 ≤ n ∨ getF s (fSLC_CTL_STATE n) ≠ 3 then s
  else if s.cmds.any (fun c => c.tag == n && !c.saved) || (residentRegions s n).any (fun r => (tabGet (fun _ => RegionRun.init) s.rgn r).req.isSome) then s
  else if sliceStores s n then (s.cores.map (fun e => e.1)).foldl (fun s k => sealSb s k (fun e => e.tag == n)) s
  else if walkHeld s n then s
  else
    let s := hobbleWalk s n
    if walkHeld s n then s else setF s (fSLC_CTL_STATE n) 1

/-- R504, R631: once no command of a channel under reset is left, its rings are disabled, with BASE, CFG, HEAD and TAIL kept, its
fetched descriptors are discarded and its counts are cleared. -/
def tryChanReset (s : Dev) (c : Nat) : Dev :=
  if getF s (fCH_RESET_BUSY c) = 0 ∨ s.cmds.any (fun x => x.chan == c) = true then s
  else
    let s := (List.range 64).foldl (fun s n =>
      let s := setF (setF (setF s (fCH_SQ_CFG_ENABLE c n) 0) (fCH_SQ_STATE_STATE c n) 0) (fCH_SQ_STATE_CAUSE c n) 0
      setF (setF (setF s (fCH_CQ_CFG_ENABLE c n) 0) (fCH_CQ_STATE_STATE c n) 0) (fCH_CQ_STATE_CAUSE c n) 0) s
    let s := modCh s c (fun ch => { ch with fetched := [], reads := [], sq := [], cqr := [] })
    setF (setF s (fCH_STATUS_DB_DROPS c) 0) (fCH_RESET_BUSY c) 0

/-- A command leaves the channel: its record (unless `quiet`), trace record, counts and in-flight slot. -/
def retire (s : Dev) (key : Nat) (quiet : Bool) : Dev :=
  match getCmd s key with
  | none => s
  | some c =>
    let st := finalStatus c
    -- R602: the interval still in progress; its share is measured, and no state of the device gives it (free value, log 25)
    let tail := if 0x20 ≤ c.tag ∨ quiet = true then 0 else (Config.tailEnergy s.free).toNat
    let c := { c with energy := c.energy + tail }
    let s := if 0x20 ≤ c.tag ∨ quiet = true then s else creditJob { (bumpFree s) with pw := { s.pw with tail := s.pw.tail + tail } } c.tag tail
    let s := { s with cmds := s.cmds.filter (fun x => x.key != key) }
    let s := if quiet then s
      else
        let s := writeRecord s c st
        trace s (chanHub c.chan) { kind := 3, job := dJob c.desc, layer := dLayer c.desc, op := dOp c.desc, slice := tagByte c.tag, chan := c.chan, status := st, info := c.index, payload := energyUj c }
    let s := syncInflight s c.chan
    let s := countHub s (chanHub c.chan) 0xC7 1
    let s := { s with obs := { s.obs with chCount := tabMod (fun _ => 0) s.obs.chCount (2 * c.chan + 1) (fun n => n + 1) } }
    let s := modCh s c.chan (fun ch => { ch with lastDone := s.now })
    let s := if failing st && dOpcode c.desc != 0x0A then setSqr s c.chan c.ring { getSqr s c.chan c.ring with failed := true } else s
    tryChanReset (tryHobble s c.tag) c.chan

/-- Whether writes of a command to peer windows are unacknowledged (R330, R475). -/
def peerBusy (s : Dev) (key : Nat) : Bool := s.peerOut.any (fun r => r.cmd == key)

/-- The error-record fields of a command at its channel (R646). -/
def cmdErr (c : Cmd) : ErrRec :=
  { sev := 2, cause := 0x0011, job := some c.desc, slice := tagByte c.tag, ring := c.chan + 16 * c.ring, unit := 0x0B, index := c.chan,
    hubO := decide (8 ≤ c.chan) }

/-- R493, R648: fix a command's failing status, with its one CONTAINED record; the first one stands. -/
def fixStatus (s : Dev) (key status : Nat) (r : Option ErrRec) : Dev :=
  match getCmd s key with
  | none => s
  | some c =>
    if c.status.isSome then s
    else
      let s := modCmd s key (fun c => { c with status := some status })
      match r with
      | none => s
      | some e => errRecord s { e with job := some c.desc, slice := tagByte c.tag, ring := c.chan + 16 * c.ring, status := status }

/-- A request whose group has ended: an atomic or STC that was issued and is still to be performed (R207 step 2). -/
def isOrphan (r : MemReq) : Bool := decide (16 ≤ r.slot)

/-- R207, R367: a command has stores in a buffer, or atomics on their way, that are still to be performed and acknowledged. -/
def cmdWrites (s : Dev) (key : Nat) : Bool :=
  s.cores.any (fun e => e.2.sb.any (fun x => x.cmds.contains key) || e.2.reqs.any (fun r => r.cmd == key && isOrphan r))

/-- R306, R489: homes still hold a FENCE's range operation at pinned lines. -/
def fenceHeld (s : Dev) (key : Nat) : Bool := s.ms.heldOps.any (fun q => q.owner == key + 1)

/-- A command has ended its work: it retires once its stores have drained and its writes to peer windows are acknowledged (R207 step 4, R367,
R475). A lost write that no other wait has met fixes the status of the drain (R370, R373). -/
def finishCmd (s : Dev) (key : Nat) : Dev :=
  match getCmd s key with
  | none => s
  | some c =>
    if peerBusy s key || cmdWrites s key || fenceHeld s key then modCmd s key (fun c => { c with phase := .draining })
    else
      let s := if c.status.isNone && (!c.lost.isEmpty || c.late) then fixStatus s key (if c.lost.isEmpty then 0x0B else lostStatus c) (some (cmdErr c)) else s
      retire s key false

/-- The commands that drain retire once their writes are performed, and Hobbles that waited go on. -/
def settleDrains (s : Dev) : Dev :=
  let s := ((s.cmds.filter (fun c => c.phase == .draining)).map (fun c => c.key)).foldl finishCmd s
  ((List.range 16).filter (fun n => getF s (fSLC_CTL_STATE n) == 3)).foldl tryHobble s

/-! ## Stopping a command (R207) -/

/-- R207 step 2: the requests of a core that satisfy `p` outlive their groups: reads end, and atomics and STCs that were issued are still
performed, with the reservation each STC's thread held. Their slot is no longer a group's: 16 and their identifier. -/
def orphanReqs (s : Dev) (core : Nat) (p : MemReq → Bool) : Dev :=
  let mine (r : MemReq) : Bool := p r && !isOrphan r
  let lives (r : MemReq) : Bool := !r.served && (r.kind == .atom || r.kind == .stc)
  let stcs := (getCore s core).reqs.filter (fun r => mine r && lives r && r.kind == .stc)
  let s := modMs s (fun m => { m with resv := m.resv.map (fun v =>
    match stcs.find? (fun r => v.core == core && v.slot == r.slot && r.elems.any (fun e => e.lane == v.lane)) with
    | some r => { v with slot := 16 + r.id }
    | none => v) })
  modCore s core (fun c => { c with reqs := (c.reqs.filter (fun r => !mine r || lives r)).map (fun r => if mine r then { r with slot := 16 + r.id } else r) })

/-- R365: the reservations of a core's threads in some slots are lost. -/
def clearSlots (s : Dev) (core : Nat) (slots : List Nat) : Dev :=
  modMs s (fun m => { m with resv := m.resv.filter (fun r => !(r.core == core && slots.contains r.slot)) })

/-- R351: seal the entries that hold stores of a command. -/
def sealCmd (s : Dev) (core key : Nat) : Dev := sealSb s core (fun e => e.cmds.contains key)

/-- The cores on which a command has groups, requests or stores. -/
def cmdCores (s : Dev) (key : Nat) : List Nat :=
  (s.cores.filter (fun e => e.2.blocks.any (fun b => b.cmd == key) || e.2.sb.any (fun x => x.cmds.contains key)
    || e.2.reqs.any (fun r => r.cmd == key) || e.2.trk.any (fun t => t.cmd == key) || e.2.groups.any (fun g => match g.2 with
      | some g => g.cmd == key
      | none => false))).map (fun e => e.1)

/-- Remove the groups and blocks of a command from a core. -/
def clearGroups (c : Core) (key : Nat) : Core :=
  { c with groups := c.groups.filter (fun e => match e.2 with
             | some g => g.cmd != key
             | none => false),
           blocks := c.blocks.filter (fun b => b.cmd != key) }

/-- The slots of a core that hold groups of a command. -/
def cmdSlots (c : Core) (key : Nat) : List Nat :=
  c.groups.filterMap (fun e => match e.2 with
    | some g => if g.cmd = key then some e.1 else none
    | none => none)

/-- R167, R207: take a command's groups off a core: its requests in flight and its stores are on their own. -/
def leaveCore (key : Nat) (s : Dev) (core : Nat) : Dev :=
  let s := clearSlots (orphanReqs s core (fun r => r.cmd == key)) core (cmdSlots (getCore s core) key)
  modCore (sealCmd s core key) core (fun c => clearGroups c key)

/-- The groups resident on a core. -/
def coreGroups (c : Core) : List Group := c.groups.filterMap (fun e => e.2)

/-- The commands with groups in a list of cores. -/
def cmdsOf (cs : Tab Core) : List Nat :=
  (cs.foldl (fun a e => a ++ (coreGroups e.2).map (fun g => g.cmd)) []).eraseDups

/-- R135, R143, R207 step 3: discard a command's queued and executing matrix operations, and return the tiles that its operations
named to their initial state. -/
def clearMatrix (c : Core) (core key : Nat) (tiles : List Nat) : Core :=
  let mine := (List.range 8).filter (fun t => tiles.contains (8 * core + t))
  let keep (o : Option MxOp) : Option MxOp := match o with
    | some x => if x.cmd = key then none else some x
    | none => none
  { c with mq := dropQueued c key false none c.mq, arrayLane := if (keep c.arrayLane).isNone then keep c.arrayNext else keep c.arrayLane,
           arrayNext := if (keep c.arrayLane).isNone then none else keep c.arrayNext, xferLane := keep c.xferLane,
           trk := c.trk.filter (fun t => t.cmd != key),
           tiles := mine.foldl (fun t i => tabSet (fun _ => Tile.init) t i Tile.init) c.tiles }

/-- R207, R241: discard a command's operations in the engines of a cluster. -/
def clearCluster (c : Cluster) (key : Nat) : Cluster :=
  { c with dmaQ := c.dmaQ.filter (fun o => o.cmd != key), fabQ := c.fabQ.filter (fun o => o.cmd != key),
           drainBeats := c.drainBeats.filterMap (fun e => match e.2.filter (fun b => b.cmd != key) with
             | [] => none
             | l => some (e.1, l)),
           run := match c.run with
             | some r => if r.op.cmd = key then none else some r
             | none => none }

/-- R143: the work of a slice's command stands on a core itself, and not in a saved context. -/
def liveOn (s : Dev) (c : Cmd) (core : Nat) : Bool :=
  (decide (0x10 ≤ c.tag) || residentOf s (coreRegion core) == some c.tag)
    && !s.saved.any (fun x => x.region == coreRegion core && (cmdsOf x.cores).contains c.key)

/-- R207: stop every group of a command and its engines' operations; its stores drain. -/
def stopWork (s : Dev) (key : Nat) : Dev :=
  match getCmd s key with
  | none => s
  | some c =>
    let s := ((s.cores.map (fun e => e.1)).filter (liveOn s c)).foldl (fun s k => modCore (cutDrain s key k) k (fun x => clearMatrix x k key c.tiles)) s
    let s := { s with saved := s.saved.map (fun x => if (cmdsOf x.cores).contains key then
      { x with cores := x.cores.map (fun e => (e.1, clearMatrix (clearGroups e.2 key) e.1 key c.tiles)), clusters := x.clusters.map (fun e => (e.1, clearCluster e.2 key)) }
      else x) }
    let s := (cmdCores s key).foldl (leaveCore key) s
    (s.clusters.map (fun e => e.1)).foldl (fun s k => modCl (cutRun s key k) k (fun x => clearCluster x key)) s

/-- R204, R207, R493: end a command early with a failing status; a command whose status is fixed has stopped already. -/
def endCmd (s : Dev) (key status : Nat) (r : Option ErrRec) : Dev :=
  match getCmd s key with
  | none => s
  | some c =>
    if c.status.isSome then s
    else finishCmd (stopWork (fixStatus s key status r) key) key

/-- End a command with a failing status and a COMMAND_FAULT record at its channel. -/
def failCmd (s : Dev) (key status : Nat) : Dev :=
  match getCmd s key with
  | none => s
  | some c => endCmd s key status (some (cmdErr c))

/-- Stop a command for a port's link that went down: no record is written (R496). -/
def dropCmd (s : Dev) (key : Nat) : Dev :=
  match getCmd s key with
  | none => s
  | some _ =>
    let s := stopWork (fixStatus s key 0x05 none) key
    { (retire s key true) with peerOut := s.peerOut.filter (fun r => r.cmd != key) }

/-- How far behind HEAD an entry of a submission ring lies: the older of two entries lies farther (R464). -/
def ringAge (s : Dev) (c n i : Nat) : Nat :=
  let size := 2 ^ getF s (fCH_SQ_CFG_LOG2SZ c n)
  (getF s (fCH_SQ_STATE_HEAD c n) + size - i % size) % size

/-- Put a requeued descriptor before every later one of its ring. -/
def fetchedInsert (age : Nat → Nat) (f : Fetched) : List Fetched → List Fetched
  | [] => [f]
  | g :: l => if g.ring = f.ring ∧ age g.index < age f.index then f :: g :: l else g :: fetchedInsert age f l

/-- R493, R535: a stopped run is requeued: its record says PREEMPTED_REQUEUED, and the command is dispatched again before
every later command of its ring. -/
def requeueCmd (s : Dev) (key : Nat) : Dev :=
  match getCmd s key with
  | none => s
  | some c =>
    if c.status.isSome then s
    else
      let s := modCmd s key (fun c => { c with status := some 0x04 })
      let s := finishCmd (stopWork s key) key
      modCh s c.chan (fun ch => { ch with fetched := fetchedInsert (ringAge s c.chan c.ring) { ring := c.ring, index := c.index, desc := c.desc, requeued := true } ch.fetched })

/-- R535, R655: abort a command that must leave its cores: requeued where IDEM is set, else ABORTED. -/
def abortOrRequeue (s : Dev) (key : Nat) : Dev :=
  match getCmd s key with
  | none => s
  | some c => if dIdem c.desc then requeueCmd s key else failCmd s key 0x05

/-! ## Exceptions, poison and flags of a group's command -/

/-- The location of a core (R646). -/
def coreErr (core : Nat) : ErrRec :=
  { sev := 2, cause := 0x0010, die := coreDie core, region := core / 24 % 4, cluster := core / 4 % 6, core := core % 4, unit := 0x00 }

/-- R205: the status an exception code gives. -/
def excStatus (code : Nat) : Nat :=
  match code with
  | 0x02 => 0x02 | 0x03 => 0x02 | 0x04 => 0x02 | 0x08 => 0x07 | 0x09 => 0x06 | _ => 0x05

/-- R204, R205, R646: the group in a slot raises an exception: its command ends. The record holds the failing address, where the
exception has one, and whether it is a virtual address. -/
def raiseExcAt (s : Dev) (core slot code : Nat) (place : Option (Nat × Bool)) : Dev :=
  match getGroup s core slot with
  | none => s
  | some g => endCmd s g.cmd (excStatus code) (some { coreErr core with exc := code, addr := place.map (fun a => a.1), virt := (place.map (fun a => a.2)).getD false })

/-- R204, R205: an exception that no address raises. -/
def raiseExc (s : Dev) (core slot code : Nat) : Dev := raiseExcAt s core slot code none

/-- A fault of a core's access that is no exception: the group's command ends with a status (R62, R300, R370). -/
def coreFault (s : Dev) (core key status addr : Nat) (virt : Bool) : Dev :=
  endCmd s key status (some { coreErr core with cause := 0x0011, addr := some addr, virt := virt })

/-- A write of a command has been lost: the status its wait gives (R370, R373, R750). -/
def loseWrite (s : Dev) (key status : Nat) : Dev := modCmd s key (fun c => { c with lost := c.lost ++ [status] })

/-- R206: mark a command poisoned. -/
def markPoison (s : Dev) (key : Nat) : Dev := modCmd s key (fun c => { c with poisoned := true })

/-- R77, R157: set arithmetic flags in a command. -/
def orFlags (s : Dev) (key : Nat) (fl : BitVec 8) : Dev := modCmd s key (fun c => { c with flags := c.flags ||| fl })

/-! ## The end of groups, blocks and KERNELs -/

/-- R481: NBLK of a KERNEL. -/
def kNblk (d : Block64) : Nat := fld d 351 320

/-- R167, R482: a KERNEL whose every block has ended drains its stores and completes. -/
def kernelEnd (s : Dev) (key : Nat) : Dev :=
  match getCmd s key with
  | none => s
  | some c =>
    if c.blocksDone < kNblk c.desc then s
    else
      finishCmd ((cmdCores s key).foldl (leaveCore key) s) key

/-- R145: whether a group has ended: every lane exited and every token zero. -/
def groupOver (g : Group) : Bool := g.hold == .exited && g.tok.all (fun e => e.2 == 0)

/-- R145: a block whose groups have all ended frees its slots, registers and local memory; the KERNEL counts it. -/
def blockEnd (s : Dev) (core slot : Nat) : Dev :=
  match (getCore s core).blocks.find? (fun b => b.slots.contains slot) with
  | none => s
  | some b =>
    let ended := b.slots.all (fun i => match getGroup s core i with
      | some g => groupOver g
      | none => true)
    if !ended then s
    else
      let s := clearSlots (orphanReqs s core (fun r => b.slots.contains r.slot)) core b.slots
      let s := modCore s core (fun c => { c with
        groups := c.groups.filter (fun e => !(b.slots.contains e.1)),
        blocks := c.blocks.filter (fun x => !(x.cmd == b.cmd && x.index == b.index)) })
      let s := modCmd s b.cmd (fun c => { c with blocksDone := c.blocksDone + 1 })
      kernelEnd s b.cmd

/-- R123: an operation of a group completes: its token decrements, and a group whose lanes have all exited may end. -/
def tokenDone (s : Dev) (core slot tok key : Nat) : Dev :=
  match getGroup s core slot with
  | none => s
  | some g =>
    if g.cmd ≠ key then s
    else
      let s := setGroup s core slot (some { g with tok := tabMod (fun _ => 0) g.tok tok (fun n => n - 1) })
      blockEnd s core slot

end Sys2Proof.Machine
end

