-- ==== Sys2Proof/Machine/Engines.lean ====
section
/-! DEFINITION. Sys2Proof/Machine/Engines.lean: data-mover descriptors and their checks (R251 to R256, R479), and which engine
serves a channel's descriptor (R249, R250). -/

namespace Sys2Proof.Machine

open Sys2Proof

/-! ## Descriptor fields (R251, R479) -/

def mvENGINE (d : Block64) : Nat := fld d 101 96
def mvRET (d : Block64) : Nat := fld d 103 102
def mvGUEST (d : Block64) : Bool := bit d 104
def mvDEAD (d : Block64) : Bool := bit d 105
def mvIW (d : Block64) : Bool := bit d 106
def mvESZ (d : Block64) : Nat := fld d 109 107
def mvROP (d : Block64) : Nat := fld d 111 110
def mvDT (d : Block64) : Nat := fld d 114 112
/-- SRC, or VALUE of a FILL. -/
def mvSRC (d : Block64) : Nat := fld d 191 128
def mvDST (d : Block64) : Nat := fld d 255 192
def mvN0 (d : Block64) : Nat := fld d 275 256 + 1
def mvN1 (d : Block64) : Nat := fld d 291 276 + 1
def mvN2 (d : Block64) : Nat := fld d 307 292 + 1
def mvSS1 (d : Block64) : Int := sextNat 40 (fld d 359 320)
def mvSS2 (d : Block64) : Int := sextNat 40 (fld d 399 360)
def mvIDX (d : Block64) : Nat := fld d 367 320
def mvTLEN (d : Block64) : Nat := fld d 399 368
def mvDS1 (d : Block64) : Int := sextNat 40 (fld d 439 400)
def mvDS2 (d : Block64) : Int := sextNat 40 (fld d 479 440)
def mvMCAST (d : Block64) : Nat := fld d 503 480

/-- Element bytes of a GATHER, and its index bytes. -/
def gElem (d : Block64) : Nat := 4 * 2 ^ mvESZ d
def gIdx (d : Block64) : Nat := if mvIW d then 8 else 4

/-- R251: the data-mover opcodes. -/
def isMover (op : Nat) : Bool := decide (2 ≤ op) && decide (op ≤ 6)

/-- R251: a reserved encoding is used, or a field unused by the opcode is nonzero. -/
def mvFieldsBad (d : Block64) : Bool :=
  let z (msb lsb : Nat) : Bool := fld d msb lsb == 0
  let op := dOpcode d
  let copy := op == 2
  let fill := op == 3
  let red := op == 4
  let gat := op == 5
  let pre := op == 6
  !(z 127 115 && z 319 308 && z 511 504
    && (pre || (z 103 102 && z 104 104)) && (copy || red || z 105 105) && (gat || (z 106 106 && z 109 107)) && (red || (z 111 110 && z 114 112))
    && (fill || z 191 176) && (if pre then z 255 192 else z 255 240)
    && (!gat || (z 275 256 && z 307 292)) && (!fill || z 399 320) && (!pre || z 479 400) && (!gat || z 479 440)
    && (copy || fill || z 503 480)
    && (!pre || mvRET d != 3) && (!red || (decide (mvDT d ≤ 5) && mvROP d != 3))
    && (!gat || (decide (mvESZ d ≤ 4) && mvTLEN d != 0)))

/-! ## Shapes (R252) -/

/-- The runs of a shape, in order: the address of each run's first byte (R252). -/
def runAddrs (base n1 n2 : Nat) (s1 s2 : Int) : List Int :=
  (List.range n2).flatMap (fun (c2 : Nat) => (List.range n1).map (fun (c1 : Nat) => (base : Int) + (c2 : Int) * s2 + (c1 : Int) * s1))

/-- R252: the bounding interval of a shape, as `[lo, hi)`. -/
def bounding (base n0 n1 n2 : Nat) (s1 s2 : Int) : Int × Int :=
  let a := ((n1 : Int) - 1) * s1
  let b := ((n2 : Int) - 1) * s2
  ((base : Int) + min 0 a + min 0 b, (base : Int) + max 0 a + max 0 b + (n0 : Int))

/-- One operand of an operation: first byte, bounding interval, whether it is a destination. -/
structure MvOperand where
  base : Nat
  lo : Int
  hi : Int
  dst : Bool
deriving DecidableEq, Repr

/-- The source and destination runs of an operation. -/
def srcRuns (d : Block64) : List Int := runAddrs (mvSRC d) (mvN1 d) (mvN2 d) (mvSS1 d) (mvSS2 d)
def dstRuns (d : Block64) : List Int := runAddrs (mvDST d) (mvN1 d) (mvN2 d) (mvDS1 d) (mvDS2 d)

/-- R262: the operands of an operation, in the order of the range-entry table. -/
def mvOperands (d : Block64) : List MvOperand :=
  let src := bounding (mvSRC d) (mvN0 d) (mvN1 d) (mvN2 d) (mvSS1 d) (mvSS2 d)
  let dst := bounding (mvDST d) (mvN0 d) (mvN1 d) (mvN2 d) (mvDS1 d) (mvDS2 d)
  let s : MvOperand := { base := mvSRC d, lo := src.1, hi := src.2, dst := false }
  let t : MvOperand := { base := mvDST d, lo := dst.1, hi := dst.2, dst := true }
  match dOpcode d with
  | 2 => [s, t]
  | 3 => [t]
  | 4 => [s, t]
  | 5 =>
    let g := bounding (mvDST d) (gElem d) (mvN1 d) 1 (mvDS1 d) 0
    [{ base := mvIDX d, lo := mvIDX d, hi := mvIDX d + mvN1 d * gIdx d, dst := false },
     { base := mvSRC d, lo := mvSRC d, hi := mvSRC d + mvTLEN d * gElem d, dst := false }, { base := mvDST d, lo := g.1, hi := g.2, dst := true }]
  | _ => [s]

/-- Where a byte of an operand lies (R250, R253, R262), whether or not it may be written. -/
def firstPlace (s : Dev) (tag va : Nat) : Option (Nat × Place) :=
  match (translate s tag va false).2 with
  | .ok pa _ => some (pa, placeOf s pa)
  | _ => none

/-- R253: an operand that begins in a scratchpad window lies wholly in its backed 6 MiB, at consecutive physical addresses. -/
def spadOperandOk (s : Dev) (tag : Nat) (o : MvOperand) : Bool :=
  match firstPlace s tag o.base with
  | some (pa, _) =>
    if pa < spadBase 0 ∨ spadBase 192 ≤ pa then true
    else
    let off := (pa - spadBase 0) % 0x800000
    let lo := (off : Int) + (o.lo - o.base)
    let hi := (off : Int) + (o.hi - o.base)
    decide (0 ≤ lo) && decide (hi ≤ (spadSize : Nat)) &&
      (List.range 98).all (fun k =>
        let va := (o.lo.toNat / 2 ^ 16 + k) * 2 ^ 16
        let va := if k = 0 then o.lo.toNat else va
        decide (o.hi ≤ (va : Int)) || (match firstPlace s tag va with
          | some (q, _) => decide ((q : Int) = (pa : Int) + ((va : Int) - (o.base : Int)))
          | none => false))
  | none => true

/-- R253: whether an operation is invalid; `limit` is the largest total in bytes (0 for none). -/
def mvInvalid (s : Dev) (tag : Nat) (d : Block64) (limit : Nat) : Bool :=
  let op := dOpcode d
  let es := redBytes (mvDT d)
  let total := if op = 5 then mvN1 d * gElem d else mvN0 d * mvN1 d * mvN2 d
  let ops := mvOperands d
  mvFieldsBad d
    || ((op == 2 || op == 3 || op == 4) &&
        ((decide (1 < mvN1 d) && decide (mvDS1 d < (mvN0 d : Int)))
          || (decide (1 < mvN2 d) && decide (mvDS2 d < ((mvN1 d : Int) - 1) * mvDS1 d + (mvN0 d : Int)))))
    || (op == 4 && (mvSRC d % es != 0 || mvDST d % es != 0 || mvN0 d % es != 0
          || [mvSS1 d, mvSS2 d, mvDS1 d, mvDS2 d].any (fun x => decide (x % ((es : Nat) : Int) ≠ 0))))
    || (op == 5 && (mvSRC d % gElem d != 0 || mvDST d % gElem d != 0 || decide (mvDS1 d % ((gElem d : Nat) : Int) ≠ 0) || mvIDX d % gIdx d != 0
          || decide (mvDS1 d < (gElem d : Nat))))
    || (op == 2 && (match ops with
          | [a, b] => decide (a.lo < b.hi) && decide (b.lo < a.hi)
          | _ => false))
    || (mvMCAST d != 0 && (match firstPlace s tag (mvDST d) with
          | some (_, .spad _ _) => false
          | _ => true))
    || ops.any (fun o => !spadOperandOk s tag o)
    || (limit != 0 && decide (limit < total))

/-! ## Engines (R249, R250) -/

/-- Whether a slice owns a region; a Halter channel's commands own their Halter region alone (R256). -/
def ownsRegion (s : Dev) (tag chan r : Nat) : Bool :=
  if 0x10 ≤ tag then r == 16 * chanHub chan else (getF s (fSLC_RGNS_REGIONS tag)).testBit r

/-- R256: the destination clusters of a COPY or FILL: the one DST names, and those of MCAST on its die. -/
def destClusters (d : Block64) (cl : Nat) : List Nat :=
  cl :: ((bitsOf 24 (mvMCAST d)).map (fun n => cl / 24 * 24 + n)).filter (fun c => c != cl)

/-- R256: a multicast destination lies in a region the slice does not own. -/
def mcastRefused (s : Dev) (tag chan : Nat) (d : Block64) : Bool :=
  mvMCAST d != 0 && (match firstPlace s tag (mvDST d) with
    | some (_, .spad cl _) => (destClusters d cl).any (fun c => !ownsRegion s tag chan (c / 6))
    | _ => false)

/-- R250: the die of an operand's first byte. -/
def dieOf (s : Dev) (tag va : Nat) : Option Nat :=
  match (translate s tag va false).2 with
  | .ok pa attr =>
    match placeOf s pa with
    | .tier => some (homeNominal pa attr.home).1
    | .spad cl _ => some (cl / 24)
    | _ => none
  | _ => none

/-- The lowest-numbered region of the slice on a die, else its lowest-numbered region (R250). -/
def autoRegion (s : Dev) (tag chan : Nat) (die : Option Nat) : Option Nat :=
  let own := (List.range 32).filter (fun r => ownsRegion s tag chan r)
  match own.find? (fun r => some (r / 4) == die) with
  | some r => some r
  | none => own.head?

/-- R250, R253: the engine of a channel's descriptor: a region number, 100 or 101 for a hub engine, or none. ENGINE is checked of every
descriptor, one with an operand in a host window included; on a Halter channel the descriptor goes to the Halter region's engine. -/
def engineOf (s : Dev) (tag chan : Nat) (d : Block64) : Option Nat :=
  let auto := decide (mvENGINE d = 0x3F)
  if 0x10 ≤ tag then (if auto || ownsRegion s tag chan (mvENGINE d) then some (16 * chanHub chan) else none)
  else if !auto && !(decide (mvENGINE d < 32) && ownsRegion s tag chan (mvENGINE d)) then none
  else
    match (mvOperands d).findSome? (fun o => match firstPlace s tag o.base with
      | some (_, .host p _) => some (100 + p)
      | _ => none) with
    | some e => some e
    | none => if auto then autoRegion s tag chan (dieOf s tag (if dOpcode d = 6 then mvSRC d else mvDST d)) else some (mvENGINE d)

/-- Descriptors an engine queues and executes at once (R249). -/
def engineQueue (e : Nat) : Nat := if e < 100 then 64 else 128
def engineExec (e : Nat) : Nat := if e < 100 then 8 else 16

/-- The commands at an engine, oldest first. -/
def engineCmds (s : Dev) (e : Nat) : List Cmd :=
  s.cmds.filter (fun c => isMover (dOpcode c.desc) && c.status.isNone && c.phase != .draining && engineOf s c.tag c.chan c.desc == some e)

end Sys2Proof.Machine
end

