-- ==== Sys2Proof/Machine/Regions.lean ====
section
/-! DEFINITION. Sys2Proof/Machine/Regions.lean: the state of a region as a whole: grooming it (R524, R525), saving it to a
context and restoring it (R529, R533, R536, R537), and the halting of groups at safe points (R532). -/

namespace Sys2Proof.Machine

open Sys2Proof

/-- The run-time scheduling state of a region. -/
def getRgn (s : Dev) (r : Nat) : RegionRun := tabGet (fun _ => RegionRun.init) s.rgn r
def modRgn (s : Dev) (r : Nat) (f : RegionRun → RegionRun) : Dev :=
  { s with rgn := tabMod (fun _ => RegionRun.init) s.rgn r f }

/-- The cores and clusters of a region (R42). -/
def regionCores (r : Nat) : List Nat := (List.range 24).map (fun i => 24 * r + i)
def regionClusters (r : Nat) : List Nat := (List.range 6).map (fun i => 6 * r + i)

/-- Whether a scratchpad key or reservation sector lies in a region's scratchpads. -/
def inRegionSpad (r a : Nat) : Bool := decide (6 * r * 0x800000 ≤ a) && decide (a < 6 * (r + 1) * 0x800000)

/-- R365: the reservations of a region's threads are lost. -/
def clearThreadResv (s : Dev) (r : Nat) : Dev :=
  modMs s (fun m => { m with resv := m.resv.filter (fun x => coreRegion x.core != r) })

/-- The reservations of a region's threads, and those its window units hold, are lost. -/
def clearRegionResv (s : Dev) (r : Nat) : Dev :=
  modMs (clearThreadResv s r) (fun m => { m with resv := m.resv.filter (fun x => !(decide (100 ≤ x.home) && (x.home - 100) / 6 == r)) })

/-- Zero a region's scratchpads with their poison bits (R248). -/
def clearRegionSpad (s : Dev) (r : Nat) : Dev :=
  modMs s (fun m => { m with spad := m.spad.filter (fun e => !inRegionSpad r e.1),
                             spadPoison := m.spadPoison.filter (fun g => !inRegionSpad r (g * 64)) })

/-- R524: groom every buffer of a region. -/
def groomRegion (s : Dev) (r : Nat) : Dev :=
  let s := { s with cores := s.cores.filter (fun e => coreRegion e.1 != r) }
  let s := (regionClusters r).foldl (fun s k => modCl s k (fun c =>
    { Cluster.init with gated := c.gated, stretched := c.stretched })) s
  let s := clearRegionResv (clearRegionSpad s r) r
  let s := { s with obs := { s.obs with rctr := s.obs.rctr.filter (fun e => e.1 / 16 != r) } }
  modRgn s r (fun _ => RegionRun.init)

/-- The cores of a region that hold any state. -/
def regionTab (s : Dev) (r : Nat) : Tab Core := s.cores.filter (fun e => coreRegion e.1 == r)

/-- COOP of a KERNEL descriptor (R480). -/
def kCoop (d : Block64) : Bool := bit d (8 * 0x2C + 18)

/-- R532, R533: whether a group of a core is asked to stop at its next safe point. -/
def stopAsked (s : Dev) (core : Nat) (g : Group) : Bool :=
  (getRgn s (coreRegion core)).req.isSome ||
    (match getCmd s g.cmd with
     | some c => kCoop c.desc && dOpcode c.desc == 1 && c.stopReq.isSome
     | none => false)

/-- A group that has halted: at a safe point, at a barrier with its arrival recorded, or ended. -/
def groupHalted (g : Group) : Bool :=
  match g.hold with
  | .stopped => true
  | .barrier _ _ _ _ => true
  | .stuckBar _ => true
  | .exited => true
  | .run => false

/-- R537 step 2: every group of a region has halted. -/
def groupsHalted (s : Dev) (r : Nat) : Bool := (regionTab s r).all (fun e => (coreGroups e.2).all groupHalted)

/-- R537 step 3: the engines' queues of a region are empty. -/
def regionQuiet (s : Dev) (r : Nat) : Bool :=
  groupsHalted s r && (regionTab s r).all (fun e => e.2.mq.isEmpty && e.2.arrayLane.isNone && e.2.arrayNext.isNone && e.2.xferLane.isNone)
    && (regionClusters r).all (fun k => (getCl s k).dmaQ.isEmpty && (getCl s k).fabQ.isEmpty && (getCl s k).run.isNone)

/-- R270: the channel operations of a slice at a region's engine. -/
def regionDma (s : Dev) (slice r : Nat) : List Cmd := (engineCmds s r).filter (fun c => c.tag == slice)

/-- R270, R537 step 3: an operation there that the save must wait for: a REDUCE, or one whose data has moved. -/
def dmaHolds (s : Dev) (slice r : Nat) : Bool := (regionDma s slice r).any (fun c => c.moved || dOpcode c.desc == 4)

/-- R367, R536: every store of a region is performed and acknowledged, and every request of its cores has returned. -/
def regionDrained (s : Dev) (r : Nat) : Bool := (regionTab s r).all (fun e => e.2.sb.isEmpty && e.2.reqs.isEmpty)

/-- R367: the store buffers of a region begin to drain. -/
def sealRegion (s : Dev) (r : Nat) : Dev := (regionTab s r).foldl (fun s e => sealSb s e.1 (fun _ => true)) s

/-- R536: what a context does not hold: the L1, the held copies and the range trackers of a region's cores. -/
def dropCaches (s : Dev) (r : Nat) : Dev :=
  (regionTab s r).foldl (fun s e => modCore s e.1 (fun c => { c with l1 := [], heldA := none, heldB := none, trk := [] })) s

/-- R536: the context of a region as it stands. -/
def captureCtx (s : Dev) (slice r ctx : Nat) : SavedCtx :=
  { slice := slice, region := r, ctx := ctx, cores := regionTab s r,
    clusters := (regionClusters r).map (fun k => (k, getCl s k)),
    spad := s.ms.spad.filter (fun e => inRegionSpad r e.1), spadPoison := s.ms.spadPoison.filter (fun g => inRegionSpad r (g * 64)),
    rctr := s.obs.rctr.filter (fun e => e.1 / 16 == r) }

/-- The saved context of a slice on a region. -/
def findCtx (s : Dev) (slice r ctx : Nat) : Option SavedCtx :=
  s.saved.find? (fun x => x.slice == slice && x.region == r && x.ctx == ctx)

/-- Drop a saved context. -/
def dropCtx (s : Dev) (slice r ctx : Nat) : Dev :=
  let s := { s with saved := s.saved.filter (fun x => !(x.slice == slice && x.region == r && x.ctx == ctx)) }
  if ctx = 1 then setF s (fSLC_RGN_SAVED1 r) (if s.saved.any (fun x => x.region == r && x.ctx == 1) then 1 else 0) else s

/-- R537 steps 3 and 4: drain, save a region's state to a context and take its work off the cores. -/
def saveCtx (s : Dev) (slice r ctx : Nat) : Dev :=
  let s := clearThreadResv (dropCaches s r) r
  let s := dropCtx s slice r ctx
  let x := captureCtx s slice r ctx
  let s := { s with saved := s.saved ++ [x] }
  let s := if ctx = 1 then setF s (fSLC_RGN_SAVED1 r) 1 else s
  let s := (cmdsOf x.cores).foldl (fun s k => modCmd s k (fun c => { c with saved := true, savedAt := s.now })) s
  (regionCores r).foldl (fun s k => if (regionTab s r).any (fun e => e.1 == k) then
    modCore s k (fun c => { c with groups := [], blocks := [] }) else s) s

/-- The area of a context lies behind a dead destination, so that reading it delivers poison (R537). -/
def ctxDead (s : Dev) (slice r : Nat) : Bool :=
  let (s', e, p) := physWord s (seqEntry (r / 16) r) (getF s (fSLC_CTXTAB_BASE slice) * 256 + 8 * r)
  p || deadPlace s' (nField e 47 21 * 2 ^ 21) (physAttr s' (nField e 47 21 * 2 ^ 21))

/-- R494: how long a command has been saved. -/
def savedFor (s : Dev) (key : Nat) : Nat :=
  match getCmd s key with
  | some c => if c.saved then s.now - c.savedAt else 0
  | none => 0

/-- Groups halted at a safe point go on; the time a group was saved does not count as a wait at its barrier (R197). -/
def wakeGroups (s : Dev) (c : Core) : Core :=
  { c with groups := c.groups.map (fun e => (e.1, match e.2 with
      | some g => some { g with hold := match g.hold with
          | .stopped => .run
          | .barrier sc b since x => .barrier sc b (since + savedFor s g.cmd) x
          | .stuckBar since => .stuckBar (since + savedFor s g.cmd)
          | h => h }
      | none => none)) }

/-- Commands whose state is restored: the time they were saved counts toward no timeout (R494). -/
def resumeCmds (s : Dev) (keys : List Nat) : Dev :=
  keys.foldl (fun s k => modCmd s k (fun c => { c with saved := false, stopReq := none, deadline := c.deadline.map (fun d => d + (s.now - c.savedAt)) })) s

/-- R533: the groups of a cooperative command, stopped in every region it occupies, go on once none of its state is saved. -/
def wakeCoop (s : Dev) (keys : List Nat) : Dev :=
  keys.foldl (fun s k =>
    match getCmd s k with
    | some c =>
      if kCoop c.desc && !s.saved.any (fun x => (cmdsOf x.cores).contains k) then
        (s.cores.map (fun e => e.1)).foldl (fun s i => modCore s i (fun x => { x with groups := x.groups.map (fun e => (e.1, match e.2 with
          | some g => if g.cmd = k then some { g with hold := match g.hold with
              | .stopped => .run
              | h => h } else some g
          | none => none)) })) s
      else s
    | none => s) s

/-- R537 steps 5 and 6: a saved context is read into its region and its groups resume; without one, the region is groomed
for the slice that enters. A context that reads poison ends its commands. -/
def restoreCtx (s : Dev) (slice r ctx : Nat) : Dev :=
  match findCtx s slice r ctx with
  | none => groomRegion s r
  | some x =>
    let keys := cmdsOf x.cores
    let s1 := dropCtx s slice r ctx
    if ctxDead s slice r then
      let s2 := keys.foldl (fun s k => abortOrRequeue s k) (groomRegion s1 r)
      errRecord s2 { sev := 1, cause := 0x0002, die := r / 4, region := r % 4, slice := slice }
    else
      let run := getRgn s r
      let s2 := groomRegion s1 r
      let s2 := modRgn s2 r (fun g => { g with floor := run.floor, window := run.window })
      let s2 := x.cores.foldl (fun s e => setCore s e.1 (wakeGroups s e.2)) s2
      let s2 := x.clusters.foldl (fun s e => modCl s e.1 (fun c => { e.2 with gated := c.gated, stretched := c.stretched })) s2
      let s2 := modMs s2 (fun m => { m with spad := x.spad.foldl (fun t e => tabSet (fun _ => 0) t e.1 e.2) m.spad,
                                            spadPoison := x.spadPoison.foldl (fun t g => insSorted g t) m.spadPoison })
      let s2 := { s2 with obs := { s2.obs with rctr := x.rctr.foldl (fun t e => tabSet (fun _ => 0) t e.1 e.2) s2.obs.rctr } }
      wakeCoop (resumeCmds s2 keys) keys

/-- R532, R533: ask for a region to be cleared: the commands in it are asked to stop. -/
def askSwitch (s : Dev) (r : Nat) (q : SwitchReq) : Dev :=
  if (getRgn s r).req.isSome then s
  else
    let s := modRgn s r (fun g => { g with req := some q })
    (cmdsOf (regionTab s r)).foldl (fun s k => modCmd s k (fun c => { c with stopReq := some (c.stopReq.getD s.now) })) s

/-- R537: carry out a region's requested save or switch once it is quiet. -/
def trySwitch (s : Dev) (r : Nat) : Dev :=
  match (getRgn s r).req with
  | none => s
  | some q =>
    if !regionQuiet s r || dmaHolds s q.slice r || frozenSlice s q.slice || (q.enter.any (frozenSlice s)) then s
    else if !regionDrained s r then sealRegion s r
    else
      let s := (regionDma s q.slice r).foldl (fun s c => requeueCmd s c.key) s
      let s := modRgn (saveCtx s q.slice r q.ctx) r (fun g => { g with req := none })
      let s := tryHobble s q.slice
      match q.enter with
      | none => s
      | some b =>
        let s := restoreCtx s b r 0
        let s := setF s (fSLC_RGN_RESIDENT r) b
        modRgn s r (fun g => { g with entered := s.now })

/-- REGMASK of a KERNEL, and whether a region may run its blocks (R480, R530). -/
def kMask (d : Block64) : Nat := fld d 415 384
def kAllows (s : Dev) (c : Cmd) (r : Nat) : Bool :=
  if 0x10 ≤ c.tag then r == 16 * chanHub c.chan
  else (getF s (fSLC_RGNS_REGIONS c.tag)).testBit r && (kMask c.desc == 0 || (kMask c.desc).testBit r)

/-- R539: context 1 is restored once no command at or above the floor remains in the region. -/
def tryRestore1 (s : Dev) (r : Nat) : Dev :=
  let sl := getF s (fSLC_RGN_RESIDENT r)
  if (getRgn s r).req.isNone && (findCtx s sl r 1).isSome && (regionTab s r).all (fun e => e.2.blocks.isEmpty)
      && (getRgn s r).window.isNone
      && !((getRgn s r).floor.isSome && s.cmds.any (fun c => c.tag == sl && dOpcode c.desc == 1 && c.status.isNone && decide (c.nextBlock < kNblk c.desc) && kAllows s c r
            && decide ((getRgn s r).floor.getD 0 ≤ getF s (fCH_SQ_CFG_PRIO c.chan c.ring)))) then
    modRgn (restoreCtx s sl r 1) r (fun g => { g with floor := none })
  else s

/-- A KERNEL in flight that still has blocks to place and may place them in a region. -/
def kWants (s : Dev) (c : Cmd) (r : Nat) : Bool :=
  dOpcode c.desc == 1 && c.status.isNone && c.phase == .running && decide (c.nextBlock < kNblk c.desc) && kAllows s c r

/-- R486, R540: the regions a MODEL_SWITCH of a slice selects. -/
def msMask (d : Block64) : Nat := fld d 287 256
def msSelects (s : Dev) (n : Nat) (d : Block64) : List Nat := bitsOf 32 (if msMask d = 0 then getF s (fSLC_RGNS_REGIONS n) else msMask d)

/-- A fetched MODEL_SWITCH of a slice that selects a region is next on its ring: it is dispatched once the slice is resident there. -/
def switchWaits (s : Dev) (b r : Nat) : Bool :=
  (List.range 16).any (fun c => getF s (fCH_STATUS_OWNED c) == 1 && chanSlice s c == b && (List.range 64).any (fun n =>
    match (getCh s c).fetched.find? (fun f => f.ring == n) with
    | some f => dOpcode f.desc == 0x0C && (msSelects s b f.desc).contains r
    | none => false))

/-- R534: a slice has work that waits for a region. -/
def waitsFor (s : Dev) (b r : Nat) : Bool :=
  getF s (fSLC_CTL_STATE b) == 2 && ((match findCtx s b r 0 with
      | some x => x.cores.any (fun e => !e.2.blocks.isEmpty)
      | none => false) || s.cmds.any (fun c => c.tag == b && kWants s c r) || !(regionDma s b r).isEmpty || switchWaits s b r)

/-- R534: the resident slice has work left in a region. -/
def worksIn (s : Dev) (a r : Nat) : Bool :=
  (regionTab s r).any (fun e => !e.2.blocks.isEmpty) || s.cmds.any (fun c => c.tag == a && kWants s c r) || !(regionDma s a r).isEmpty
    || (findCtx s a r 1).isSome

/-- R534: the next holder of a region, in rotation of slice number, that waits for it. -/
def nextHolder (s : Dev) (a r : Nat) : Option Nat :=
  ((List.range 15).map (fun i => (a + 1 + i) % 16)).find? (fun b => (getF s (fSLC_RGN_HOLDERS r)).testBit b && waitsFor s b r)

/-- R534: a slice with no work left in a region is switched out at once when another holder waits. -/
def idleSwitch (s : Dev) (r : Nat) : Dev :=
  match residentOf s r with
  | none => s
  | some a =>
    if (getRgn s r).req.isSome || (getRgn s r).window.isSome || worksIn s a r then s
    else
      match nextHolder s a r with
      | some b => trySwitch (askSwitch s r { slice := a, ctx := 0, enter := some b, since := s.now }) r
      | none => s

/-- What follows when a group halts or an engine's operation ends in a region. -/
def pokeRegion (s : Dev) (r : Nat) : Dev := idleSwitch (tryRestore1 (trySwitch s r) r) r

/-- As `pokeRegion`, by core. -/
def pokeCore (s : Dev) (core : Nat) : Dev := pokeRegion s (coreRegion core)

end Sys2Proof.Machine
end

