-- ==== Sys2Proof/Machine/Scalar.lean ====
section
/-! DEFINITION. Sys2Proof/Machine/Scalar.lean: the arithmetic, conversion, compare and lane-movement operations
of opcode groups 0x1 to 0x9 on one group (R155, R156, R802). Each answers `none` for an encoding that R171
makes illegal, else the group with its results, the flags set and whether poison was read. -/

namespace Sys2Proof.Machine

open Sys2Proof

/-- R802: the condition codes on two integers; codes 6 and 7 are reserved. -/
def condInt (c : Nat) (a b : Int) : Option Bool :=
  match c with
  | 0 => some (decide (a = b)) | 1 => some (decide (a ≠ b)) | 2 => some (decide (a < b))
  | 3 => some (decide (a ≤ b)) | 4 => some (decide (b < a)) | 5 => some (decide (b ≤ a))
  | _ => none

/-- R802: the condition codes on two floating-point values; a NaN makes all false but NE. -/
def condFloat (c : Nat) (a b : FVal) : Option Bool :=
  let nan := isNaN a || isNaN b
  match c with
  | 0 => some (valEq a b) | 1 => some (!valEq a b) | 2 => some (!nan && valLt false a b)
  | 3 => some (!nan && !valLt false b a) | 4 => some (!nan && valLt false b a)
  | 5 => some (!nan && !valLt false a b) | _ => none

/-- Leading zeros of a 32-bit value. -/
def clz32 (x : Nat) : Nat := if x = 0 then 32 else 31 - x.log2

/-- Set bits of a 32-bit value. -/
def popc32 (x : Nat) : Nat := (List.range 32).foldl (fun a i => a + (x.testBit i).toNat) 0

/-- R802: the SALU functions on `n`-bit values (n = 64 scalar, 32 vector share the shapes). `uns` is MOD[4]. -/
def salu (fn : Nat) (uns : Bool) (a b : Nat) : Option Nat :=
  let sa := sextNat 64 a
  let sb := sextNat 64 b
  let sh := b % 64
  match fn with
  | 0 => some ((a + b) % 2 ^ 64)
  | 1 => some (wrapNat 64 ((a : Int) - b))
  | 2 => some (a * b % 2 ^ 64)
  | 3 => some (if uns then a * b / 2 ^ 64 else wrapNat 64 (sa * sb / 2 ^ 64))
  | 4 => some (a * 2 ^ sh % 2 ^ 64)
  | 5 => some (a / 2 ^ sh)
  | 6 => some (wrapNat 64 (sa / 2 ^ sh))
  | 7 => some (Nat.land a b)
  | 8 => some (Nat.lor a b)
  | 9 => some (Nat.xor a b)
  | 10 => some (if uns then min a b else if sa ≤ sb then a else b)
  | 11 => some (if uns then max a b else if sa ≤ sb then b else a)
  | _ => none

/-- R802: the VALU functions in 32 bits. -/
def valu (fn : Nat) (uns : Bool) (a b c : Nat) : Option Nat :=
  let sa := sextNat 32 a
  let sb := sextNat 32 b
  let sh := b % 32
  match fn with
  | 0 => some ((a + b) % 2 ^ 32)
  | 1 => some (wrapNat 32 ((a : Int) - b))
  | 2 => some (a * b % 2 ^ 32)
  | 3 => some (if uns then a * b / 2 ^ 32 else wrapNat 32 (sa * sb / 2 ^ 32))
  | 4 => some ((a * b + c) % 2 ^ 32)
  | 5 => some (a * 2 ^ sh % 2 ^ 32)
  | 6 => some (a / 2 ^ sh)
  | 7 => some (wrapNat 32 (sa / 2 ^ sh))
  | 8 => some (Nat.land a b)
  | 9 => some (Nat.lor a b)
  | 10 => some (Nat.xor a b)
  | 11 => some (if uns then min a b else if sa ≤ sb then a else b)
  | 12 => some (if uns then max a b else if sa ≤ sb then b else a)
  | 13 => some (popc32 a)
  | 14 => some (clz32 a)
  | _ => none

/-- R802 SALU, format SR. MOD[4] is used by MULH, MIN and MAX alone. -/
def opSalu (g : Group) (iw : IWord) : Option ArithRes :=
  let m := sMOD iw
  let fn := m % 16
  let u := m / 16 % 2
  if m / 32 ≠ 0 ∨ sSC iw ≠ 0 ∨ (u = 1 ∧ fn ≠ 3 ∧ fn ≠ 10 ∧ fn ≠ 11) then none
  else
    (salu fn (u == 1) (getS g (sSA iw)).toNat (getS g (sSB iw)).toNat).map
      (fun w => scalarRes g iw (sSD iw) w (getSP g (sSA iw) || getSP g (sSB iw)))

/-- R802 SCMP: cond MOD[2:0], unsigned MOD[4]. -/
def opScmp (g : Group) (iw : IWord) : Option ArithRes :=
  let m := sMOD iw
  if m / 32 ≠ 0 ∨ m / 8 % 2 ≠ 0 ∨ sSC iw ≠ 0 then none
  else
    let a := (getS g (sSA iw)).toNat
    let b := (getS g (sSB iw)).toNat
    let r := if m / 16 % 2 = 1 then condInt (m % 8) a b else condInt (m % 8) (sextNat 64 a) (sextNat 64 b)
    r.map (fun t => scalarRes g iw (sSD iw) t.toNat (getSP g (sSA iw) || getSP g (sSB iw)))

/-- R802 SALUI, format SI: the SALU codes but MUL and MULH. -/
def opSalui (g : Group) (iw : IWord) : Option ArithRes :=
  let fn := siFN iw
  if fn = 2 ∨ fn = 3 then none
  else
    let imm := wrapNat 64 (sextNat 36 (siIMM iw))
    (salu fn false (getS g (sSA iw)).toNat imm).map (fun w => scalarRes g iw (sSD iw) w (getSP g (sSA iw)))

/-- R802 SCMPI: cond FN[2:0], unsigned FN[3]. -/
def opScmpi (g : Group) (iw : IWord) : Option ArithRes :=
  let fn := siFN iw
  let a := (getS g (sSA iw)).toNat
  let i := sextNat 36 (siIMM iw)
  let r := if fn / 8 = 1 then condInt (fn % 8) a (wrapNat 64 i) else condInt (fn % 8) (sextNat 64 a) i
  r.map (fun t => scalarRes g iw (sSD iw) t.toNat (getSP g (sSA iw)))

/-- R802 MOV. -/
def opMov (g : Group) (iw : IWord) : Option ArithRes :=
  if sMOD iw ≠ 0 ∨ sSB iw ≠ 0 ∨ sSC iw ≠ 0 then none
  else some (scalarRes g iw (sSD iw) (getS g (sSA iw)).toNat (getSP g (sSA iw)))

/-- R802 MOVI. -/
def opMovi (g : Group) (iw : IWord) : Option ArithRes :=
  if siFN iw ≠ 0 ∨ sSA iw ≠ 0 then none
  else some (scalarRes g iw (sSD iw) (wrapNat 64 (sextNat 36 (siIMM iw))) false)

/-- R802 MOVHI: IMM[27:0] above SA[35:0]; IMM[35:28] must be zero. -/
def opMovhi (g : Group) (iw : IWord) : Option ArithRes :=
  if siFN iw ≠ 0 ∨ siIMM iw / 2 ^ 28 ≠ 0 then none
  else some (scalarRes g iw (sSD iw) (siIMM iw * 2 ^ 36 + (getS g (sSA iw)).toNat % 2 ^ 36) (getSP g (sSA iw)))

/-- R802 MOVSR; `time`, `core` and `flags` are the values the device supplies. -/
def opMovsr (time : Word) (flags : ArithFlags) (g : Group) (iw : IWord) : Option ArithRes :=
  if sMOD iw / 256 ≠ 0 ∨ sSA iw ≠ 0 ∨ sSB iw ≠ 0 ∨ sSC iw ≠ 0 then none
  else
    let r : Option Nat :=
      match sMOD iw with
      | 0 => some time.toNat
      | 1 => some iw.core.val
      | 2 => some iw.slot.val
      | 3 => some g.live.toNat
      | 4 => some g.act.toNat
      | 5 => some flags.toNat
      | _ => none
    r.map (fun w => scalarRes g iw (sSD iw) w false)

/-- R802 P2S: the active lanes in which p[MOD[2:0]] is true. -/
def opP2s (g : Group) (iw : IWord) : Option ArithRes :=
  if sMOD iw / 8 ≠ 0 ∨ sSA iw ≠ 0 ∨ sSB iw ≠ 0 ∨ sSC iw ≠ 0 then none
  else
    let n := sMOD iw
    some (scalarRes g iw (sSD iw) (g.act &&& getPmask g n).toNat ((g.act &&& getPPmask g n) != 0))

/-- R802 VREAD: lane MOD[12:8] of v[MOD[7:0]], active or not. -/
def opVread (g : Group) (iw : IWord) : Option ArithRes :=
  let r := sMOD iw % 256
  let l := sMOD iw / 256 % 32
  if sMOD iw / 2 ^ 13 ≠ 0 ∨ sSA iw ≠ 0 ∨ sSB iw ≠ 0 ∨ sSC iw ≠ 0 ∨ legV g r = false then none
  else some (scalarRes g iw (sSD iw) (getV g r l).toNat (getVP g r l))

/-- R802 VALU, format VR. -/
def opValu (g : Group) (iw : IWord) : Option ArithRes :=
  let m := iMOD iw
  let fn := m % 16
  let u := m / 16 % 2
  if m / 32 ≠ 0 ∨ iSAT iw ≠ 0 ∨ iRND iw ≠ 0 ∨ iTYP iw ≠ 0 ∨ (u = 1 ∧ fn ≠ 3 ∧ fn ≠ 11 ∧ fn ≠ 12)
      ∨ (fn ≠ 4 ∧ iVC iw ≠ 0) ∨ ((fn = 13 ∨ fn = 14) ∧ iVB iw ≠ 0) ∨ fn = 15
      ∨ legV g (iVD iw) = false ∨ legV g (iVA iw) = false ∨ legV g (iVB iw) = false ∨ legV g (iVC iw) = false then none
  else
    some (perLane g iw 1 (fun l =>
      ((valu fn (u == 1) (getV g (iVA iw) l).toNat (getV g (iVB iw) l).toNat (getV g (iVC iw) l).toNat).getD 0, 0,
        getVP g (iVA iw) l || (decide (fn < 13) && getVP g (iVB iw) l) || (fn == 4 && getVP g (iVC iw) l))))

/-- R802 VALU64 on pairs. -/
def opValu64 (g : Group) (iw : IWord) : Option ArithRes :=
  if iMOD iw / 2 ≠ 0 ∨ iSAT iw ≠ 0 ∨ iRND iw ≠ 0 ∨ iTYP iw ≠ 0 ∨ iVC iw ≠ 0
      ∨ legV2 g (iVD iw) = false ∨ legV2 g (iVA iw) = false ∨ legV2 g (iVB iw) = false then none
  else
    some (perLane g iw 2 (fun l =>
      let a := getV64 g (iVA iw) l
      let b := getV64 g (iVB iw) l
      (if iMOD iw = 0 then (a + b) % 2 ^ 64 else wrapNat 64 ((a : Int) - b), 0,
        getVP64 g (iVA iw) l || getVP64 g (iVB iw) l)))

/-- R802 VALUI, format VI: the VALU codes but MAD, POPC and CLZ. -/
def opValui (g : Group) (iw : IWord) : Option ArithRes :=
  let fn := viTYP iw
  if fn = 4 ∨ 12 < fn ∨ legV g (iVD iw) = false ∨ legV g (iVA iw) = false then none
  else
    some (perLane g iw 1 (fun l =>
      ((valu fn false (getV g (iVA iw) l).toNat (viIMM iw) 0).getD 0, 0, getVP g (iVA iw) l)))

/-- R802: the FALU functions on one format. -/
def falu (fm : NumFmt) (mode : Rnd) (fn a b c : Nat) : Option (Nat × ArithFlags) :=
  match fn with
  | 0 => some (fpAdd fm mode a b)
  | 1 => some (fpSub fm mode a b)
  | 2 => some (fpMul fm mode a b)
  | 3 => some (fpFma fm mode a b c)
  | 4 => some (fpMin fm a b)
  | 5 => some (fpMax fm a b)
  | 6 => some (fpDiv fm mode a b)
  | 7 => some (fpSqrt fm mode a)
  | _ => none

/-- R155: an RND field of vector arithmetic; 0b10 and 0b11 are reserved there. -/
def rndArith (c : Nat) : Option Rnd := if c = 0 then some .rne else if c = 1 then some .rtz else none

/-- R802 FALU. The class table of R155 gives every operation of the class its RND field, MIN and MAX among them. -/
def opFalu (g : Group) (iw : IWord) : Option ArithRes :=
  let fn := iMOD iw
  match rndArith (iRND iw) with
  | none => none
  | some mode =>
    if 7 < fn ∨ iSAT iw ≠ 0 ∨ iTYP iw ≠ 0 ∨ (fn ≠ 3 ∧ iVC iw ≠ 0) ∨ (fn = 7 ∧ iVB iw ≠ 0)
        ∨ legV g (iVD iw) = false ∨ legV g (iVA iw) = false ∨ legV g (iVB iw) = false ∨ legV g (iVC iw) = false then none
    else
      some (perLane g iw 1 (fun l =>
        let r := (falu .fp32 mode fn (getV g (iVA iw) l).toNat (getV g (iVB iw) l).toNat (getV g (iVC iw) l).toNat).getD (0, 0)
        (r.1, r.2, getVP g (iVA iw) l || (fn != 7 && getVP g (iVB iw) l) || (fn == 3 && getVP g (iVC iw) l))))

/-- R802 FALUI: IMM as an FP32 word, round to nearest even. -/
def opFalui (g : Group) (iw : IWord) : Option ArithRes :=
  let fn := viTYP iw
  if fn = 3 ∨ 5 < fn ∨ legV g (iVD iw) = false ∨ legV g (iVA iw) = false then none
  else
    some (perLane g iw 1 (fun l =>
      let r := (falu .fp32 .rne fn (getV g (iVA iw) l).toNat (viIMM iw) 0).getD (0, 0)
      (r.1, r.2, getVP g (iVA iw) l)))

/-- R802 DALU on pairs. -/
def opDalu (g : Group) (iw : IWord) : Option ArithRes :=
  let fn := iMOD iw
  match rndArith (iRND iw) with
  | none => none
  | some mode =>
    if 7 < fn ∨ iSAT iw ≠ 0 ∨ iTYP iw ≠ 0 ∨ (fn ≠ 3 ∧ iVC iw ≠ 0) ∨ (fn = 7 ∧ iVB iw ≠ 0)
        ∨ legV2 g (iVD iw) = false ∨ legV2 g (iVA iw) = false
        ∨ (fn ≠ 7 ∧ legV2 g (iVB iw) = false) ∨ (fn = 3 ∧ legV2 g (iVC iw) = false) then none
    else
      some (perLane g iw 2 (fun l =>
        let r := (falu .fp64 mode fn (getV64 g (iVA iw) l) (getV64 g (iVB iw) l) (getV64 g (iVC iw) l)).getD (0, 0)
        (r.1, r.2, getVP64 g (iVA iw) l || (fn != 7 && getVP64 g (iVB iw) l) || (fn == 3 && getVP64 g (iVC iw) l))))

/-- R212, R802 HALU: one operation on each half. -/
def halu (fm : NumFmt) (mode : Rnd) (fn a b c : Nat) : Nat × ArithFlags :=
  let one (x y z : Nat) : Nat × ArithFlags :=
    if fn = 0 then fpAdd fm mode x y else if fn = 1 then fpMul fm mode x y else fpFma fm mode x y z
  let lo := one (a % 2 ^ 16) (b % 2 ^ 16) (c % 2 ^ 16)
  let hi := one (a / 2 ^ 16) (b / 2 ^ 16) (c / 2 ^ 16)
  (lo.1 + 2 ^ 16 * hi.1, lo.2 ||| hi.2)

/-- R802 HALU. -/
def opHalu (g : Group) (iw : IWord) : Option ArithRes :=
  let fn := iMOD iw
  match rndArith (iRND iw) with
  | none => none
  | some mode =>
    if 2 < fn ∨ iSAT iw ≠ 0 ∨ (iTYP iw ≠ 1 ∧ iTYP iw ≠ 2) ∨ (fn ≠ 2 ∧ iVC iw ≠ 0)
        ∨ legV g (iVD iw) = false ∨ legV g (iVA iw) = false ∨ legV g (iVB iw) = false ∨ legV g (iVC iw) = false then none
    else
      let fm : NumFmt := if iTYP iw = 1 then .bf16 else .fp16
      some (perLane g iw 1 (fun l =>
        let r := halu fm mode fn (getV g (iVA iw) l).toNat (getV g (iVB iw) l).toNat (getV g (iVC iw) l).toNat
        (r.1, r.2, getVP g (iVA iw) l || getVP g (iVB iw) l || (fn == 2 && getVP g (iVC iw) l))))

/-- R156: the random word of a vector conversion in a lane. -/
def cvtRandom (seed : Word) (g : Group) (iw : IWord) (l : Nat) : Nat :=
  srBits seed (iMOD iw / 16) (srIndex (getV g (iVB iw) l).toNat (getV g (iVC iw) l).toNat)

/-- Unused operands of a conversion: without stochastic rounding VB, VC and SR_STREAM must be zero (R169). -/
def cvtUnused (iw : IWord) : Bool :=
  iRND iw != 2 && (iVB iw != 0 || iVC iw != 0 || iMOD iw / 16 != 0)

/-- R156, R802 CVT: between any two formats of the format-code table except T2. -/
def opCvt (seed : Word) (g : Group) (iw : IWord) : Option ArithRes :=
  match rndOfCode (iRND iw), fmtOfCode (iMOD iw % 16), fmtOfCode (iTYP iw) with
  | some mode, some src, some dst =>
    if src = .t2 ∨ dst = .t2 ∨ cvtUnused iw = true
        ∨ legV g (iVD iw) = false ∨ legV g (iVA iw) = false ∨ legV g (iVB iw) = false ∨ legV g (iVC iw) = false then none
    else
      some (perLane g iw 1 (fun l =>
        let r := convertBits src dst mode (iSAT iw == 1) (cvtRandom seed g iw l) ((getV g (iVA iw) l).toNat % 2 ^ fmtBits src)
        (r.1, r.2, getVP g (iVA iw) l || (iRND iw == 2 && (getVP g (iVB iw) l || getVP g (iVC iw) l)))))
  | _, _, _ => none

/-- R802 CVTD: an FP64 pair to a format; MOD[3:0] must be zero. -/
def opCvtd (seed : Word) (g : Group) (iw : IWord) : Option ArithRes :=
  match rndOfCode (iRND iw), fmtOfCode (iTYP iw) with
  | some mode, some dst =>
    if dst = .t2 ∨ iMOD iw % 16 ≠ 0 ∨ cvtUnused iw = true
        ∨ legV g (iVD iw) = false ∨ legV2 g (iVA iw) = false ∨ legV g (iVB iw) = false ∨ legV g (iVC iw) = false then none
    else
      some (perLane g iw 1 (fun l =>
        let r := convertBits .fp64 dst mode (iSAT iw == 1) (cvtRandom seed g iw l) (getV64 g (iVA iw) l)
        (r.1, r.2, getVP64 g (iVA iw) l || (iRND iw == 2 && (getVP g (iVB iw) l || getVP g (iVC iw) l)))))
  | _, _ => none

/-- R802 CVT2D: exact conversion to FP64; TYP, RND and SAT must be zero. It sets no flag: an infinite source stays infinite, which DESIGN
CHOICE takes as exact and as no overflow of R93, whose table lists no FP64 target (log 85). -/
def opCvt2d (g : Group) (iw : IWord) : Option ArithRes :=
  match fmtOfCode (iMOD iw % 16) with
  | some src =>
    if src = .t2 ∨ iMOD iw / 16 ≠ 0 ∨ iTYP iw ≠ 0 ∨ iRND iw ≠ 0 ∨ iSAT iw ≠ 0 ∨ iVB iw ≠ 0 ∨ iVC iw ≠ 0
        ∨ legV2 g (iVD iw) = false ∨ legV g (iVA iw) = false then none
    else
      some (perLane g iw 2 (fun l =>
        let x := decodeVal src ((getV g (iVA iw) l).toNat % 2 ^ fmtBits src)
        let w : Nat :=
          match x with
          | .inf s => (if s then 2 ^ 63 else 0) + fmtInfBits .fp64
          | v => (convertVal .fp64 .rne false 0 v).1
        (w, 0, getVP g (iVA iw) l)))
  | none => none

/-- Fields an FCMP, ICMP or DCMP leaves unused. -/
def cmpUnused (iw : IWord) : Bool :=
  iSAT iw != 0 || iRND iw != 0 || iTYP iw != 0 || iVC iw != 0 || decide (7 < iVD iw)

/-- R77, R155: a compare is one of the arithmetic instructions: it sets NI where it consumes a NaN operand. -/
def cmpFlags (a b : FVal) : ArithFlags := if isNaN a || isNaN b then flagNI else 0

/-- R157, R802 FCMP. -/
def opFcmp (g : Group) (iw : IWord) : Option ArithRes :=
  if cmpUnused iw = true ∨ 5 < iMOD iw ∨ legV g (iVA iw) = false ∨ legV g (iVB iw) = false then none
  else
    some (perLaneP g iw (fun l =>
      let a := decodeVal .fp32 (getV g (iVA iw) l).toNat
      let b := decodeVal .fp32 (getV g (iVB iw) l).toNat
      ((condFloat (iMOD iw) a b).getD false, cmpFlags a b, getVP g (iVA iw) l || getVP g (iVB iw) l)))

/-- R802 ICMP: unsigned when MOD[3] is set. -/
def opIcmp (g : Group) (iw : IWord) : Option ArithRes :=
  let m := iMOD iw
  if cmpUnused iw = true ∨ m / 16 ≠ 0 ∨ 5 < m % 8 ∨ legV g (iVA iw) = false ∨ legV g (iVB iw) = false then none
  else
    some (perLaneP g iw (fun l =>
      let a := (getV g (iVA iw) l).toNat
      let b := (getV g (iVB iw) l).toNat
      let r := if m / 8 = 1 then condInt (m % 8) a b else condInt (m % 8) (sextNat 32 a) (sextNat 32 b)
      (r.getD false, 0, getVP g (iVA iw) l || getVP g (iVB iw) l)))

/-- R157, R802 DCMP on pairs. -/
def opDcmp (g : Group) (iw : IWord) : Option ArithRes :=
  if cmpUnused iw = true ∨ 5 < iMOD iw ∨ legV2 g (iVA iw) = false ∨ legV2 g (iVB iw) = false then none
  else
    some (perLaneP g iw (fun l =>
      let a := decodeVal .fp64 (getV64 g (iVA iw) l)
      let b := decodeVal .fp64 (getV64 g (iVB iw) l)
      ((condFloat (iMOD iw) a b).getD false, cmpFlags a b, getVP64 g (iVA iw) l || getVP64 g (iVB iw) l)))

/-- R802 SEL: a lane reads the register it takes and the predicate (DEDUCED, log 39). -/
def opSel (g : Group) (iw : IWord) : Option ArithRes :=
  if 7 < iMOD iw ∨ iSAT iw ≠ 0 ∨ iRND iw ≠ 0 ∨ iTYP iw ≠ 0 ∨ iVC iw ≠ 0
      ∨ legV g (iVD iw) = false ∨ legV g (iVA iw) = false ∨ legV g (iVB iw) = false then none
  else
    some (perLane g iw 1 (fun l =>
      let t := (getPmask g (iMOD iw)).getLsbD l
      ((if t then getV g (iVA iw) l else getV g (iVB iw) l).toNat, 0,
        (if t then getVP g (iVA iw) l else getVP g (iVB iw) l) || (getPPmask g (iMOD iw)).getLsbD l)))

/-- R802 PLOG. -/
def opPlog (g : Group) (iw : IWord) : Option ArithRes :=
  if 3 < iMOD iw ∨ iSAT iw ≠ 0 ∨ iRND iw ≠ 0 ∨ iTYP iw ≠ 0 ∨ iVC iw ≠ 0 ∨ 7 < iVA iw ∨ 7 < iVB iw ∨ 7 < iVD iw then none
  else
    some (perLaneP g iw (fun l =>
      let a := (getPmask g (iVA iw)).getLsbD l
      let b := (getPmask g (iVB iw)).getLsbD l
      ((if iMOD iw = 0 then a && b else if iMOD iw = 1 then a || b else if iMOD iw = 2 then a ^^ b else a && !b), 0,
        (getPPmask g (iVA iw)).getLsbD l || (getPPmask g (iVB iw)).getLsbD l)))

/-- R802 SHFL: the value of VA in lane v[VB] mod 32. -/
def opShfl (g : Group) (iw : IWord) : Option ArithRes :=
  if iMOD iw ≠ 0 ∨ iSAT iw ≠ 0 ∨ iRND iw ≠ 0 ∨ iTYP iw ≠ 0 ∨ iVC iw ≠ 0
      ∨ legV g (iVD iw) = false ∨ legV g (iVA iw) = false ∨ legV g (iVB iw) = false then none
  else
    some (perLane g iw 1 (fun l =>
      let j := (getV g (iVB iw) l).toNat % 32
      ((getV g (iVA iw) j).toNat, 0, getVP g (iVA iw) j || getVP g (iVB iw) l)))

/-- R802 BCAST: the value of VA in lane MOD[4:0]. -/
def opBcast (g : Group) (iw : IWord) : Option ArithRes :=
  if 31 < iMOD iw ∨ iSAT iw ≠ 0 ∨ iRND iw ≠ 0 ∨ iTYP iw ≠ 0 ∨ iVB iw ≠ 0 ∨ iVC iw ≠ 0
      ∨ legV g (iVD iw) = false ∨ legV g (iVA iw) = false then none
  else some (perLane g iw 1 (fun _ => ((getV g (iVA iw) (iMOD iw)).toNat, 0, getVP g (iVA iw) (iMOD iw))))

/-- R802 VOTE: of p[VA[2:0]] over the active lanes, to a scalar register; its guard decides whether it acts (R154). -/
def opVote (g : Group) (iw : IWord) : Option ArithRes :=
  if 2 < iMOD iw ∨ iSAT iw ≠ 0 ∨ iRND iw ≠ 0 ∨ iTYP iw ≠ 0 ∨ iVB iw ≠ 0 ∨ iVC iw ≠ 0 ∨ 7 < iVA iw ∨ 63 < iVD iw then none
  else
    let m := g.act &&& getPmask g (iVA iw)
    let w := if iMOD iw = 0 then (m != 0).toNat else if iMOD iw = 1 then (m == g.act).toNat else m.toNat
    some (scalarRes g iw (iVD iw) w ((g.act &&& getPPmask g (iVA iw)) != 0))

/-! ## Registers an instruction reads or writes (the scoreboard of R152) -/

/-- The vector registers a VR-format instruction names when each operand has the given number of registers. -/
def usesVR (iw : IWord) (nd na nb nc : Nat) : List Nat :=
  coverV (iVD iw) nd ++ coverV (iVA iw) na ++ coverV (iVB iw) nb ++ coverV (iVC iw) nc

end Sys2Proof.Machine
end

