-- ==== Sys2Proof/Machine/Issue.lean ====
section
/-! DEFINITION. Sys2Proof/Machine/Issue.lean: when a group's instruction issues (R152, R154, R187, R339), and the waits of
releases (R345). An instruction that may not issue yet leaves the state as it is: it is sent again (log 8). -/

namespace Sys2Proof.Machine

open Sys2Proof

/-- The group of an instruction's slot, where it issues: it is not waiting, its command has not stopped, and neither the
module nor its slice is stopped, and its cluster's clock runs (R576). -/
def mayIssue (s : Dev) (iw : IWord) : Option Group :=
  if whoaStopped s then none
  else
    match getGroup s iw.core iw.slot with
    | none => none
    | some g =>
      if g.hold ≠ .run then none
      else
        match getCmd s g.cmd with
        | none => none
        | some c => if c.status.isSome || frozenSlice s c.tag || (getCl s (coreCluster iw.core)).gated then none else some g

/-- R152: a register an instruction names has an older write pending. -/
def busy (g : Group) (vs ss : List Nat) : Bool := vs.any (fun r => g.busyV.contains r) || ss.any (fun r => g.busyS.contains r)

/-- The group goes on at the next instruction. -/
def Group.next (g : Group) : Group := { g with pc := g.pc + 8 }

/-- R683: count an instruction that has issued: its group is gone, has moved on or is held. -/
def countIssue (s : Dev) (iw : IWord) (code : Nat) (g : Group) : Dev :=
  match getGroup s iw.core iw.slot with
  | some h => if h.pc = g.pc ∧ h.hold = g.hold ∧ h.act = g.act then s else countCore s iw.core code 1
  | none => countCore s iw.core code 1

/-- R138, R150, R206, R247: an error in storage of a core as a group's instruction reads it. A single-bit error is corrected; a double-bit
error poisons the value read. The errors of a fabric are its own commands'. -/
def sramCore (s : Dev) (core slot : Nat) (p : SramPlace) (double : Bool) : Dev :=
  let bad (f : Dev → Dev) : Dev := if double then f s else s
  match p with
  | .vector r l => sramRec (bad (fun s => modGroup s core slot (fun g => { g with vp := tabSet (fun _ => false) g.vp (32 * r + l) true }))) (coreErr core) double
  | .scalar r => sramRec (bad (fun s => modGroup s core slot (fun g => { g with sp := tabSet (fun _ => false) g.sp r true }))) (coreErr core) double
  | .pred r l => sramRec (bad (fun s => modGroup s core slot (fun g => { g with pp := tabMod (fun _ => 0) g.pp r (fun m => putBit m l true) }))) (coreErr core) double
  | .localMem w => sramRec (bad (fun s => modCore s core (fun c => { c with lmPoison := insSorted w c.lmPoison }))) (coreErr core) double
  | .tile t => sramRec (bad (fun s => modCore s core (fun c => { c with tiles := tabMod (fun _ => Tile.init) c.tiles t (fun x => { x with poison := true }) }))) { coreErr core with unit := 0x01 } double
  | .scratch g => sramSpad s (coreCluster core) g double
  | .element _ _ => s
  | .context => s
  -- parity: the line is invalidated, and fetched again where it is next needed
  | .l1 line => sramRec (modCore s core (fun c => { c with l1 := c.l1.filter (fun l => l.line != line) })) (coreErr core) false
  | .icache => sramRec s (coreErr core) false

/-- R206: the storage error an instruction meets as it issues, before it reads its operands. -/
def meetSram (s : Dev) (iw : IWord) : Dev :=
  match iw.sram with
  | none => s
  | some e => sramCore s iw.core iw.slot e.1 e.2

/-- Issue an instruction: `code` is its issue event (R683), `vs` and `ss` the registers it names, `f` its effect. A word
fetched with poison raises INSTRUCTION_POISON (R206), and one whose opcode the map does not list the illegal-instruction exception (R170,
R171); a word that carries another row's opcode is that row's. -/
def issue (s : Dev) (iw : IWord) (code : Nat) (vs ss : List Nat) (f : Dev → Group → Dev) : Dev :=
  match mayIssue s iw with
  | none => s
  | some g =>
    if iw.poison then raiseExc s iw.core iw.slot 0x0B
    else
      match iw.opcode with
      | some b => if opListed b then s else raiseExc s iw.core iw.slot 0x01
      | none =>
        if busy g vs ss then s
        else
          match getGroup (meetSram s iw) iw.core iw.slot with
          | none => s
          | some g => countIssue (f (meetSram s iw) g) iw code g

/-- The illegal-instruction exception (R171). -/
def illegal (s : Dev) (iw : IWord) : Dev := raiseExc s iw.core iw.slot 0x01

/-- Store the group of an instruction's slot. -/
def putGroup (s : Dev) (iw : IWord) (g : Group) : Dev := setGroup s iw.core iw.slot (some g)

/-- The instruction has no effect: the group goes on (R154). -/
def skip (s : Dev) (iw : IWord) (g : Group) : Dev := putGroup s iw g.next

/-- R157, R206, R802: an arithmetic instruction. -/
def issueArith (s : Dev) (iw : IWord) (code : Nat) (vs ss : List Nat) (f : Group → Option ArithRes) : Dev :=
  issue s iw code vs ss (fun s g =>
    match f g with
    | none => illegal s iw
    | some r =>
      let s := putGroup s iw r.g.next
      let s := if r.fl = 0 then s else orFlags s g.cmd r.fl
      if r.poison then markPoison s g.cmd else s)

/-! ## Waits of releases, fences and marked accesses -/

/-- R345: whether a wait at a scope covers a write of a level. -/
def covers (scope level : Nat) : Bool := decide (level ≤ scope)

/-- What a release at a scope finds: nothing to wait for, writes in flight, or a write that was lost and the status that gives. -/
inductive RelWait where
  | done | waiting
  | lost (status : Nat)
deriving DecidableEq, Repr

/-- R177, R190, R345, R370: a release or FENCE.S of a group at a scope: at core scope every store is in the buffer; at wider
scopes the group's stores and atomics that the scope covers must have been performed, and none of them lost. -/
def releaseWait (s : Dev) (core slot scope : Nat) (g : Group) : RelWait :=
  if scope = 0 then .done
  else
    match g.lost.find? (fun l => covers scope l.1) with
    | some l => .lost l.2
    | none =>
      let c := getCore s core
      let sb := c.sb.any (fun e => e.groups.getLsbD slot && e.cmds.contains g.cmd && covers scope (lostLevel s (e.line * 512)))
      let rq := c.reqs.any (fun r => r.slot == slot && !r.served && (r.kind == .atom || r.kind == .stc))
      if sb || rq then .waiting else .done

/-- R351: a release, a BAR or an atomic with release order, at any scope, and a fence of cluster scope or wider, seal the core's entries. -/
def sealFor (s : Dev) (core : Nat) : Dev := sealSb s core (fun _ => true)

/-- R177: an acquire of the group has not returned. -/
def acqPending (s : Dev) (core slot : Nat) : Bool := (getCore s core).reqs.any (fun r => r.slot == slot && r.acq)

/-- R339: a marked access of the group has not been performed: an acquire, a release store in the buffer, or an atomic, LDR or STC with
an order. -/
def markedPending (s : Dev) (core slot : Nat) : Bool :=
  acqPending s core slot || (getCore s core).reqs.any (fun r => r.slot == slot && r.marked && !r.served)
    || (getCore s core).sb.any (fun e => e.rel && e.groups.getLsbD slot)

/-- R354: in TSO mode later accesses wait for the group's atomics. -/
def tsoAtomPending (s : Dev) (core slot : Nat) : Bool :=
  tso s && (getCore s core).reqs.any (fun r => r.slot == slot && !r.served && (r.kind == .atom || r.kind == .ldr || r.kind == .stc))

/-- R177, R187, R339, R354: later memory instructions of a group wait; `marked` ones for earlier marked accesses too. -/
def memHeld (s : Dev) (core slot : Nat) (marked : Bool) : Bool :=
  acqPending s core slot || tsoAtomPending s core slot || (marked && markedPending s core slot)

/-- R370, R373: a wait meets a lost write: the command ends at this instruction. -/
def storeLostAt (s : Dev) (core key status : Nat) : Dev := endCmd s key status (some { coreErr core with cause := 0x0011 })

/-- R207, R532: a group has reached a safe point: it halts there when it is asked to stop. -/
def safePoint (s : Dev) (iw : IWord) : Dev :=
  match getGroup s iw.core iw.slot with
  | none => pokeCore s iw.core
  | some g =>
    if stopAsked s iw.core g && g.hold == .run then pokeCore (putGroup s iw { g with hold := .stopped }) iw.core
    else pokeCore s iw.core

end Sys2Proof.Machine
end

