-- ==== Sys2Proof/Machine/Arith.lean ====
section
/-! DEFINITION. Sys2Proof/Machine/Arith.lean: the arithmetic instructions of opcode groups 0x1 to 0x9 (R155, R802), each one
issue of its operation with the registers it names. -/

namespace Sys2Proof.Machine

open Sys2Proof

/-- The command's stochastic-rounding seed (R91, R480). -/
def seedOf (s : Dev) (iw : IWord) : Word :=
  match getGroup s iw.core iw.slot with
  | none => 0
  | some g =>
    match getCmd s g.cmd with
    | some c => BitVec.ofNat 64 (fld c.desc 319 256)
    | none => 0

/-- The command's arithmetic flags (R77). -/
def flagsOf (s : Dev) (iw : IWord) : BitVec 8 :=
  match getGroup s iw.core iw.slot with
  | none => 0
  | some g =>
    match getCmd s g.cmd with
    | some c => c.flags
    | none => 0

/-- SALU: a 64-bit scalar operation (R802). -/
def execSalu (iw : IWord) (s : State) : Out' :=
  upd s (fun s => issueArith s iw 4 [] [sSD iw, sSA iw, sSB iw] (fun g => opSalu g iw))

/-- SCMP (R802). -/
def execScmp (iw : IWord) (s : State) : Out' :=
  upd s (fun s => issueArith s iw 4 [] [sSD iw, sSA iw, sSB iw] (fun g => opScmp g iw))

/-- SALUI (R802). -/
def execSalui (iw : IWord) (s : State) : Out' :=
  upd s (fun s => issueArith s iw 4 [] [sSD iw, sSA iw] (fun g => opSalui g iw))

/-- SCMPI (R802). -/
def execScmpi (iw : IWord) (s : State) : Out' :=
  upd s (fun s => issueArith s iw 4 [] [sSD iw, sSA iw] (fun g => opScmpi g iw))

/-- MOV (R802). -/
def execMov (iw : IWord) (s : State) : Out' :=
  upd s (fun s => issueArith s iw 4 [] [sSD iw, sSA iw] (fun g => opMov g iw))

/-- MOVI (R802). -/
def execMovi (iw : IWord) (s : State) : Out' :=
  upd s (fun s => issueArith s iw 4 [] [sSD iw] (fun g => opMovi g iw))

/-- MOVHI (R802). -/
def execMovhi (iw : IWord) (s : State) : Out' :=
  upd s (fun s => issueArith s iw 4 [] [sSD iw, sSA iw] (fun g => opMovhi g iw))

/-- MOVSR: TIME is the time base (R676) (R802). -/
def execMovsr (iw : IWord) (s : State) : Out' :=
  upd s (fun s => issueArith s iw 4 [] [sSD iw] (fun g => opMovsr (timeBase s) (flagsOf s iw) g iw))

/-- P2S (R802). -/
def execP2s (iw : IWord) (s : State) : Out' :=
  upd s (fun s => issueArith s iw 4 [] [sSD iw] (fun g => opP2s g iw))

/-- VREAD (R802). -/
def execVread (iw : IWord) (s : State) : Out' :=
  upd s (fun s => issueArith s iw 4 [sMOD iw % 256] [sSD iw] (fun g => opVread g iw))

/-- VALU (R802). -/
def execValu (iw : IWord) (s : State) : Out' :=
  upd s (fun s => issueArith s iw 2 (usesVR iw 1 1 1 1) [] (fun g => opValu g iw))

/-- VALU64 (R802). -/
def execValu64 (iw : IWord) (s : State) : Out' :=
  upd s (fun s => issueArith s iw 2 (usesVR iw 2 2 2 0) [] (fun g => opValu64 g iw))

/-- VALUI (R802). -/
def execValui (iw : IWord) (s : State) : Out' :=
  upd s (fun s => issueArith s iw 2 (usesVR iw 1 1 0 0) [] (fun g => opValui g iw))

/-- FALU (R802). -/
def execFalu (iw : IWord) (s : State) : Out' :=
  upd s (fun s => issueArith s iw 2 (usesVR iw 1 1 1 1) [] (fun g => opFalu g iw))

/-- FALUI (R802). -/
def execFalui (iw : IWord) (s : State) : Out' :=
  upd s (fun s => issueArith s iw 2 (usesVR iw 1 1 0 0) [] (fun g => opFalui g iw))

/-- DALU (R802). -/
def execDalu (iw : IWord) (s : State) : Out' :=
  upd s (fun s => issueArith s iw 2 (usesVR iw 2 2 2 2) [] (fun g => opDalu g iw))

/-- HALU (R802). -/
def execHalu (iw : IWord) (s : State) : Out' :=
  upd s (fun s => issueArith s iw 2 (usesVR iw 1 1 1 1) [] (fun g => opHalu g iw))

/-- CVT (R156) (R802). -/
def execCvt (iw : IWord) (s : State) : Out' :=
  upd s (fun s => issueArith s iw 2 (usesVR iw 1 1 1 1) [] (fun g => opCvt (seedOf s iw) g iw))

/-- CVTD (R802). -/
def execCvtd (iw : IWord) (s : State) : Out' :=
  upd s (fun s => issueArith s iw 2 (usesVR iw 1 2 1 1) [] (fun g => opCvtd (seedOf s iw) g iw))

/-- CVT2D (R802). -/
def execCvt2d (iw : IWord) (s : State) : Out' :=
  upd s (fun s => issueArith s iw 2 (usesVR iw 2 1 0 0) [] (fun g => opCvt2d g iw))

/-- FCMP (R802). -/
def execFcmp (iw : IWord) (s : State) : Out' :=
  upd s (fun s => issueArith s iw 2 (usesVR iw 0 1 1 0) [] (fun g => opFcmp g iw))

/-- ICMP (R802). -/
def execIcmp (iw : IWord) (s : State) : Out' :=
  upd s (fun s => issueArith s iw 2 (usesVR iw 0 1 1 0) [] (fun g => opIcmp g iw))

/-- DCMP (R802). -/
def execDcmp (iw : IWord) (s : State) : Out' :=
  upd s (fun s => issueArith s iw 2 (usesVR iw 0 2 2 0) [] (fun g => opDcmp g iw))

/-- SEL (R802). -/
def execSel (iw : IWord) (s : State) : Out' :=
  upd s (fun s => issueArith s iw 2 (usesVR iw 1 1 1 0) [] (fun g => opSel g iw))

/-- PLOG (R802). -/
def execPlog (iw : IWord) (s : State) : Out' :=
  upd s (fun s => issueArith s iw 2 [] [] (fun g => opPlog g iw))

/-- SHFL (R802). -/
def execShfl (iw : IWord) (s : State) : Out' :=
  upd s (fun s => issueArith s iw 2 (usesVR iw 1 1 1 0) [] (fun g => opShfl g iw))

/-- BCAST (R802). -/
def execBcast (iw : IWord) (s : State) : Out' :=
  upd s (fun s => issueArith s iw 2 (usesVR iw 1 1 0 0) [] (fun g => opBcast g iw))

/-- VOTE (R802). -/
def execVote (iw : IWord) (s : State) : Out' :=
  upd s (fun s => issueArith s iw 2 [] [iVD iw % 64] (fun g => opVote g iw))

end Sys2Proof.Machine
end

