-- ==== Sys2Proof/Machine/Bar0.lean ====
section
/-! DEFINITION. Sys2Proof/Machine/Bar0.lean: how a set-up write reaches a register (R11, R28 to R30, R67, R458, R459, R695):
which offsets hold a register, the lease, and the writes held by a stopped module. -/

namespace Sys2Proof.Machine

open Sys2Proof

/-- A hub has been lost (R663). -/
def hubLost (s : Dev) (h : Nat) : Bool := (getF s fFLT_HEALTH_HUBS_BAYS).testBit h

/-- A die index is in service: compute dies 0 to 7, HN 8, HO 9, an admitted bay 10 or 11 (R445). -/
def dieThere (s : Dev) (d : Nat) : Bool :=
  if d < 8 then !dieLost s d else if d < 10 then !hubLost s (d - 8) else getF s (fDL_BAY_STATUS_STATE (d - 10)) == 2

/-- R444, R445, R448: DL_TAP shows the dies in the test access chain. -/
def showTap (s : Dev) : Dev :=
  setF s fDL_TAP_INCHAIN (if debugOn s then maskOf ((bitsOf 12 s.pins.chain.toNat).filter (dieThere s)) else 0x300)

/-- R67, R663: the block or per-die window of an offset belongs to a part that is in service. -/
def windowThere (s : Dev) (off : Nat) : Bool :=
  if 0x1000000 ≤ off ∧ off < 0x3800000 then
    let i := (off - 0x1000000) / 0x400000
    if i < 8 then !dieLost s i else !hubLost s (i - 8)
  else if 0x100000 ≤ off ∧ off < 0x200000 then !hubLost s ((off - 0x100000) / 0x80000)
  else true

/-- R67: a register lies at an offset. -/
def regAt (s : Dev) (off : Nat) : Bool := (regSpecAt off).isSome && windowThere s off

/-- R458: a port (0 A, 1 B) holds the set-up lease: strictly before its expiry. -/
def holdsLease (s : Dev) (port : Nat) : Bool := getF s fID_SEM_OWNER == port + 1 && decide (s.now < s.leaseEnd)

/-- R458: no port holds the lease. -/
def leaseFree (s : Dev) : Bool := getF s fID_SEM_OWNER == 0 || decide (s.leaseEnd ≤ s.now)

/-- The lease ends (R458). -/
def endLease (s : Dev) : Dev := setF (setF s fID_SEM_OWNER 0) fID_SEM_REMAIN_MS 0

/-- R459, R501: a set-up write of a port that does not hold the lease is dropped, counted and its offset recorded. -/
def dropWrite (s : Dev) (port off : Nat) : Dev :=
  setF (satF s (if port = 0 then fID_DROP_DROPS_A else fID_DROP_DROPS_B) 1) fID_DROP_LAST_OFF off

/-- R30: another BAR0 access of the port discards a held lower half, which is logged. -/
def dropHeld (s : Dev) (port : Nat) : Dev :=
  match (getPort s port).held with
  | some h => setupError (modPort s port (fun p => { p with held := none })) port h.off
  | none => s

/-- BAR0 answers on a port: the port's link is up and the control plane runs (R619, R790). -/
def bar0Open (s : Dev) (port : Nat) : Bool := portUp s port && stage s != 0

/-- R628: while STAGE is HALTER or FAILED, the registers that accept every write. -/
def halterFull (off : Nat) : Bool :=
  off / 0x100000 == 0 || off / 0x100000 == 0xA || off / 0x10000 == 0x10 || off / 0x10000 == 0x18
    || off == offPW_BUDGET || off == offPW_RAMP || off == offPW_GATE

/-- R628: the registers whose count fields a write sets in Halter. -/
def halterCount (off : Nat) : Bool :=
  (List.range 16).any (fun i => off == offDL_LINK_ERR i || off == offMT_STACK i) || off == offFLT_CNT0 || off == offFLT_CNT1
    || [0, 1].any (fun i => off == offFLT_ER_LOST i || off == offOBS_TRB_DROPS i)
    || (decide (offOBS_DIE_CTR 0 0 ≤ off) && decide (off < offOBS_DIE_CTR 8 0)) || (decide (offOBS_HUB_CTR 0 0 ≤ off) && decide (off < offOBS_HUB_CTR 2 0))

/-- R628: the fields of MT_, DL_, FLT_ and OBS_ that a write acts on in Halter. -/
def halterField (off : Nat) (f : FieldSpec) : Bool :=
  let b := off / 0x100000
  (b == 4 || b == 6 || b == 7 || b == 9) && (f.acc == .w1c || (halterCount off && f.acc == .rw))

/-- R628: what a write does while STAGE is HALTER or FAILED. -/
def halterWrite (s : Dev) (port off : Nat) (data : Word) (eff : Dev → Dev) : Dev :=
  if halterFull off then eff s
  else
    match regSpecAt off with
    | some r => if r.fields.any (halterField off) then writeRegBy s off data (halterField off) else setupError s port off
    | none => setupError s port off

/-- R735: the TDI of a slice is CONFIG_LOCKED or RUN. -/
def tdiLocked (s : Dev) (n : Nat) : Bool := tabGet (fun _ => 0) s.mg.tdi n == 1 || tabGet (fun _ => 0) s.mg.tdi n == 2

/-- R735: an offset whose writes a locked TDI refuses: the registers of R518, CD_SLICE_CFGn, and CH_SQn_CFG and CH_CQn_CFG of the
slice's channels. SLC_n_CFG, of which only PIN_KIB is held, is judged by its own write. -/
def tdiHolds (s : Dev) (off : Nat) : Bool :=
  (List.range 16).any (fun n => tdiLocked s n &&
    (off == offSLC_RGNS n || off == offSLC_CHAN n || off == offSLC_PTBASE n || off == offSLC_CTXTAB n || off == offCD_SLICE_CFG n
      || (List.range 8).any (fun k => off == offSLC_PASID n k)
      || (List.range 16).any (fun c => getF s (fCH_STATUS_OWNED c) == 1 && getF s (fCH_STATUS_SLICE c) == n
            && (List.range 64).any (fun r => off == offCH_SQ_CFG c r || off == offCH_CQ_CFG c r))))

/-- A set-up write that the device has taken acts, by the stage and the TDI of its slice. -/
def setupApply (s : Dev) (port off : Nat) (data : Word) (eff : Dev → Dev) : Dev :=
  if stage s = 1 ∨ stage s = 3 then halterWrite s port off data eff
  else if tdiHolds s off then setupError s port off
  else eff s

/-- R459, R695: a 64-bit set-up write of a register reaches the device: judged by its offset, then by the lease; it takes effect,
or is held until resume while the module is stopped; RESUME itself acts (R698). -/
def setupArrives (s : Dev) (port off : Nat) (data : Word) (eff : Dev → Dev) : Dev :=
  if !regAt s off then setupError s port off
  else if !holdsLease s port then dropWrite s port off
  else if whoaStopped s && !(off == offOBS_WHOA_CTL && data.getLsbD 1) then { s with obs := { s.obs with heldSetup := s.obs.heldSetup ++ [(port, off, data)] } }
  else setupApply s port off data eff

/-- A set-up write made as one 64-bit access. -/
def setupWr (port off : Nat) (data : Word) (eff : Dev → Dev) (s : Dev) : Dev :=
  if bar0Open s port then setupArrives (dropHeld s port) port off data eff else s

end Sys2Proof.Machine
end

