-- ==== Sys2Proof/Machine/Tiles.lean ====
section
/-! DEFINITION. Sys2Proof/Machine/Tiles.lean: what the engines of a cluster share at issue: the range tracker (R262, R263) and
completion tokens (R123). -/

namespace Sys2Proof.Machine

open Sys2Proof

/-! ## The range tracker -/

/-- An interval an operation takes: a SPAD entry is in physical addresses, a VIRT entry in virtual ones; a scratchpad operand
named by a virtual address also gives that interval, for comparison. -/
structure TrkReq where
  kind : TrkKind
  lo : Nat
  hi : Nat
  va : Option (Nat × Nat)
  part : Nat
  dst : Bool
deriving DecidableEq, Repr

/-- R263: a new operation's interval against the entries held. -/
def trkConflict (s : Dev) (core : Nat) (q : TrkReq) : Bool :=
  (getCore s core).trk.any (fun t =>
    match t.kind with
    | .spad => (match q.kind with
        | .spad => overlaps q.lo q.hi t.lo t.hi
        | .virt => false)
    | .virt => (match q.kind with
        | .virt => overlaps q.lo q.hi t.lo t.hi
        | .spad => match q.va with
          | some v => overlaps v.1 v.2 t.lo t.hi
          | none => false))

/-- R122, R262: an operation can take its entries: 32 in all, and none overlaps one held. -/
def trkFree (s : Dev) (core : Nat) (qs : List TrkReq) : Bool :=
  decide ((getCore s core).trk.length + qs.length ≤ 32) && !qs.any (trkConflict s core)

/-- R359: whether an earlier access of the core to a line may meet one of an operation's intervals: a scratchpad interval by its
bytes, a virtual one whenever the line lies outside the scratchpad windows. -/
def lineAhead (s : Dev) (qs : List TrkReq) (line : Nat) : Bool :=
  let spad := match placeOf s (line * 512) with
    | .spad _ _ => true
    | _ => false
  qs.any (fun q => match q.kind with
    | .spad => spad && overlaps q.lo q.hi (line * 512) (line * 512 + 512)
    | .virt => !spad)

/-- R359: accesses of the core that have not yet taken effect stand before an operation. -/
def accessesAhead (s : Dev) (core : Nat) (qs : List TrkReq) : Bool :=
  (getCore s core).sb.any (fun e => !e.applied && lineAhead s qs e.line) || (getCore s core).reqs.any (fun r => !r.served && lineAhead s qs r.line)

/-- R122, R263, R359: an asynchronous operation may issue. -/
def asyncReady (s : Dev) (core : Nat) (qs : List TrkReq) : Bool := trkFree s core qs && !accessesAhead s core qs

/-- An asynchronous operation waits at issue: the store-buffer entries before it are sealed. -/
def asyncHold (s : Dev) (core : Nat) (qs : List TrkReq) : Dev :=
  countCore (sealSb s core (fun e => lineAhead s qs e.line)) core 0x08 1

/-- Take entries for an operation. -/
def trkTake (s : Dev) (core op cmd : Nat) (qs : List TrkReq) : Dev :=
  modCore s core (fun c => { c with trk := c.trk ++ qs.map (fun q => { kind := q.kind, lo := q.lo, hi := q.hi, op := op, cmd := cmd, part := q.part, dst := q.dst }) })

/-- R359: release entries of an operation that satisfy `p`: a destination's release drops the L1 sectors that it covers. -/
def trkRelease (s : Dev) (core op : Nat) (p : TrkEntry → Bool) : Dev :=
  let es := (getCore s core).trk.filter (fun t => t.op == op && p t)
  let s := es.foldl (fun s t => if t.dst && t.kind == .virt then l1DropRange s core t.lo t.hi else s) s
  modCore s core (fun c => { c with trk := c.trk.filter (fun t => !(t.op == op && p t)) })

/-! ## Tokens (R123) -/

/-- The count of a token. -/
def tokCount (g : Group) (k : Nat) : Nat := tabGet (fun _ => 0) g.tok k

/-- Raise a token's count. -/
def tokRaise (g : Group) (k : Nat) : Group := { g with tok := tabMod (fun _ => 0) g.tok k (fun n => n + 1) }

/-- R198: a poisoned scalar operand, or predicate. -/
def asyPoison (g : Group) (iw : IWord) (uses : List Nat) : Bool := uses.any (fun r => getSP g r) || predPoisonAny g iw

end Sys2Proof.Machine
end

