-- ==== Sys2Proof/Machine/MemInstr.lean ====
section
/-! DEFINITION. Sys2Proof/Machine/MemInstr.lean: the memory, atomic and reservation instructions (R160 to R185): LD, ST, LDS,
STS, LDL, STL, ATOM, LDR, STC. A global access forms one request per line, served by HOME_READ or HOME_ATOMIC and
returned by LOAD_RESPONSE; a store enters the store buffer. -/

namespace Sys2Proof.Machine

open Sys2Proof

/-- One participating lane's element: lane, virtual address, physical address, attributes. -/
structure LaneAcc where
  lane : Nat
  va : Nat
  pa : Nat
  attr : PageAttr
deriving DecidableEq, Repr

/-- How the addresses of an access end. -/
inductive AddrRes where
  | ok (l : List LaneAcc)
  /-- An exception; the address it records and whether that is a virtual one. -/
  | exc (code : Nat) (place : Option (Nat × Bool))
  | fault (addr : Nat)
deriving DecidableEq, Repr

/-- Element bytes of a SIZE code (R172). -/
def sizeBytes (c : Nat) : Nat := 2 ^ c

/-- Registers of 32 bits an element takes. -/
def sizeRegs (c : Nat) : Nat := if c = 3 then 2 else if c = 4 then 4 else 1

/-- R173: the address of a lane of a MEM-format instruction, modulo 2^64. -/
def memAddr (g : Group) (iw : IWord) (l : Nat) : Nat :=
  if mAMODE iw = 0 then
    wrapNat 64 (((getS g (mSB iw)).toNat : Int) + sextNat 32 (getV g (iVA iw) l).toNat * 2 ^ mSHL iw + mOFF iw)
  else wrapNat 64 ((getV64 g (iVA iw) l : Int) + mOFF iw)

/-- R179: the address of a lane of an ATM-format instruction. -/
def atmAddr (g : Group) (iw : IWord) (l : Nat) : Nat :=
  wrapNat 64 (((getS g (mSB iw)).toNat : Int) + sextNat 32 (getV g (iVA iw) l).toNat)

/-- R173, R176, R62, R273: check and translate the addresses of a global access, lanes in ascending order. Alignment is
checked before translation (log 9). `atom` says that host and peer windows are refused. -/
def resolve (s : Dev) (tag size : Nat) (write atom : Bool) (la : List (Nat × Nat)) : Dev × AddrRes :=
  match la.find? (fun x => x.2 % size != 0), la.find? (fun x => decide (2 ^ 48 ≤ x.2)) with
  | some x, _ => (s, .exc 0x02 (some (x.2, decide (tag < 0x10))))
  | none, some x => (s, .exc 0x03 (some (x.2, decide (tag < 0x10))))
  | none, none =>
    la.foldl (fun (acc : Dev × AddrRes) x =>
      match acc with
      | (s, .ok l) =>
        match translate s tag x.2 write with
        | (s, .ok pa attr) =>
          match placeOf s pa with
          | .bad => (s, .fault x.2)
          | .host _ _ => if atom then (s, .fault x.2) else (s, .ok (l ++ [{ lane := x.1, va := x.2, pa := pa, attr := attr }]))
          | .peer => if atom then (s, .fault x.2) else (s, .ok (l ++ [{ lane := x.1, va := x.2, pa := pa, attr := attr }]))
          | _ => (s, .ok (l ++ [{ lane := x.1, va := x.2, pa := pa, attr := attr }]))
        | (s, .access) => (s, .fault x.2)
        | (s, .trans none) => (s, .exc 0x03 (some (x.2, decide (tag < 0x10))))
        | (s, .trans (some ea)) => (s, .exc 0x03 (some (ea, false)))
      | r => r) (s, .ok [])

/-- R263: an access overlaps a held range of an asynchronous operation of its core. -/
def trkHit (s : Dev) (core size : Nat) (l : List LaneAcc) : Bool :=
  (getCore s core).trk.any (fun t => l.any (fun a =>
    let x := match t.kind with
      | .spad => a.pa
      | .virt => a.va
    decide (x < t.hi) && decide (t.lo < x + size)))

/-- The distinct lines of an access, in order of the lowest lane that touches each (R162). -/
def linesOf (l : List LaneAcc) : List (Nat × Nat) := (l.map (fun a => (a.pa / 512, a.va / 512))).eraseDups

/-- R36, R162: the credits that a core's requests hold: those outstanding to the unified cache, the sent writes of its store buffer
(R349) among them. -/
def creditsHeld (c : Core) : Nat :=
  (c.reqs.filter (fun r => !r.served)).length + (c.sb.filter (fun e => e.st == .sent && !e.applied)).length

/-- R162: the core's own 256 credits suffice for `n` requests more. -/
def coreCredits (s : Dev) (core n : Nat) : Bool := decide (creditsHeld (getCore s core) + n ≤ 256)

/-- R36: the die's 8,192 credits suffice for `n` requests more. -/
def dieCredits (s : Dev) (core n : Nat) : Bool :=
  decide ((s.cores.filter (fun e => coreDie e.1 == coreDie core)).foldl (fun a e => a + creditsHeld e.2) n ≤ 8192)

/-- The place at which a core's store buffer holds its next write for a credit: no slot of a group. -/
def sbSlot : Nat := 255

/-- An instruction, or a write that the store buffer is to send, still stands where it was held. -/
def stillHeld (s : Dev) (w : CreditWait) : Bool :=
  if w.slot = sbSlot then (getCore s w.core).sb.any (fun e => e.st != .sent)
  else match getGroup s w.core w.slot with
  | some g => g.cmd == w.cmd && g.pc.toNat == w.pc
  | none => false

/-- R36: the held instruction to which a die grants credits next: round robin over its regions, the oldest of a region first. -/
def creditNext (s : Dev) (die : Nat) : Option CreditWait :=
  let l := s.ms.creditQ.filter (fun w => coreDie w.core == die && stillHeld s w)
  [1, 2, 3, 4].findSome? (fun i => l.find? (fun w => coreRegion w.core % 4 == (tabGet (fun _ => 0) s.ms.creditTurn die + i) % 4))

/-- R36, R162: an instruction has the credits for its `n` requests together (DEDUCED, log 98): they suffice, and no held instruction comes
before it. -/
def creditsFor (s : Dev) (core slot n : Nat) : Bool :=
  coreCredits s core n && dieCredits s core n
    && (match creditNext s (coreDie core) with
      | some w => w.core == core && w.slot == slot
      | none => true)

/-- R36: where the core has the credits and its die grants none, the `n` requests of a slot are held in their place. -/
def holdAt (s : Dev) (core slot n cmd pc : Nat) : Dev :=
  let q := s.ms.creditQ.filter (stillHeld s)
  if !coreCredits s core n || q.any (fun w => w.core == core && w.slot == slot) then s
  else modMs s (fun m => { m with creditQ := q ++ [{ core := core, slot := slot, cmd := cmd, pc := pc }] })

/-- R36: an instruction's requests are held. -/
def holdCredit (s : Dev) (core slot n : Nat) (g : Group) : Dev := holdAt s core slot n g.cmd g.pc.toNat

/-- R36: a held instruction has been granted its credits. -/
def takeCredit (s : Dev) (core slot : Nat) : Dev :=
  if s.ms.creditQ.any (fun w => w.core == core && w.slot == slot) then
    modMs s (fun m => { m with creditQ := m.creditQ.filter (fun w => !(w.core == core && w.slot == slot)), creditTurn := tabSet (fun _ => 0) m.creditTurn (coreDie core) (coreRegion core % 4) })
  else s

/-- R353: an access at the point of coherence to a line with an entry in the store buffer causes that entry to be sent. -/
def sbBlocks (s : Dev) (core : Nat) (lines : List (Nat × Nat)) : Bool :=
  (getCore s core).sb.any (fun e => lines.any (fun x => x.1 == e.line))
def sealLines (s : Dev) (core : Nat) (lines : List (Nat × Nat)) : Dev :=
  sealSb s core (fun e => lines.any (fun x => x.1 == e.line))

/-- Ends of an instruction whose addresses fail. -/
def addrFail (s : Dev) (iw : IWord) (g : Group) (r : AddrRes) : Dev :=
  match r with
  | .exc c p => raiseExcAt s iw.core iw.slot c p
  | .fault a => coreFault s iw.core g.cmd 0x02 a (decide (cmdTag s g.cmd < 0x10))
  | .ok _ => s

/-! ## Loads -/

/-- The shape of a load as its requests carry it. -/
structure LoadShape where
  vd : Nat
  size : Nat
  sext : Bool
  scalar : Bool
  acq : Bool
  vol : Bool
  scope : Nat
  l1h : Nat
  dead : Bool
deriving DecidableEq, Repr

/-- R163, R165, R166: form one line's load request; bytes of the core's store buffer, and sectors the L1 holds, are taken at
issue, and a request that needs nothing more is served. -/
def loadReq (s : Dev) (iw : IWord) (g : Group) (sh : LoadShape) (inst : Nat) (accs : List LaneAcc) (pz : Nat → Bool) (ln : Nat × Nat) : Dev :=
  let mine := accs.filter (fun a => a.pa / 512 == ln.1 && a.va / 512 == ln.2)
  match mine with
  | [] => s
  | a0 :: _ =>
    let pa := ln.1 * 512
    let need := mine.foldl (fun m a => Nat.lor m ((2 ^ sh.size - 1) * 2 ^ (a.pa % 512))) 0
    let tier := decide (placeOf s pa = .tier)
    let useL1 := tier && decide (a0.attr.cache < 2) && sh.l1h != 2 && !sh.acq && !sh.vol && !tso s
    let (sd, sm, sp) := sbBytes s iw.core ln.1
    let l1 := if useL1 then (getCore s iw.core).l1.find? (fun l => l.line == ln.1 && l.va == ln.2) else none
    let (ld, lv, lp) := match l1 with
      | some l => (l.data, l.valid, l.poison)
      | none => ((0 : LineData), (0 : BitVec 8), (0 : BitVec 8))
    let fwd := mergeBytes 512 ld sd sm
    let fmask := Nat.lor (sectorBytes lv.toNat) sm
    let full := maskFullSectors sm
    let fp := BitVec.ofNat 8 (Nat.lor (Nat.land (Nat.land lp.toNat lv.toNat) (255 - full)) sp.toNat)
    let miss := maskSectors (need - Nat.land need fmask)
    let secs := maskSectors need
    let s := if useL1 then countCore (countCore s iw.core 0x0A (bitsOf 8 (Nat.land secs lv.toNat)).length) iw.core 0x0B (bitsOf 8 miss).length else s
    let s := if useL1 && Nat.land secs lv.toNat != 0 then l1Touch s iw.core ln.1 ln.2 else s
    let r : MemReq :=
      { id := s.nextKey, instr := inst, slot := iw.slot, cmd := g.cmd, tag := cmdTag s g.cmd, marked := sh.acq, kind := if sh.acq then .acqLoad else if sh.vol then .volLoad else .load,
        line := ln.1, va := ln.2, attr := a0.attr, sectors := BitVec.ofNat 8 miss,
        elems := mine.map (fun a => { lane := a.lane, off := a.pa % 512, opnd := 0, cmp := 0, poison := pz a.lane }),
        vd := sh.vd, size := sh.size, sext := sh.sext, scalar := sh.scalar, aop := 0, dt := 0, acq := sh.acq, scope := sh.scope,
        fwdMask := BitVec.ofNat 512 fmask, fwd := fwd, fwdPoison := fp,
        l1alloc := if useL1 && sh.l1h == 0 then (if a0.attr.cache = 1 then 2 else 1) else 0,
        dead := sh.dead, served := miss == 0, data := 0, poison := 0, results := [], waiting := false, returned := false }
    let s := modCore s iw.core (fun c => { c with reqs := c.reqs ++ [r] })
    { s with nextKey := s.nextKey + 1 }

/-- The kinds of request that only read. -/
def isLoad (k : ReqKind) : Bool := k == .load || k == .acqLoad || k == .volLoad

/-- R355: in TSO mode a group sends a load when its previous ones have returned, or go to the one point of coherence of its lines. -/
def tsoLoadHeld (s : Dev) (core slot : Nat) (lines : List (Nat × PageAttr)) : Bool :=
  let out := (getCore s core).reqs.filter (fun r => r.slot == slot && isLoad r.kind && !r.returned)
  match out with
  | [] => false
  | q :: _ =>
    let poc (l : Nat) (a : PageAttr) : Nat := pocOf s (coreEntry core) (l * 512) a
    let p := poc q.line q.attr
    !(out.all (fun r => poc r.line r.attr == p) && lines.all (fun l => poc l.1 l.2 == p))

/-- R162, R173, R176, R177, R353 to R355: a load of the given lanes. -/
def startLoad (s : Dev) (iw : IWord) (g : Group) (sh : LoadShape) (la : List (Nat × Nat)) (pz : Nat → Bool) (busyV busyS : List Nat) : Dev :=
  match la with
  | [] => skip s iw g
  | _ =>
    match resolve s (cmdTag s g.cmd) sh.size false false la with
    | (s1, .ok l) =>
      let ls := linesOf l
      if trkHit s1 iw.core sh.size l then s
      else if !creditsFor s1 iw.core iw.slot ls.length then holdCredit s iw.core iw.slot ls.length g
      else if tso s1 && tsoLoadHeld s1 iw.core iw.slot (l.map (fun a => (a.pa / 512, a.attr))) then s
      else if (sh.acq || sh.vol) && sbBlocks s1 iw.core ls then sealLines s iw.core ls
      else
        let inst := s1.nextKey
        let s2 := ls.foldl (fun s ln => loadReq s iw g sh inst l pz ln) (takeCredit s1 iw.core iw.slot)
        putGroup s2 iw { g.next with busyV := g.busyV ++ busyV, busyS := g.busyS ++ busyS }
    | (s1, r) => addrFail s1 iw g r

/-- R37, R38, R172: SCOPE and ORD of a load or store: zero scope without an order, no reserved scope. -/
def scopeLegal (ord scope : Nat) (loads : Bool) : Bool :=
  if ord = 1 then decide (scope < 6) else scope == 0 && (ord == 0 || (loads && ord == 2))

/-- R148, R171 to R173: legality of LD. -/
def ldLegal (g : Group) (iw : IWord) : Bool :=
  decide (mSIZE iw ≤ 4) && (mSEXT iw == 0 || decide (mSIZE iw ≤ 1)) && scopeLegal (mORD iw) (mSCOPE iw) true && decide (mL1H iw < 3)
    && (if mAMODE iw = 1 then mSHL iw == 0 && mSB iw == 0 && legV2 g (iVA iw) else legV g (iVA iw))
    && legVn g (iVD iw) (sizeRegs (mSIZE iw))

/-- Poison of a MEM address in a lane. -/
def addrPoison (g : Group) (iw : IWord) (l : Nat) : Bool :=
  predPoison g iw l || (if mAMODE iw = 0 then getSP g (mSB iw) || getVP g (iVA iw) l else getVP64 g (iVA iw) l)

/-- R162 LD. -/
def doLd (iw : IWord) (s : Dev) : Dev :=
  issue s iw 2 (coverV (iVD iw) (sizeRegs (mSIZE iw)) ++ coverV (iVA iw) (1 + mAMODE iw)) [mSB iw] (fun s g =>
    if !ldLegal g iw then illegal s iw
    else if memHeld s iw.core iw.slot (mORD iw == 1) then s
    else
      startLoad s iw g
        { vd := iVD iw, size := sizeBytes (mSIZE iw), sext := mSEXT iw == 1, scalar := false, acq := mORD iw == 1, vol := mORD iw == 2,
          scope := mSCOPE iw, l1h := mL1H iw, dead := mDEAD iw == 1 }
        ((lanesOf (execMask g iw)).map (fun l => (l, memAddr g iw l))) (addrPoison g iw) (coverV (iVD iw) (sizeRegs (mSIZE iw))) [])

/-- R174: legality of LDS and STS apart from ORD and hints. -/
def ldsLegal (iw : IWord) : Bool :=
  decide (iVD iw < 64) && mAMODE iw == 0 && mSHL iw == 0 && mSEXT iw == 0 && iVA iw == 255 && (mSIZE iw == 2 || mSIZE iw == 3)

/-- R174 LDS. -/
def doLds (iw : IWord) (s : Dev) : Dev :=
  issue s iw 4 [] [iVD iw, mSB iw] (fun s g =>
    if !ldsLegal iw || !scopeLegal (mORD iw) (mSCOPE iw) true || decide (3 ≤ mL1H iw) then illegal s iw
    else if !execOnce g iw then skip s iw g
    else if memHeld s iw.core iw.slot (mORD iw == 1) then s
    else
      startLoad s iw g
        { vd := iVD iw, size := sizeBytes (mSIZE iw), sext := false, scalar := true, acq := mORD iw == 1, vol := mORD iw == 2,
          scope := mSCOPE iw, l1h := mL1H iw, dead := mDEAD iw == 1 }
        [(0, wrapNat 64 (((getS g (mSB iw)).toNat : Int) + mOFF iw))] (fun _ => getSP g (mSB iw) || predPoisonAny g iw) [] [iVD iw])

/-! ## Stores -/

/-- One element to store: access, value, poison. -/
structure StoreElem where
  acc : LaneAcc
  val : Nat
  poison : Bool
deriving DecidableEq, Repr

/-- R178: the bytes an instruction stores to one line, the highest lane's byte remaining: data, mask, poison of sectors. -/
def storeLine (size : Nat) (els : List StoreElem) : LineData × Nat × BitVec 8 :=
  els.foldl (fun (a : LineData × Nat × BitVec 8) e =>
    let off := e.acc.pa % 512
    (putNat a.1 off size e.val, Nat.lor a.2.1 ((2 ^ size - 1) * 2 ^ off), if e.poison then a.2.2 ||| BitVec.ofNat 8 (2 ^ (off / 64)) else a.2.2)) (0, 0, 0)

/-- R350: the entry a store to a line merges into. -/
def mergeTarget (s : Dev) (core line : Nat) : Option SbEntry :=
  let sb := (getCore s core).sb
  if tso s then
    match sb.getLast? with
    | some e => if e.line = line ∧ e.st = .open then some e else none
    | none => none
  else sb.find? (fun e => e.line == line && e.st == .open)

/-- R136: a store of a core to its cluster's scratchpad invalidates the held copies it meets. -/
def storeInval (core size : Nat) (s : Dev) (a : LaneAcc) : Dev :=
  match placeOf s a.pa with
  | .spad cl off => if cl = coreCluster core then heldInval s core off (off + size) else s
  | _ => s

/-- R164, R350: put one line's stored bytes into the store buffer and the L1. -/
def bufferLine (s : Dev) (iw : IWord) (key size : Nat) (release : Bool) (els : List StoreElem) (line : Nat) : Dev :=
  let mine := els.filter (fun e => e.acc.pa / 512 == line)
  match mine with
  | [] => s
  | e0 :: _ =>
    let (d, m, p) := storeLine size mine
    let ws := (mine.map (fun e => (e.acc.pa % 512 / 64, iw.slot.val, e.acc.lane))).eraseDups
    let s := l1Update s iw.core line d m p
    let s := match placeOf s (line * 512) with
      | .spad _ _ => (mine.map (fun e => e.acc)).foldl (storeInval iw.core size) s
      | _ => s
    match (if release then none else mergeTarget s iw.core line) with
    | some t =>
      modSb s iw.core t.seq (fun e =>
        let full := maskFullSectors m
        { e with data := mergeBytes 512 e.data d m, mask := e.mask ||| BitVec.ofNat 512 m,
                 poison := BitVec.ofNat 8 (Nat.lor (Nat.land e.poison.toNat (255 - full)) p.toNat),
                 groups := e.groups ||| BitVec.ofNat 16 (2 ^ iw.slot.val), cmds := if e.cmds.contains key then e.cmds else e.cmds ++ [key],
                 writers := (e.writers ++ ws).eraseDups })
    | none =>
      let e : SbEntry :=
        { line := line, data := d, mask := BitVec.ofNat 512 m, poison := p, groups := BitVec.ofNat 16 (2 ^ iw.slot.val), cmds := [key],
          tag := cmdTag s key, st := if release then .sealed else .open, attr := e0.acc.attr, since := s.now, seq := s.nextKey, tso := tso s, writers := ws,
          rel := release, sentNo := 0, applied := false, peer := none }
      let s := modCore s iw.core (fun c => { c with sb := c.sb ++ [e] })
      { s with nextKey := s.nextKey + 1 }

/-- R350: a line's stores find an entry: one they may merge into, or a free one of the 16. -/
def entryFree (s : Dev) (core line : Nat) (release : Bool) : Bool :=
  decide ((getCore s core).sb.length < 16) || (!release && (mergeTarget s core line).isSome)

/-- R162, R350: the lines of a store enter the buffer in order while each finds an entry; the lanes that have are added. -/
def bufferLines (iw : IWord) (key size : Nat) (release : Bool) (els : List StoreElem) : List Nat → Dev × BitVec 32 → Dev × BitVec 32
  | [], a => a
  | ln :: rest, a =>
    if entryFree a.1 iw.core ln release then
      bufferLines iw key size release els rest (bufferLine a.1 iw key size release els ln,
        (els.filter (fun e => e.acc.pa / 512 == ln)).foldl (fun m e => putBit m e.acc.lane true) a.2)
    else a

/-- R164, R177, R350: a store of the given elements. A store that finds no entry waits at issue, with the lanes before it in the buffer. -/
def startStore (s : Dev) (iw : IWord) (g : Group) (size scope : Nat) (release : Bool) (la : List (Nat × Nat)) (val : Nat → Nat) (pz : Nat → Bool) : Dev :=
  let la := la.filter (fun x => !g.stored.getLsbD x.1)
  match la with
  | [] => skip s iw { g with stored := 0 }
  | _ =>
    match resolve s (cmdTag s g.cmd) size true false la with
    | (s1, .ok l) =>
      if trkHit s1 iw.core size l then s
      else
        match (if release && g.stored == 0 then releaseWait s1 iw.core iw.slot scope g else .done) with
        | .waiting => sealFor s iw.core
        | .lost st => storeLostAt s iw.core g.cmd st
        | .done =>
          let els := l.map (fun a => { acc := a, val := val a.lane, poison := pz a.lane })
          let s2 := if release && g.stored == 0 then sealFor s1 iw.core else s1
          match bufferLines iw g.cmd size release els ((l.map (fun a => a.pa / 512)).eraseDups) (s2, g.stored) with
          | (s3, done) =>
            if done = g.stored then s
            else
              let s3 := if els.any (fun e => e.poison && done.getLsbD e.acc.lane) then markPoison s3 g.cmd else s3
              if l.all (fun a => done.getLsbD a.lane) then skip s3 iw { g with stored := 0 } else putGroup s3 iw { g with stored := done }
    | (s1, r) => addrFail s1 iw g r

/-- R164 ST. -/
def doSt (iw : IWord) (s : Dev) : Dev :=
  issue s iw 2 (coverV (iVD iw) (sizeRegs (mSIZE iw)) ++ coverV (iVA iw) (1 + mAMODE iw)) [mSB iw] (fun s g =>
    if !(ldLegal g iw && mSEXT iw == 0 && scopeLegal (mORD iw) (mSCOPE iw) false && mL1H iw == 0 && mDEAD iw == 0) then illegal s iw
    else if memHeld s iw.core iw.slot (mORD iw == 1) then s
    else
      startStore s iw g (sizeBytes (mSIZE iw)) (mSCOPE iw) (mORD iw == 1) ((lanesOf (execMask g iw)).map (fun l => (l, memAddr g iw l)))
        (fun l => getVn g (iVD iw) l (sizeRegs (mSIZE iw))) (fun l => addrPoison g iw l || getVPn g (iVD iw) l (sizeRegs (mSIZE iw))))

/-- R174 STS. -/
def doSts (iw : IWord) (s : Dev) : Dev :=
  issue s iw 4 [] [iVD iw, mSB iw] (fun s g =>
    if !ldsLegal iw || !scopeLegal (mORD iw) (mSCOPE iw) false || mL1H iw != 0 || mDEAD iw != 0 then illegal s iw
    else if !execOnce g iw then skip s iw g
    else if memHeld s iw.core iw.slot (mORD iw == 1) then s
    else
      startStore s iw g (sizeBytes (mSIZE iw)) (mSCOPE iw) (mORD iw == 1) [(0, wrapNat 64 (((getS g (mSB iw)).toNat : Int) + mOFF iw))]
        (fun _ => (getS g (iVD iw)).toNat) (fun _ => getSP g (mSB iw) || getSP g (iVD iw) || predPoisonAny g iw))

/-! ## Local memory -/

/-- The block of a slot. -/
def blockOf (s : Dev) (core slot : Nat) : Option Block := (getCore s core).blocks.find? (fun b => b.slots.contains slot)

/-- R160: cycles beyond the first of each phase that bank conflicts cost (the replay cycles of R683). -/
def lmReplays (size : Nat) (addrs : List (Nat × Nat)) : Nat :=
  let per := if size = 8 then 16 else if size = 16 then 8 else 32
  (List.range (32 / per)).foldl (fun a ph =>
    let words := ((addrs.filter (fun x => x.1 / per == ph)).flatMap (fun x => (List.range (max 1 (size / 4))).map (fun i => x.2 / 4 + i))).eraseDups
    let ways := (List.range 32).foldl (fun m b => max m (words.filter (fun w => w % 32 == b)).length) 0
    a + (ways - 1)) 0

/-- Read an element of local memory with its poison; `base` is the block's first byte. -/
def lmRead (c : Core) (base a size : Nat) : Nat × Bool :=
  (readNat c.lm (base + a) size, (List.range (max 1 (size / 4))).any (fun i => c.lmPoison.contains ((base + a) / 4 + i)))

/-- Write an element of local memory: a whole clean word clears its poison. -/
def lmWrite (c : Core) (base a size v : Nat) (poison : Bool) : Core :=
  let words := (List.range (max 1 (size / 4))).map (fun i => (base + a) / 4 + i)
  { c with lm := writeNat c.lm (base + a) size v (2 ^ size - 1),
           lmPoison := if poison then words.foldl (fun l w => insSorted w l) c.lmPoison
                       else if 4 ≤ size then c.lmPoison.filter (fun w => !(words.contains w)) else c.lmPoison }

/-- R173, R175: the checked local addresses of a MEM or ATM access, or the exception. -/
def lmAddrs (b : Block) (size : Nat) (la : List (Nat × Nat)) : AddrRes :=
  let la := la.map (fun x => (x.1, x.2 % 2 ^ 32))
  if la.any (fun x => x.2 % size != 0) then .exc 0x02 none
  else if la.any (fun x => decide (b.lmKiB * 1024 < x.2 + size)) then .exc 0x04 none
  else .ok (la.map (fun x => { lane := x.1, va := x.2, pa := b.lmBase * 1024 + x.2, attr := { home := 0, cache := 0, sharedRO := false, owner := 0 } }))

/-- R175: the fields LDL and STL must leave zero. -/
def lmLegal (iw : IWord) : Bool :=
  mAMODE iw == 0 && mORD iw == 0 && mSCOPE iw == 0 && mL1H iw == 0 && mDEAD iw == 0

/-- An element as it lands in a register: extended to 32 bits for one and two bytes (R172). -/
def extElem (size : Nat) (sext : Bool) (v : Nat) : Nat := if sext then wrapNat 32 (sextNat (8 * size) v) else v

/-- R160 LDL. -/
def doLdl (iw : IWord) (s : Dev) : Dev :=
  issue s iw 2 (coverV (iVD iw) (sizeRegs (mSIZE iw)) ++ coverV (iVA iw) 1) [mSB iw] (fun s g =>
    if !(ldLegal g iw && lmLegal iw) then illegal s iw
    else if memHeld s iw.core iw.slot false then s
    else
      match blockOf s iw.core iw.slot with
      | none => s
      | some b =>
        let size := sizeBytes (mSIZE iw)
        match lmAddrs b size ((lanesOf (execMask g iw)).map (fun l => (l, memAddr g iw l))) with
        | .ok l =>
          let c := getCore s iw.core
          let (g', pz) := l.foldl (fun (acc : Group × Bool) a =>
            let (v, p) := lmRead c (b.lmBase * 1024) a.va size
            let p := p || addrPoison g iw a.lane
            (setVn acc.1 (iVD iw) a.lane p (sizeRegs (mSIZE iw)) (extElem size (mSEXT iw == 1) v), acc.2 || p)) (g, false)
          let s := countCore s iw.core 0x0C (lmReplays size (l.map (fun a => (a.lane, a.va))))
          let s := putGroup s iw g'.next
          if pz then markPoison s g.cmd else s
        | r => addrFail s iw g r)

/-- R160 STL. -/
def doStl (iw : IWord) (s : Dev) : Dev :=
  issue s iw 2 (coverV (iVD iw) (sizeRegs (mSIZE iw)) ++ coverV (iVA iw) 1) [mSB iw] (fun s g =>
    if !(ldLegal g iw && lmLegal iw && mSEXT iw == 0) then illegal s iw
    else if memHeld s iw.core iw.slot false then s
    else
      match blockOf s iw.core iw.slot with
      | none => s
      | some b =>
        let size := sizeBytes (mSIZE iw)
        match lmAddrs b size ((lanesOf (execMask g iw)).map (fun l => (l, memAddr g iw l))) with
        | .ok l =>
          let pzOf (l : Nat) : Bool := addrPoison g iw l || getVPn g (iVD iw) l (sizeRegs (mSIZE iw))
          let s := modCore s iw.core (fun c => l.foldl (fun c a =>
            lmWrite c (b.lmBase * 1024) a.va size (getVn g (iVD iw) a.lane (sizeRegs (mSIZE iw))) (pzOf a.lane)) c)
          let s := countCore s iw.core 0x0C (lmReplays size (l.map (fun a => (a.lane, a.va))))
          let s := if l.any (fun a => pzOf a.lane) then markPoison s g.cmd else s
          skip s iw g
        | r => addrFail s iw g r)

/-! ## Atomics and reservations -/

/-- R148, R171, R179, R180: legality of ATOM. -/
def atomLegal (g : Group) (iw : IWord) : Bool :=
  let n := 1 + aW64 iw
  decide (aAOP iw ≤ 7) && decide (aDT iw ≤ 2) && !(aDT iw == 2 && (aAOP iw == 3 || aAOP iw == 4 || aAOP iw == 5))
    && (if aAOP iw = 7 then legVn g (aVC iw) n else aVC iw == 0)
    && legVn g (aVB iw) n && (iVD iw == 255 || legVn g (iVD iw) n) && legV g (iVA iw)
    && (if aSPACE iw = 1 then aORD iw == 0 && aSCOPE iw == 0 else decide (aSCOPE iw < 6))

/-- R171, R183, R184: legality of LDR and STC. VB is unused by LDR. -/
def resvLegal (g : Group) (iw : IWord) (stc : Bool) : Bool :=
  let n := 1 + aW64 iw
  aAOP iw == 0 && aDT iw == 0 && aVC iw == 0 && aSPACE iw == 0 && decide (aSCOPE iw < 6) && legV g (iVA iw)
    && (if stc then legV g (iVD iw) && legVn g (aVB iw) n else legVn g (iVD iw) n && aVB iw == 0)

/-- Poison of a lane's address and operands. -/
def atmPoison (g : Group) (iw : IWord) (l : Nat) : Bool :=
  predPoison g iw l || getSP g (mSB iw) || getVP g (iVA iw) l || getVPn g (aVB iw) l (1 + aW64 iw)
    || (aAOP iw == 7 && getVPn g (aVC iw) l (1 + aW64 iw))

/-- R162, R179: the request of a global atomic, LDR or STC for one line. -/
def atomReq (iw : IWord) (g : Group) (kind : ReqKind) (vd inst : Nat) (l : List LaneAcc) (s : Dev) (ln : Nat × Nat) : Dev :=
  let size := 4 * (1 + aW64 iw)
  let mine := l.filter (fun a => a.pa / 512 == ln.1 && a.va / 512 == ln.2)
  let secs := mine.foldl (fun m a => Nat.lor m (2 ^ (a.pa % 512 / 64))) 0
  match mine with
  | [] => s
  | a0 :: _ =>
    let r : MemReq :=
      { id := s.nextKey, instr := inst, slot := iw.slot, cmd := g.cmd, tag := cmdTag s g.cmd, marked := aORD iw != 0, kind := kind, line := ln.1, va := ln.2, attr := a0.attr,
        sectors := BitVec.ofNat 8 secs,
        elems := mine.map (fun a => { lane := a.lane, off := a.pa % 512, opnd := getVn g (aVB iw) a.lane (1 + aW64 iw),
                                      cmp := getVn g (aVC iw) a.lane (1 + aW64 iw), poison := atmPoison g iw a.lane }),
        vd := vd, size := size, sext := false, scalar := false, aop := aAOP iw, dt := aDT iw, acq := aORD iw % 2 == 1, scope := aSCOPE iw,
        fwdMask := 0, fwd := 0, fwdPoison := 0, l1alloc := 0, dead := false, served := false, data := 0, poison := 0, results := [],
        waiting := false, returned := false }
    let s := countRegion s (coreRegion iw.core) 0x48 (bitsOf 8 secs).length
    let s := modCore s iw.core (fun c => { c with reqs := c.reqs ++ [r] })
    { s with nextKey := s.nextKey + 1 }

/-- R162, R179, R353, R354: form the requests of a global atomic, LDR or STC. -/
def startAtom (s : Dev) (iw : IWord) (g : Group) (kind : ReqKind) (vd : Nat) (busyV : List Nat) (write : Bool) : Dev :=
  let size := 4 * (1 + aW64 iw)
  let ls := lanesOf (execMask g iw)
  match ls with
  | [] => skip s iw g
  | _ =>
    match resolve s (cmdTag s g.cmd) size write true (ls.map (fun l => (l, atmAddr g iw l))) with
    | (s1, .ok l) =>
      let lines := linesOf l
      if trkHit s1 iw.core size l then s
      else if !creditsFor s1 iw.core iw.slot lines.length then holdCredit s iw.core iw.slot lines.length g
      else if tso s1 && !((getCore s1 iw.core).sb.isEmpty) then sealSb s iw.core (fun _ => true)
      else if sbBlocks s1 iw.core lines then sealLines s iw.core lines
      else
        match (if aORD iw / 2 = 1 then releaseWait s1 iw.core iw.slot (aSCOPE iw) g else .done) with
        | .waiting => sealFor s iw.core
        | .lost st => storeLostAt s iw.core g.cmd st
        | .done =>
          let inst := s1.nextKey
          let s2 := takeCredit (if aORD iw / 2 = 1 then sealFor s1 iw.core else s1) iw.core iw.slot
          let s2 := lines.foldl (atomReq iw g kind vd inst l) (if kind = .stc then l.foldl (storeInval iw.core size) s2 else s2)
          let s2 := if l.any (fun a => atmPoison g iw a.lane) then markPoison s2 g.cmd else s2
          putGroup s2 iw { g.next with busyV := g.busyV ++ busyV }
    | (s1, r) => addrFail s1 iw g r

/-- R161, R179, R182: what a local-memory atomic does to its core and group, lane by lane in ascending order, whether it met
poison, and the flags it sets (R77). -/
def atomLanes (s : Dev) (iw : IWord) (g : Group) (b : Block) (l : List LaneAcc) : Core × Group × Bool × ArithFlags :=
  let n := 1 + aW64 iw
  l.foldl (fun (acc : Core × Group × Bool × ArithFlags) a =>
    let (old, p) := lmRead acc.1 (b.lmBase * 1024) a.va (4 * n)
    let p := p || atmPoison g iw a.lane
    let (new, fl) := atomElem (aAOP iw) (aDT iw) (n == 2) old (getVn g (aVB iw) a.lane n) (getVn g (aVC iw) a.lane n)
    (lmWrite acc.1 (b.lmBase * 1024) a.va (4 * n) new p, setVn acc.2.1 (iVD iw) a.lane p n old, acc.2.2.1 || p, acc.2.2.2 ||| fl))
    (getCore s iw.core, g, false, 0)

/-- R161, R179, R182: a local-memory atomic. -/
def atomLocal (s : Dev) (iw : IWord) (g : Group) : Dev :=
  match blockOf s iw.core iw.slot with
  | none => s
  | some b =>
    let size := 4 * (1 + aW64 iw)
    match lmAddrs b size ((lanesOf (execMask g iw)).map (fun l => (l, atmAddr g iw l))) with
    | .ok l =>
      let (c, g', pz, fl) := atomLanes s iw g b l
      let s := orFlags (putGroup (setCore s iw.core c) iw g'.next) g.cmd fl
      let s := countCore s iw.core 0x0C (lmReplays size (l.map (fun a => (a.lane, a.va))))
      if pz then markPoison s g.cmd else s
    | r => addrFail s iw g r

/-- The registers an ATM instruction names. -/
def atmUses (iw : IWord) (vdN : Nat) : List Nat :=
  coverV (iVD iw) vdN ++ coverV (iVA iw) 1 ++ coverV (aVB iw) (1 + aW64 iw) ++ coverV (aVC iw) (1 + aW64 iw)

/-- R182 ATOM. -/
def doAtom (iw : IWord) (s : Dev) : Dev :=
  issue s iw 2 (atmUses iw (1 + aW64 iw)) [mSB iw] (fun s g =>
    if !atomLegal g iw then illegal s iw
    else if memHeld s iw.core iw.slot (aORD iw != 0) then s
    else if aSPACE iw = 1 then atomLocal s iw g
    else startAtom s iw g .atom (iVD iw) (coverV (iVD iw) (1 + aW64 iw)) true)

/-- R183 LDR. -/
def doLdr (iw : IWord) (s : Dev) : Dev :=
  issue s iw 2 (atmUses iw (1 + aW64 iw)) [mSB iw] (fun s g =>
    if !resvLegal g iw false then illegal s iw
    else if memHeld s iw.core iw.slot (aORD iw != 0) then s
    else startAtom s iw g .ldr (iVD iw) (coverV (iVD iw) (1 + aW64 iw)) false)

/-- R184 STC. -/
def doStc (iw : IWord) (s : Dev) : Dev :=
  issue s iw 2 (atmUses iw 1) [mSB iw] (fun s g =>
    if !resvLegal g iw true then illegal s iw
    else if memHeld s iw.core iw.slot (aORD iw != 0) then s
    else startAtom s iw g .stc (iVD iw) (coverV (iVD iw) 1) true)

/-- LD (R162). -/
def execLd (iw : IWord) (s : State) : Out' := updM s (doLd iw)
/-- ST (R164). -/
def execSt (iw : IWord) (s : State) : Out' := updM s (doSt iw)
/-- LDS (R174). -/
def execLds (iw : IWord) (s : State) : Out' := updM s (doLds iw)
/-- STS (R174). -/
def execSts (iw : IWord) (s : State) : Out' := updM s (doSts iw)
/-- LDL (R160). -/
def execLdl (iw : IWord) (s : State) : Out' := upd s (doLdl iw)
/-- STL (R160). -/
def execStl (iw : IWord) (s : State) : Out' := upd s (doStl iw)
/-- ATOM (R182). -/
def execAtom (iw : IWord) (s : State) : Out' := updM s (doAtom iw)
/-- LDR (R183). -/
def execLdr (iw : IWord) (s : State) : Out' := updM s (doLdr iw)
/-- STC (R184). -/
def execStc (iw : IWord) (s : State) : Out' := updM s (doStc iw)

end Sys2Proof.Machine
end

