-- ==== Sys2Proof/Machine/MemEvents.lean ====
section
/-! DEFINITION. Sys2Proof/Machine/MemEvents.lean: the steps of a core's requests and stores beyond their issue: the home
serving them (R286, R291, R292, R301), responses (R356) and the store buffer (R349 to R355). -/

namespace Sys2Proof.Machine

open Sys2Proof

/-- A request of a core by identifier. -/
def getReq (s : Dev) (core id : Nat) : Option MemReq := (getCore s core).reqs.find? (fun r => r.id == id)

/-! ## Tags of the die links (R425) -/

/-- The hops of a request from a die to a die. -/
def hopsOf (s : Dev) (a b : Nat) : List (Nat × Nat) :=
  if a = b then [] else let p := (route s a b).getD []; p.zip (p.drop 1)

/-- R425: requests outstanding per direction over a hop: 16,384 where its link has TAG14, else 4,096. -/
def tagLimit (s : Dev) (h : Nat × Nat) : Nat :=
  match (List.range 14).find? (fun l => linkEnds l == h || linkEnds l == (h.2, h.1)) with
  | some l => if getF s (fDL_LINK_TAG14 l) = 1 then 16384 else 4096
  | none => 4096

/-- The homes that a core's outstanding requests and writes have reached and not yet answered to it. -/
def tagHomes (s : Dev) (c : Core) : List Nat :=
  (c.reqs.filter (fun r => r.sectors != 0 && (r.waiting || (r.served && !r.returned)))).filterMap (fun r => homeAgent s (r.line * 512) r.attr.home)
    ++ (c.sb.filter (fun e => e.applied)).filterMap (fun e => homeAgent s (e.line * 512) e.attr.home)

/-- R425: every link on the way from a core to a home has a free tag. -/
def tagsFree (s : Dev) (core home : Nat) : Bool :=
  (hopsOf s (coreDie core) (agentDie home)).all (fun h =>
    decide ((s.cores.map (fun e => ((tagHomes s e.2).filter (fun x => (hopsOf s (coreDie e.1) (agentDie x)).contains h)).length)).sum < tagLimit s h))

/-! ## At the home -/

/-- The address of a request's lowest lane, as the core gave it. -/
def reqVa (r : MemReq) : Nat := r.va * 512 + (r.elems.map (fun e => e.off)).headD 0

/-- Record the answer to a read request; a refused access ends the command (R276, R300). -/
def answerRead (s : Dev) (core : Nat) (r : MemReq) (a : RdRes) : Dev :=
  match a.err with
  | some e => coreFault s core r.cmd e (reqVa r) (decide (r.tag < 0x10))
  | none => tryTlb (modReq s core r.id (fun r => { r with served := true, waiting := false, data := a.data, poison := a.poison })) r.tag

/-- A read request served at its point of coherence, and its answer. -/
def serveRead (s : Dev) (core : Nat) (r : MemReq) : Dev :=
  let (s, a) := lineRead s core r.tag (r.line * 512) r.attr r.sectors
  answerRead s core r a

/-- Whether a read must open or join a miss at its home: the page allocates, no DEAD tag stands, and neither the entry
point's copy nor the home holds the sectors (R291). -/
def readMisses (s : Dev) (core : Nat) (r : MemReq) (home : Nat) : Bool :=
  if 2 ≤ r.attr.cache then false
  else
    match findLine s home r.line with
    | none => true
    | some h =>
      let own := if coreRegion core = home then false
        else match liveLine s (coreRegion core) r.line with
          | some g => g.sv &&& r.sectors == r.sectors
          | none => false
      h.st == .hv && !own && (h.sv &&& r.sectors != r.sectors)

/-- R355, R361: an older read of the group is to be performed first: of the line, for a volatile load; any, in TSO mode. -/
def readBehind (s : Dev) (core : Nat) (r : MemReq) : Bool :=
  (getCore s core).reqs.any (fun q => isLoad q.kind && q.slot == r.slot && decide (q.id < r.id) && !q.served
    && (tso s || (r.kind == .volLoad && q.kind == .volLoad && q.line == r.line)))

/-- R291: a read that misses opens its line's entry or joins it (256 entries of a home, 64 requesters of an entry); otherwise it waits. -/
def joinMiss (s : Dev) (core : Nat) (r : MemReq) (home : Nat) : Dev :=
  let here (m : MissEntry) : Bool := m.slice == home && m.line == r.line
  let wait (s : Dev) : Dev := modReq s core r.id (fun r => { r with waiting := true })
  match s.ms.misses.find? here with
  | some m =>
    if 64 ≤ m.reqs.length + (s.ms.redQ.filter (fun q => q.home == home && q.line == r.line)).length then refuseRetry s
    else wait (modMs s (fun x => { x with misses := updFirst here (fun m => { m with reqs := m.reqs ++ [.core core r.id] }) x.misses }))
  | none =>
    if missFull s home r.line then refuseRetry s
    else
      let m : MissEntry := { slice := home, line := r.line, backing := backingOf (r.line * 512) r.attr.home / 512, sectors := r.sectors, attr := r.attr, tag := r.tag, ret := 0, reqs := [.core core r.id] }
      wait (modMs s (fun x => { x with misses := x.misses ++ [m] }))

/-- R330: a read of a peer window leaves on its Tandem flow. -/
def peerRead (s : Dev) (core : Nat) (r : MemReq) : Dev :=
  let q : PeerReq := { id := s.nextKey, kind := 2, tag := r.tag, cmd := r.cmd, pa := r.line * 512, dt := 0, data := 0, mask := BitVec.ofNat 512 (sectorBytes r.sectors.toNat), poison := false, who := some (core, r.id), eng := none, framed := false }
  launch (0x400 + core) (modReq { s with peerOut := s.peerOut ++ [q], nextKey := s.nextKey + 1 } core r.id (fun r => { r with waiting := true }))

/-- R286, R291: a read request reaches its point of coherence. -/
def doHomeRead (core id : Nat) (s : Dev) : Dev :=
  if whoaStopped s then s
  else
    match getReq s core id with
    | none => s
    | some r =>
      let pa := r.line * 512
      if !isLoad r.kind || r.served || r.waiting || pgHeld s pa || readBehind s core r then s
      else
        match placeOf s pa, homeAgent s pa r.attr.home with
        | .peer, _ => if peerUse s (peerMod pa) = .flow then peerRead s core r else serveRead s core r
        | .tier, some home =>
          if lineShut s home r.line || !tagsFree s core home then refuseRetry s
          else
            if readMisses s core r home then joinMiss s core r home else serveRead s core r
        | _, _ => serveRead s core r

/-- R349, R357: an older sent entry of the core, to the same destination, is still to be applied. -/
def writeBehind (s : Dev) (core : Nat) (e : SbEntry) : Bool :=
  let poc (e : SbEntry) : Nat := pocOf s (coreEntry core) (e.line * 512) e.attr
  (getCore s core).sb.any (fun q => q.st == .sent && !q.applied && decide (q.sentNo < e.sentNo) && poc q == poc e)

/-- A store-buffer entry has gone, or its write is performed: a drain, a Hobble or a switch may go on. -/
def sbGone (s : Dev) (core tag : Nat) : Dev := pokeCore (tryHobble (settleDrains s) tag) core

/-- R349: an entry reaches its point of coherence. -/
def applyEntry (s : Dev) (core : Nat) (e : SbEntry) : Dev :=
  match sbApply s core e with
  | (s, none) => sbGone s core e.tag
  | (s, some st) => sbGone (coreFault s core (e.cmds.headD 0) st (e.line * 512) false) core e.tag

/-- R349, R357: a sent store-buffer entry reaches the line's home and is applied after invalidations. -/
def doHomeWrite (core seq : Nat) (s : Dev) : Dev :=
  if whoaStopped s then s
  else
    match (getCore s core).sb.find? (fun e => e.seq == seq) with
    | none => s
    | some e =>
      if e.st ≠ .sent ∨ e.applied = true ∨ pgHeld s (e.line * 512) = true ∨ writeBehind s core e = true then s
      else
        match homeAgent s (e.line * 512) e.attr.home with
        | some h => if tagsFree s core h then applyEntry s core e else refuseRetry s
        | none => applyEntry s core e

/-! ## Operations at the home (R301 to R306) -/

/-- Record the answer to an atomic, LDR or STC (R370 where its destination is dead). One that has outlived its group is done with. -/
def answerAtom (s : Dev) (core : Nat) (r : MemReq) (a : AtomRes) : Dev :=
  let s := if isOrphan r then modCore s core (fun c => { c with reqs := c.reqs.filter (fun q => q.id != r.id) })
    else modReq s core r.id (fun r => { r with served := true, waiting := false, results := a.results, poison := a.poison })
  let s := match a.err with
    | some e => coreFault s core r.cmd e (reqVa r) (decide (r.tag < 0x10))
    | none =>
      let s := if a.fl = 0 then s else orFlags s r.cmd a.fl
      if !a.lost then s
      else if isOrphan r || (r.kind == .atom && r.vd == 255) then noteLost s core (BitVec.ofNat 16 (2 ^ r.slot)) [r.cmd] (lostLevel s (r.line * 512)) 0x08
      else storeLostAt s core r.cmd 0x08
  sbGone s core r.tag

/-- An atomic, LDR or STC performed at its point of coherence, and its answer. -/
def performAtom (rmw : RmwFn) (s : Dev) (core : Nat) (r : MemReq) : Dev :=
  let (s, a) := atomServe rmw s core r.tag r
  answerAtom s core r a

/-- The kind of an operation, and its sector operations (R305). -/
def opKind (r : MemReq) : RmwKind :=
  match r.kind with
  | .ldr => .ldr
  | .stc => .stc
  | _ => .op (r.vd != 255)
def opSectors (r : MemReq) : Nat := (bitsOf 8 (Nat.lor r.sectors.toNat (maskSectors (elemMask r)))).length

/-- R357: an older atomic or STC of the core to the same destination, on another line, is still to be performed. -/
def atomBehind (s : Dev) (core : Nat) (r : MemReq) : Bool :=
  let poc (r : MemReq) : Nat := pocOf s none (r.line * 512) r.attr
  let wr (k : ReqKind) : Bool := k == .atom || k == .stc
  wr r.kind && (getCore s core).reqs.any (fun q => wr q.kind && decide (q.id < r.id) && !q.served && !(q.waiting && q.line == r.line) && poc q == poc r)

/-- R301: pin the line of a queued operation, with every other copy gone. An absent line is given a way, where its set has one. -/
def pinFor (s : Dev) (home : Nat) (r : MemReq) : Dev :=
  if (liveLine s home r.line).isSome then setPin (invalCopies (recallOwner s home r.line) home r.line none) home r.line 1
  else
    let (s, ok) := roomHome (dropLine s home r.line) home r.line
    if !ok then s
    else
      let s := bumpStamp s
      putLine s { newHome home (r.line * 512) r.attr.home (pageTag r.tag r.attr) (if r.attr.cache = 1 then 2 else 0) s.ms.stamp with pin := 1 }

/-- R301, R302, R305: an operation joins its line's open miss, or opens one, and is queued at the home's reduction unit. -/
def queueFill (s : Dev) (core home : Nat) (r : MemReq) : Dev :=
  let here (m : MissEntry) : Bool := m.slice == home && m.line == r.line
  let ops := (s.ms.redQ.filter (fun q => q.home == home && q.line == r.line)).length
  match s.ms.misses.find? here with
  | some m => if 64 ≤ m.reqs.length + ops then refuseRetry s else go s
  | none =>
    if missFull s home r.line then refuseRetry s
    else
      let m : MissEntry := { slice := home, line := r.line, backing := backingOf (r.line * 512) r.attr.home / 512, sectors := 255, attr := r.attr, tag := r.tag, ret := 0, reqs := [] }
      go (modMs s (fun x => { x with misses := x.misses ++ [m] }))
where
  go (s : Dev) : Dev :=
    let q : RedOp := { home := home, line := r.line, core := core, req := r.id, n := opSectors r }
    modReq (modMs (pinFor s home r) (fun x => { x with redQ := x.redQ ++ [q] })) core r.id (fun r => { r with waiting := true })

/-- R303: an operation is sent to the adders, after those already sent for its line. -/
def queueAdder (s : Dev) (core home : Nat) (r : MemReq) : Dev :=
  let q : RedOp := { home := home, line := r.line, core := core, req := r.id, n := opSectors r }
  modReq (modMs s (fun x => { x with adderQ := x.adderQ ++ [q] })) core r.id (fun r => { r with waiting := true })

/-- R301 to R305: an atomic, LDR or STC at the home of its line, by the placement table. -/
def placeAtom (s : Dev) (core home : Nat) (r : MemReq) : Dev :=
  if lineCheck s home r.line r.tag (r.kind != .ldr) = 2 then performAtom cohRmw s core r
  else if 128 < redLoad s home + opSectors r then refuseRetry s
  else
    match rmwPlace s home r.line r.attr (opKind r) r.sectors with
    | .fill => queueFill s core home r
    | .adder => queueAdder s core home r
    | _ => performAtom cohRmw s core r

/-- R301 to R306: an atomic, LDR or STC reaches its home. It waits behind what the home holds at its line. -/
def doHomeAtomic (core id : Nat) (s : Dev) : Dev :=
  if whoaStopped s then s
  else
    match getReq s core id with
    | none => s
    | some r =>
      let pa := r.line * 512
      if isLoad r.kind || r.served || r.waiting || pgHeld s pa || atomBehind s core r then s
      else
        match placeOf s pa, homeAgent s pa r.attr.home with
        | .tier, some home =>
          if getF s fCD_STATUS_DROP_ACTIVE = 1 ∨ tagsFree s core home = false ∨ s.ms.heldOps.any (fun q => q.home == home && q.line == r.line) = true then refuseRetry s
          else if deadPlace s pa r.attr then performAtom cohRmw s core r
          else placeAtom s core home r
        | _, _ => performAtom cohRmw s core r

/-- R388, R389: the adder applies the operations a home has sent it for a line in order. -/
def doAdderOperation (core id : Nat) (s : Dev) : Dev :=
  if whoaStopped s then s
  else
    match getReq s core id with
    | none => s
    | some r =>
      match s.ms.adderQ.find? (fun q => q.line == r.line) with
      | none => s
      | some q =>
        if q.core ≠ core ∨ q.req ≠ id then s
        else
          let b := backingOf (r.line * 512) r.attr.home
          let s := if isNear b then countDie s (nField b 39 37) 0x83 (bitsOf 8 r.sectors.toNat).length else s
          performAtom adderRmw (modMs s (fun m => { m with adderQ := m.adderQ.filter (fun q => !(q.core == core && q.req == id)) })) core r

/-- R292, R301, R306: a fill at its home: the line as it stands is delivered to every requester, then the operations queued on it are
performed in order, and what the home held behind them acts. -/
def fillServe (s : Dev) (m : MissEntry) : Dev :=
  let here (q : RedOp) : Bool := q.home == m.slice && q.line == m.line
  let ops := s.ms.redQ.filter here
  let (s, held) := takeHeld s m.slice m.line
  let s := setPin (modMs s (fun x => { x with misses := x.misses.filter (fun e => !(e.slice == m.slice && e.line == m.line)), redQ := x.redQ.filter (fun q => !here q) })) m.slice m.line 0
  let live := m.reqs.filterMap (fun q => match q with
    | .core c i => (getReq s c i).map (fun r => (c, r)))
  let s := if live.isEmpty && ops.isEmpty then (cohRead s none m.tag (m.line * 512) m.attr m.sectors .demand).1
    else live.foldl (fun s q => serveRead s q.1 q.2) ((live.drop 1).foldl (fun s q => countRegion s (coreRegion q.1) (if isFar (512 * m.line) then 0x44 else 0x43) 1) s)
  let s := ops.foldl (fun s q => match getReq s q.core q.req with
    | some r => performAtom cohRmw s q.core r
    | none => s) s
  settleDrains (releaseHeld s m.slice m.line held)

/-- R292, R303: the data of an open miss arrives; it waits for the adder operations sent for the line before. -/
def doMissFill (slice line : Nat) (s : Dev) : Dev :=
  if whoaStopped s then s
  else
    match s.ms.misses.find? (fun m => m.slice == slice && m.line == line) with
    | none => s
    | some m =>
      if (isNear (m.backing * 512) && s.pw.sleeping.getLsbD (nField (m.backing * 512) 39 37)) || adderPending s line then s
      else
        fillServe s m

/-! ## Responses -/

/-- The value and poison a returned element brings. -/
def elemValue (r : MemReq) (e : LaneElem) : Nat × Bool :=
  match r.kind with
  | .atom | .ldr | .stc =>
    ((r.results.find? (fun x => x.1 == e.lane)).map (fun x => x.2) |>.getD 0, r.poison.getLsbD (e.off / 64) || e.poison)
  | _ =>
    let d := mergeBytes 512 r.data r.fwd r.fwdMask.toNat
    let em := (2 ^ r.size - 1) * 2 ^ e.off
    let cov := Nat.land em r.fwdMask.toNat
    let p := (cov != 0 && r.fwdPoison.getLsbD (e.off / 64)) || (cov != em && r.poison.getLsbD (e.off / 64))
    let v := lineNat d e.off r.size
    (if r.sext then wrapNat 32 (sextNat (8 * r.size) v) else v, p || e.poison)

/-- Registers of 32 bits a request writes per lane. -/
def reqRegs (r : MemReq) : Nat := if r.kind = .stc then 1 else max 1 (r.size / 4)

/-- Write the registers of an instruction whose every request has returned (R356). -/
def writeBack' (s : Dev) (core : Nat) (rs : List MemReq) : Dev :=
  match rs with
  | [] => s
  | r0 :: _ =>
    match getGroup s core r0.slot with
    | none => s
    | some g =>
      if g.cmd ≠ r0.cmd then s
      else
        let (g1, pz) := rs.foldl (fun (acc : Group × Bool) r =>
          r.elems.foldl (fun (acc : Group × Bool) e =>
            let (v, p) := elemValue r e
            (if r.scalar then setS acc.1 r.vd (BitVec.ofNat 64 v) p else setVn acc.1 r.vd e.lane p (reqRegs r) v, acc.2 || p)) acc) (g, false)
        let g2 := if r0.scalar then { g1 with busyS := g1.busyS.erase r0.vd }
          else { g1 with busyV := (coverV r0.vd (reqRegs r0)).foldl (fun l v => l.erase v) g1.busyV }
        let s := setGroup s core r0.slot (some g2)
        if pz && (r0.vd != 255 || r0.scalar) then markPoison s g.cmd else s

/-- R299: the last-use marks of a completed load with DEAD. -/
def loadMarks (s : Dev) (rs : List MemReq) : Dev :=
  (rs.filter (fun r => r.dead)).foldl (fun s r =>
    match placeOf s (r.line * 512) with
    | .tier => lastUse s (r.line * 512) r.attr
    | _ => s) s

/-- R163, R177, R356: a response returns. The L1 takes its sectors, with the core's own bytes, outside TSO mode (R355); the last response of an instruction writes the
registers, and an acquire of cluster scope or wider invalidates the L1. -/
def doLoadResponse (core id : Nat) (s : Dev) : Dev :=
  if whoaStopped s then s
  else
    match getReq s core id with
    | none => s
    | some r =>
      if !r.served || r.returned then s
      else
        let s := if r.l1alloc = 0 ∨ r.sectors = 0 ∨ tso s = true then s
          else l1Fill s core r.line r.va (mergeBytes 512 r.data r.fwd r.fwdMask.toNat) r.sectors (r.poison ||| r.fwdPoison) (r.l1alloc == 2)
        let s := modReq s core id (fun r => { r with returned := true })
        let rs := (getCore s core).reqs.filter (fun x => x.instr == r.instr)
        if rs.all (fun x => x.returned) then
          let s := writeBack' s core rs
          let s := modCore s core (fun c => { c with reqs := c.reqs.filter (fun x => x.instr != r.instr) })
          let s := loadMarks s rs
          pokeCore (if r.acq && r.scope != 0 then l1Flash s core else s) core
        else s

/-! ## The store buffer -/

/-- R352, R354, R338: whether an entry may be sent now. -/
def maySend (s : Dev) (core : Nat) (c : Core) (e : SbEntry) : Bool :=
  if e.st = .sent then false
  else if e.tso then
    let older := c.sb.filter (fun x => decide (x.seq < e.seq))
    older.all (fun x => x.tso)
      && (match older.getLast? with
          | none => true
          | some p => p.st == .sent && pocOf s (coreEntry core) (p.line * 512) p.attr == pocOf s (coreEntry core) (e.line * 512) e.attr)
      && (if tso s then !(c.reqs.any (fun r => decide (r.id < e.seq) && isLoad r.kind)) else decide (e.st = .sealed) || decide (12 ≤ c.sb.length))
  else decide (e.st = .sealed) || decide (12 ≤ c.sb.length)

/-- R349, R352, R354: the buffer sends its oldest entry that may be sent. A line write to the tiers is then in flight to its
home, and holds a credit (R36), for which it waits while there is none; a write to a window is accepted by its port. -/
def doSbSend (core : Nat) (s : Dev) : Dev :=
  if whoaStopped s then s
  else
    let c := getCore s core
    match c.sb.find? (fun e => maySend s core c e) with
    | none => s
    | some e =>
      match placeOf s (e.line * 512) with
      | .tier =>
        if !creditsFor s core sbSlot 1 then holdAt s core sbSlot 1 0 0
        else modSb { takeCredit s core sbSlot with nextKey := s.nextKey + 1 } core e.seq (fun e => { e with st := .sent, sentNo := s.nextKey })
      | _ => applyEntry s core e

/-- R352: an entry has been OPEN for 256 cycles of the core's clock, taken at 2.0 GHz: it is chosen for sending. -/
def doSbOpenExpiry (core seq : Nat) (s : Dev) : Dev :=
  if whoaStopped s then s
  else
    match (getCore s core).sb.find? (fun e => e.seq == seq) with
    | none => s
    | some e => if e.st = .open then modSb { s with now := max s.now (e.since + 128) } core seq (fun e => { e with st := .sealed }) else s

/-- R349: the acknowledgement of an entry that has been performed returns and frees it; a write to a peer window is
acknowledged by its Tandem flow first (R330). -/
def doSbAck (core seq : Nat) (s : Dev) : Dev :=
  if whoaStopped s then s
  else
    match (getCore s core).sb.find? (fun e => e.seq == seq) with
    | none => s
    | some e =>
      let open' := match e.peer with
        | some i => s.peerOut.any (fun r => r.id == i)
        | none => false
      if e.st = .sent ∧ e.applied ∧ open' = false then sbGone (freeSb (farDone s seq) core seq) core e.tag else s

/-- LOAD_RESPONSE (R356). -/
def execLoadResponse (core : Fin 768) (id : Nat) (s : State) : Out' := updM s (doLoadResponse core id)
/-- SB_SEND (R352). -/
def execSbSend (core : Fin 768) (s : State) : Out' := updM s (doSbSend core)
/-- SB_OPEN_EXPIRY (R352). -/
def execSbOpenExpiry (core : Fin 768) (seq : Nat) (s : State) : Out' := upd s (doSbOpenExpiry core seq)
/-- SB_ACK (R349). -/
def execSbAck (core : Fin 768) (seq : Nat) (s : State) : Out' := updM s (doSbAck core seq)
/-- MISS_FILL (R292, R391, R395). -/
def execMissFill (slice : Fin 32) (line : Nat) (resp : CxlResp) (s : State) : Out' := updM s (withFlaw (.tier line resp) (doMissFill slice line))
/-- ADDER_OPERATION (R388). -/
def execAdderOperation (core : Fin 768) (id : Nat) (s : State) (flaw : Flaw := .none) : Out' := updM s (withFlaw flaw (doAdderOperation core id))

end Sys2Proof.Machine
end

