-- ==== Sys2Proof/Machine/Movers.lean ====
section
/-! DEFINITION. Sys2Proof/Machine/Movers.lean: the data movers (R249 to R270): descriptors and their checks, the engines, the DMA
instruction, and COPY, FILL, REDUCE, GATHER and PREFETCH, with ordered reductions (R307, R308). -/

namespace Sys2Proof.Machine

open Sys2Proof

/-! ## Operations as the engines see them -/

/-- A data-mover operation: key of its command, its own number, descriptor, the entry point of its requests (R285), its rank
code (R325; 0xFF for none), and its engine's place for error records. -/
structure MvOp where
  key : Nat
  id : Nat
  chan : Nat
  tag : Nat
  desc : Block64
  entry : Option Nat
  code : Nat
  err : ErrRec
  poison : Bool
  /-- The core and group slot of a DMA instruction. -/
  issuer : Option (Nat × Nat)
deriving DecidableEq, Repr

/-- R249: a cluster operation that is queued among the first four. -/
def clusterOp (s : Dev) (cl id : Nat) : Option MvOp :=
  match ((getCl s cl).dmaQ.take 4).find? (fun o => o.id == id) with
  | none => none
  | some o =>
    if o.phase ≠ .queued then none
    else
      match getCmd s o.cmd with
      | none => none
      | some c =>
        some { key := o.cmd, id := o.id, chan := c.chan, tag := c.tag, desc := o.desc, entry := some (cl / 6), code := cl,
               err := { sev := 2, cause := 0x0011, die := cl / 24, region := cl / 6 % 4, cluster := cl % 6, unit := 0x04, index := 0 },
               poison := o.poison, issuer := some (o.core, o.slot) }

/-- A channel's command as an operation of its engine. -/
def chanOp (s : Dev) (key : Nat) : Option MvOp :=
  match getCmd s key with
  | none => none
  | some c =>
    if c.status.isSome || c.moved || c.phase == .draining then none
    else
      let e := engineOf s c.tag c.chan c.desc
      let n := e.getD 0
      some { key := key, id := key, chan := c.chan, tag := c.tag, desc := c.desc, entry := if n < 100 then some n else none,
             code := if n < 100 then 0xC0 + n else 0xFF,
             err := if n < 100 then { sev := 2, cause := 0x0011, die := n / 4, region := n % 4, unit := 0x04, index := 1 }
                    else { sev := 2, cause := 0x0011, die := 8 + (n - 100), unit := 0x04, index := 2, hubO := n == 101 },
             poison := false, issuer := none }

/-- The operation of a reference. -/
def mvOp (s : Dev) (r : OpRef) : Option MvOp :=
  match r with
  | .chan key => chanOp s key
  | .cluster cl id => clusterOp s cl id

/-- R269: an operation takes an outcome other than DONE_POISON. -/
def mvFail (s : Dev) (o : MvOp) (status : Nat) (addr : Option Nat) : Dev :=
  match addr with
  | none => endCmd s o.key status (some o.err)
  | some va => endCmd s o.key status (some { o.err with addr := some (failAddr s o.tag va).1, virt := (failAddr s o.tag va).2 })

/-- What moving an operation's data gives. -/
structure MvRes where
  /-- The address that failed, and the outcome it gives. -/
  err : Option Nat
  status : Nat := 0x02
  fl : ArithFlags
  poison : Bool
  lost : Bool
  bytes : Nat
  /-- Source runs read. -/
  runs : Nat := 0
deriving DecidableEq, Repr

/-- Nothing moved yet. -/
def MvRes.start : MvRes := { err := none, fl := 0, poison := false, lost := false, bytes := 0 }

/-- R269: an operation that has taken an outcome other than DONE_POISON reads no further. -/
def MvRes.over (r : MvRes) : Bool := r.err.isSome || r.lost

/-- An address as a number; one below zero translates nowhere. -/
def vaNat (x : Int) : Nat := if x < 0 then 2 ^ 48 else x.toNat

/-! ## COPY and FILL (R255 to R257) -/

/-- R245, R256: bytes of one page written to every multicast destination, at offset `a` of each; one that the slice does not own refuses them. -/
def mcastPage (o : MvOp) (s : Dev) (cl a : Nat) (bytes : List (Byte × Bool)) : Dev × WrRes :=
  let data := leNat (bytes.map (fun b => b.1))
  let pz (g : Nat) : Bool := (List.range bytes.length).any (fun i => (a + i) / 64 * 64 == g && (bytes.getD i (0, false)).2)
  let cs := destClusters o.desc cl
  let dead (c : Nat) : Bool := dieLost s (c / 24)
  let mine (c : Nat) : Bool := spadOwner s o.tag c
  ((cs.filter (fun c => !dead c && mine c)).foldl (fun s c => spadWriteRun s c a bytes.length data pz) s,
    { WrRes.ok with lost := cs.any dead, err := if cs.any (fun c => !dead c && !mine c) then some 0x02 else none })

/-- R254, R256: a run written to every multicast destination page by page (fuel: pages). -/
def mcastWrite (o : MvOp) : Nat → Dev → Nat → List (Byte × Bool) → Dev × WrRes
  | 0, s, _, _ => (s, WrRes.ok)
  | fuel + 1, s, va, bytes =>
    let k := min bytes.length (2 ^ 16 - va % 2 ^ 16)
    if bytes.isEmpty then (s, WrRes.ok)
    else
      match translate s o.tag va true with
      | (s, .ok pa _) =>
        match placeOf s pa with
        | .spad cl off =>
          let (s, w) := mcastPage o s cl off (bytes.take k)
          if w.err.isSome then (s, { w with bad := va })
          else
            let (s, w2) := mcastWrite o fuel s (va + k) (bytes.drop k)
            (s, { w2 with lost := w.lost || w2.lost })
        | _ => (s, { WrRes.ok with err := some 0x02, bad := va })
      | (s, _) => (s, { WrRes.ok with err := some 0x02, bad := va })

/-- Write a run of an operation's destination, to every multicast destination (R256). -/
def mvWrite (o : MvOp) (s : Dev) (va : Nat) (bytes : List (Byte × Bool)) : Dev × WrRes :=
  let bytes := if o.poison then bytes.map (fun b => (b.1, true)) else bytes
  if mvMCAST o.desc = 0 then writeBytesVa s o.entry o.tag o.key va bytes
  else mcastWrite o (bytes.length / 2 ^ 16 + 2) s va bytes

/-- R255: copy one run. -/
def copyRun (o : MvOp) (a : Dev × MvRes) (p : Int × Int) : Dev × MvRes :=
  let (s, r) := a
  if r.over then a
  else
    let n := mvN0 o.desc
    match readBytesVa s o.entry o.tag (vaNat p.1) n with
    | (s, rd) =>
      if rd.err.isSome then (s, { r with err := some rd.bad, status := rd.err.getD 0x02 })
      else
        let r := { r with runs := r.runs + 1 }
        match mvWrite o s (vaNat p.2) rd.bytes with
        | (s, w) =>
          if w.err.isSome then (s, { r with err := some w.bad, status := w.err.getD 0x02 })
          else (s, { r with poison := r.poison || anyPoison rd.bytes, lost := r.lost || w.lost, bytes := r.bytes + n })

/-- R257: fill one run. -/
def fillRun (o : MvOp) (a : Dev × MvRes) (va : Int) : Dev × MvRes :=
  let (s, r) := a
  if r.over then a
  else
    let n := mvN0 o.desc
    match mvWrite o s (vaNat va) ((List.range n).map (fun i => (byteOf (BitVec.ofNat 64 (mvSRC o.desc)) (i % 8), false))) with
    | (s, w) =>
      if w.err.isSome then (s, { r with err := some w.bad, status := w.err.getD 0x02 }) else (s, { r with lost := r.lost || w.lost, bytes := r.bytes + n })

/-- The lines that runs of an operation's source touch, by virtual line number. -/
def runLines (d : Block64) (runs : List Int) : List Nat :=
  (runs.flatMap (fun a => if a < 0 then [] else
    (List.range ((a.toNat + mvN0 d - 1) / 512 - a.toNat / 512 + 1)).map (fun i => a.toNat / 512 + i))).eraseDups

/-- R261, R299: mark as last use each source line of which the operation's reads are complete: the lines of the first `done` runs that no
later run touches. -/
def markSources (o : MvOp) (done : Nat) (s : Dev) : Dev :=
  if mvDEAD o.desc = false then s
  else
    let later := runLines o.desc ((srcRuns o.desc).drop done)
    ((runLines o.desc ((srcRuns o.desc).take done)).filter (fun l => !later.contains l)).foldl (fun s l => match translate s o.tag (l * 512) false with
      | (s, .ok pa attr) => if placeOf s pa = .tier then lastUse s pa attr else s
      | (s, _) => s) s

/-! ## REDUCE (R258, R307) -/

/-- R307, R325: the rank of an operation's engine in its slice, when its reductions are ordered. -/
def orderRank (s : Dev) (o : MvOp) : Option Nat :=
  if 16 ≤ o.tag ∨ getF s (fCD_SLICE_CFG_ORED_ARM o.tag) = 0 ∨ o.code = 0xFF then none
  else
    (List.range (getF s (fCD_SLICE_CFG_ORED_NM1 o.tag) + 1)).find? (fun r =>
      fld (reg s (offCD_ORANK o.tag (r / 8))) (8 * (r % 8) + 7) (8 * (r % 8)) == o.code)

/-- The new line under a list of element operations at offsets of the line, and the flags they set (R258). -/
def redLine (rop dt : Nat) (ops : List (Nat × Nat)) (d : LineData) : LineData :=
  ops.foldl (fun d e => putNat d e.1 (redBytes dt) (redElem rop dt (lineNat d e.1 (redBytes dt)) e.2).1) d
def redFlags (rop dt : Nat) (ops : List (Nat × Nat)) (d : LineData) : ArithFlags :=
  ops.foldl (fun f e => f ||| (redElem rop dt (lineNat d e.1 (redBytes dt)) e.2).2) 0

/-- The bytes of a list of element operations. -/
def redMask (dt : Nat) (ops : List (Nat × Nat)) : Nat := ops.foldl (fun a e => Nat.lor a ((2 ^ redBytes dt - 1) * 2 ^ e.1)) 0

/-- R258, R301: apply element operations within one sector of a tier line. -/
def applyReduce (s : Dev) (x : Option Nat) (tag pa : Nat) (attr : PageAttr) (rop dt : Nat) (ops : List (Nat × Nat)) (poison : Bool) : Dev × ArithFlags × WrRes :=
  let m := redMask dt ops
  let sec := BitVec.ofNat 8 (maskSectors m)
  let (s, d, _, w) := cohRmw s tag pa attr { kind := .op false, entry := x, need := sec, mask := m, poison := if poison then sec else 0, thr := noThread, f := redLine rop dt ops }
  (if w.err.isNone && !w.lost then dlogStage s tag .tier pa else s, if w.lost then 0 else redFlags rop dt ops d, w)

/-- R258: reduce the elements of one sector of the destination: `ops` are offsets within the line and operands. -/
def reduceSector (o : MvOp) (a : Dev × MvRes) (va : Nat) (ops : List (Nat × Nat)) (poison : Bool) : Dev × MvRes :=
  let (s, r) := a
  if r.over || ops.isEmpty then a
  else
    let rop := mvROP o.desc
    let dt := mvDT o.desc
    let fail : Dev × MvRes := (s, { r with err := some va })
    match translate s o.tag va true with
    | (s, .ok pa attr) =>
      let n := ops.length * redBytes dt
      let r := { r with poison := r.poison || poison, bytes := r.bytes + n }
      let s := countRegion s (o.entry.getD 99) 0x48 1
      match placeOf s pa with
      | .tier =>
        match orderRank s o with
        | some k =>
          let q : OrdOp := { id := s.nextKey, home := (homeAgent s pa attr.home).getD 99, pa := pa, attr := attr, rank := k, slice := o.tag, cmd := o.key, op := o.id, rop := rop, dt := dt, ops := ops, poison := poison }
          ({ (modMs s (fun m => { m with ordSent := m.ordSent ++ [q] })) with nextKey := s.nextKey + 1 }, r)
        | none =>
          let (s, fl, w) := applyReduce s o.entry o.tag pa attr rop dt ops poison
          if w.err.isSome then (s, { r with err := some va, status := w.err.getD 0x02 }) else (s, { r with fl := r.fl ||| fl, lost := r.lost || w.lost })
      | .spad cl off =>
        if dieLost s (cl / 24) then (s, { r with lost := true })
        else if spadOwner s o.tag cl then
          let m := redMask dt ops
          let (s, d, _) := spadRmw s cl off m (if poison then BitVec.ofNat 8 (maskSectors m) else 0) noThread (redLine rop dt ops)
          (s, { r with fl := r.fl ||| redFlags rop dt ops d })
        else (s, { r with err := some va })
      | .peer =>
        if rop ≠ 0 then (s, { r with err := some va })
        else if peerUse s (peerMod pa) = .dead then (s, { r with lost := true })
        else if peerUse s (peerMod pa) ≠ .flow then (peerRecord s (peerMod pa) o.tag o.err, { r with err := some va })
        else
          let d := ops.foldl (fun (d : LineData) e => putNat d e.1 (redBytes dt) e.2) 0
          let q : PeerReq := { id := s.nextKey, kind := 1, tag := o.tag, cmd := o.key, pa := pa / 512 * 512, dt := dt, data := d, mask := BitVec.ofNat 512 (redMask dt ops), poison := poison, who := none, eng := none, framed := false }
          ({ s with peerOut := s.peerOut ++ [q], nextKey := s.nextKey + 1 }, r)
      | _ => (s, { r with err := some va })
    | _ => fail

/-- R258: reduce one run, sector by sector. -/
def reduceRun (o : MvOp) (a : Dev × MvRes) (p : Int × Int) : Dev × MvRes :=
  let (s, r) := a
  if r.over then a
  else
    let n := mvN0 o.desc
    let es := redBytes (mvDT o.desc)
    let dst := vaNat p.2
    match readBytesVa s o.entry o.tag (vaNat p.1) n with
    | (s, rd) =>
      if rd.err.isSome then (s, { r with err := some rd.bad, status := rd.err.getD 0x02 })
      else
        let r := { r with runs := r.runs + 1 }
        (List.range ((dst + n - 1) / 64 - dst / 64 + 1)).foldl (fun a k =>
          let sec := (dst / 64 + k) * 64
          let ids := (List.range (n / es)).filter (fun i => (dst + i * es) / 64 * 64 == sec)
          let ops := ids.map (fun i => ((dst + i * es) % 512, leNat (((rd.bytes.drop (i * es)).take es).map (fun b => b.1))))
          let pz := o.poison || ids.any (fun i => anyPoison ((rd.bytes.drop (i * es)).take es))
          reduceSector o a (dst + (ids.headD 0) * es) ops pz) (s, r)

/-! ## GATHER (R259) -/

/-- R259: one table element: served by its home where the home holds the line, else from the tier, allocating nothing. -/
def gatherElem (o : MvOp) (s : Dev) (va : Nat) : Dev × AccRes :=
  match translate s o.tag va false with
  | (s, .ok pa attr) => readPa s o.entry o.tag pa (gElem o.desc) attr .gather
  | (s, _) => (s, { bytes := [], err := some 0x02, lost := false })

/-- R259: one element of a GATHER. -/
def gatherStep (o : MvOp) (a : Dev × MvRes) (i : Nat) : Dev × MvRes :=
  let (s, r) := a
  if r.over then a
  else
    let iv := mvIDX o.desc + i * gIdx o.desc
    match readBytesVa s o.entry o.tag iv (gIdx o.desc) with
    | (s, ix) =>
      if ix.err.isSome then (s, { r with err := some iv, status := ix.err.getD 0x02 })
      else
        let j := sextNat (8 * gIdx o.desc) (accNat ix.bytes)
        if j < 0 ∨ (mvTLEN o.desc : Int) ≤ j then (s, { r with err := some iv })
        else
          let sv := mvSRC o.desc + j.toNat * gElem o.desc
          match gatherElem o s sv with
          | (s, el) =>
            if el.err.isSome then (s, { r with err := some sv, status := el.err.getD 0x02 })
            else
              let pz := anyPoison ix.bytes
              let dv := vaNat ((mvDST o.desc : Int) + (i : Int) * mvDS1 o.desc)
              match mvWrite o s dv (if pz then el.bytes.map (fun b => (b.1, true)) else el.bytes) with
              | (s, w) =>
                if w.err.isSome then (s, { r with err := some w.bad, status := w.err.getD 0x02 })
                else (s, { r with poison := r.poison || pz || anyPoison el.bytes, lost := r.lost || w.lost, bytes := r.bytes + gElem o.desc })

/-! ## PREFETCH (R260) -/

/-- R254, R260, R276: bring one line into its home, and to the engine's region slice with GUEST. Lines of scratchpad windows, which no cache
holds, are skipped with those the rule names (DEDUCED, log 90); an unbacked or reserved address, and a line of another slice, end the operation. -/
def prefetchLine (o : MvOp) (a : Dev × MvRes) (va : Nat) : Dev × MvRes :=
  let (s, r) := a
  let fail (s : Dev) (st : Nat) : Dev × MvRes := (s, { r with err := some va, status := st })
  if r.over then a
  else
    match translate s o.tag va false with
    | (s, .ok pa attr) =>
      if placeOf s pa = .bad then fail s 0x02
      else if placeOf s pa ≠ .tier ∨ 2 ≤ attr.cache then (s, r)
      else
        match homeAgent s pa attr.home with
        | none => (s, r)
        | some home =>
          if (findLine s home (pa / 512)).isNone && fullyPinned s home (pa / 512) then (s, r)
          else
            let (s, d) := cohRead s (if mvGUEST o.desc then o.entry else none) o.tag (pa / 512 * 512) attr 255 .prefetch
            match d.err with
            | some st => fail s st
            | none => (setRet s pa attr (mvRET o.desc), r)
    | (s, .access) => fail s 0x02
    | (s, .trans _) => (s, r)

/-! ## Moving an operation's data -/

/-- The transfer of an operation by its opcode. -/
def mvTransfer (o : MvOp) (s : Dev) : Dev × MvRes :=
  match dOpcode o.desc with
  | 2 =>
    let (s, r) := ((srcRuns o.desc).zip (dstRuns o.desc)).foldl (copyRun o) (s, MvRes.start)
    (markSources o r.runs s, r)
  | 3 => (dstRuns o.desc).foldl (fillRun o) (s, MvRes.start)
  | 4 =>
    let (s, r) := ((srcRuns o.desc).zip (dstRuns o.desc)).foldl (reduceRun o) (s, MvRes.start)
    (markSources o r.runs s, r)
  | 5 => (List.range (mvN1 o.desc)).foldl (gatherStep o) (s, MvRes.start)
  | _ => ((runLines o.desc (srcRuns o.desc)).map (fun l => l * 512)).foldl (prefetchLine o) (s, MvRes.start)

/-- R268: note what the transfer met, in its command. -/
def mvNote (o : MvOp) (r : MvRes) (s : Dev) : Dev :=
  let s := match o.entry with
    | some e => countRegion s e 0x45 r.bytes
    | none => s
  let s := orFlags s o.key r.fl
  if r.poison || o.poison then markPoison s o.key else s

/-- An operation's data has moved: a DMA instruction's source, index and table entries are released (R262). -/
def mvMoved (s : Dev) (r : OpRef) : Dev :=
  match r with
  | .chan key => modCmd s key (fun c => { c with moved := true, phase := .running })
  | .cluster cl id =>
    let s := modCl s cl (fun c => { c with dmaQ := updFirst (fun o => o.id == id) (fun o => { o with phase := .moved }) c.dmaQ })
    match (getCl s cl).dmaQ.find? (fun o => o.id == id) with
    | some o => trkRelease s o.core id (fun t => !t.dst)
    | none => s

/-- R250, R253, R256: the checks of a channel's descriptor at its engine; a DMA instruction's were made at its issue. -/
def chanCheck (s : Dev) (o : MvOp) : Option Nat :=
  let limit := if dOpcode o.desc = 4 then 64 * 2 ^ 20 else 0
  if (engineOf s o.tag o.chan o.desc).isNone || mvInvalid s o.tag o.desc limit then some 0x10
  else if mcastRefused s o.tag o.chan o.desc then some 0x02
  else none

/-- R270, R515, R533: a region's engine serves the resident slice, and of a slice whose work there has been asked to stop nothing more but a
REDUCE, for which the switch waits. -/
def engineFree (s : Dev) (tag e op : Nat) : Bool :=
  decide (100 ≤ e) || decide (0x10 ≤ tag) || (residentOf s e == some tag && ((getRgn s e).req.isNone || op == 4))

/-- Whether a channel's operation is among those its engine executes. -/
def engineServes (s : Dev) (o : MvOp) : Bool :=
  match engineOf s o.tag o.chan o.desc with
  | some e => ((engineCmds s e).take (engineExec e)).any (fun c => c.key == o.key) && engineFree s o.tag e (dOpcode o.desc)
  | none => true

/-- R744: the source engine of an operation, of its packets' SRC_ENG. -/
def mvEngine (s : Dev) (r : OpRef) (o : MvOp) : Nat :=
  match r with
  | .cluster cl _ => cl
  | .chan _ =>
    let e := (engineOf s o.tag o.chan o.desc).getD 100
    if e < 100 then 0x100 + e else 0x200 + (e - 100)

/-- R756: the peer modules an operation's operands begin in whose flows have no port that is UP. -/
def mvPeersDown (s : Dev) (o : MvOp) : List Nat :=
  ((mvOperands o.desc).filterMap (fun x => match firstPlace s o.tag x.base with
    | some (pa, .peer) => if peerWaits s (peerMod pa) then some (peerMod pa) else none
    | _ => none)).eraseDups

/-- Whether ordered operations of an operation are still to be applied (R308). -/
def orderedLeft (s : Dev) (id : Nat) : Bool := s.ms.ordSent.any (fun q => q.op == id) || s.ms.reorder.any (fun q => q.op == id)

/-- R355: in TSO mode an operation waits for its engine's earlier ones: all their writes are to be performed first. Matrix transfer lanes and
fabric ports perform every write of an operation before the next one starts. -/
def engineBehind (s : Dev) (r : OpRef) (o : MvOp) : Bool :=
  tso s && dOpcode o.desc != 6 && (match r with
    | .cluster cl id => ((getCl s cl).dmaQ.takeWhile (fun x => x.id != id)).any (fun x => x.phase == .queued || orderedLeft s x.id || peerBusy s x.cmd)
    | .chan key => match engineOf s o.tag o.chan o.desc with
      | some e => (s.cmds.takeWhile (fun c => c.key != key)).any (fun c => isMover (dOpcode c.desc) && engineOf s c.tag c.chan c.desc == some e
          && (!c.moved || orderedLeft s c.key || peerBusy s c.key))
      | none => false)

/-- What an operation of result `t` leaves of the device it gives: the flags and poison noted and its peer packets launched; then it has moved
its data, or its command ends: with the outcome of the access that failed, or with STORE_LOST (R268, R269). -/
def moverEnds (r : OpRef) (o : MvOp) (t : MvRes) (s : Dev) : Dev :=
  let s := mvNote o t (launchFor (mvEngine s r o) o.key s)
  match t.err with
  | some va => mvFail s o t.status (some va)
  | none => if t.lost then endCmd s o.key 0x08 none else mvMoved s r

/-- R251 to R261, R268, R269: an operation of an opcode moves its data. A write to a dead destination gives STORE_LOST, and its record is the
port's. -/
def doMover (opcode : Nat) (r : OpRef) (s : Dev) : Dev :=
  if whoaStopped s then s
  else
    match mvOp s r with
    | none => s
    | some o =>
      if dOpcode o.desc ≠ opcode ∨ frozenSlice s o.tag = true then s
      else
        let chk := match r with
          | .chan _ => chanCheck s o
          | .cluster _ _ => none
        match chk with
        | some st => mvFail s o st none
        | none =>
          if (match r with
              | .chan _ => !engineServes s o
              | .cluster _ _ => false) || engineBehind s r o then s
          else if !(mvPeersDown s o).isEmpty then
            (mvPeersDown s o).foldl (fun s m => (takeFlow s (mvEngine s r o) m (flowClass (mvEngine s r o) m)).1) s
          else
            let (s, t) := inFlight o.id (mvTransfer o) s
            moverEnds r o t s

/-! ## Completion (R267) -/

/-- R267: an operation whose every write has been acknowledged completes. -/
def doDmaOpComplete (r : OpRef) (s : Dev) : Dev :=
  if whoaStopped s then s
  else
    match r with
    | .chan key =>
      match getCmd s key with
      | none => s
      | some c =>
        if isMover (dOpcode c.desc) && c.moved && c.phase != .draining && !orderedLeft s key then
          let s' := finishCmd (farDone s key) key
          match engineOf s c.tag c.chan c.desc with
          | some e => if e < 100 then pokeRegion s' e else s'
          | none => s'
        else s
    | .cluster cl id =>
      match (getCl s cl).dmaQ.find? (fun o => o.id == id) with
      | none => s
      | some o =>
        if o.phase ≠ .moved ∨ orderedLeft s id = true ∨ peerBusy s o.cmd = true then s
        else
          let s := modCl s cl (fun c => { c with dmaQ := c.dmaQ.filter (fun x => x.id != id) })
          let s := trkRelease (farDone s id) o.core id (fun _ => true)
          pokeCore (tokenDone s o.core o.slot o.tok o.cmd) o.core

/-! ## The DMA instruction (R198, R199) -/

/-- R199: the descriptor in eight scalar registers, with the command's JOB_ID, LAYER_ID and OP_ID. -/
def regDesc (g : Group) (c : Cmd) (sc : Nat) : Block64 :=
  let d : Block64 := (List.range 8).foldl (fun (d : Block64) i => putFld d (64 * i + 63) (64 * i) (getS g (sc + i)).toNat) 0
  putFld (putFld (putFld d 47 32 (dLayer c.desc)) 63 48 (dOp c.desc)) 95 64 (dJob c.desc)

/-- R262: the range-tracker entries of a DMA operand. -/
def mvReq (s : Dev) (tag : Nat) (o : MvOperand) (part : Nat) : TrkReq :=
  match firstPlace s tag o.base with
  | some (pa, .spad _ _) =>
    { kind := .spad, lo := ((pa : Int) + (o.lo - o.base)).toNat, hi := ((pa : Int) + (o.hi - o.base)).toNat, va := some (o.lo.toNat, o.hi.toNat), part := part, dst := o.dst }
  | _ => { kind := .virt, lo := o.lo.toNat, hi := o.hi.toNat, va := none, part := part, dst := o.dst }

/-- R262: the entries of an operation. -/
def mvReqs (s : Dev) (tag : Nat) (d : Block64) : List TrkReq :=
  if dOpcode d = 6 then [] else ((List.range 3).zip (mvOperands d)).map (fun x => mvReq s tag x.2 x.1)

/-- R136: the runs an operation writes in the core's own scratchpad invalidate held copies. -/
def mvInval (s : Dev) (core tag : Nat) (d : Block64) : Dev :=
  if dOpcode d = 6 then s
  else
    match firstPlace s tag (mvDST d) with
    | some (_, .spad cl off) =>
      if (destClusters d cl).contains (coreCluster core) then
        let n := if dOpcode d = 5 then gElem d else mvN0 d
        let runs := if dOpcode d = 5 then runAddrs (mvDST d) (mvN1 d) 1 (mvDS1 d) 0 else dstRuns d
        runs.foldl (fun s a => let x := (off : Int) + (a - mvDST d); heldInval s core x.toNat (x.toNat + n)) s
      else s
    | _ => s

/-- R199 DMA. -/
def doDma (iw : IWord) (s : Dev) : Dev :=
  issue s iw 3 [] ((List.range 8).map (fun i => xSC iw + i)) (fun s g =>
    if xRES iw != 0 || xSD1 iw != 0 || xSD2 iw != 0 || xSC iw % 8 != 0 then illegal s iw
    else if !execOnce g iw then skip s iw g
    else
      match getCmd s g.cmd with
      | none => s
      | some c =>
        let d := regDesc g c (xSC iw)
        let cl := coreCluster iw.core
        let fail (st : Nat) : Dev := endCmd s g.cmd st (some { coreErr iw.core with cause := 0x0011, unit := 0x04, index := 0 })
        if !isMover (dOpcode d) || mvInvalid s c.tag d (512 * 1024) then fail 0x10
        else if mcastRefused s c.tag c.chan d then fail 0x02
        else
          let qs := mvReqs s c.tag d
          if 16 ≤ (getCl s cl).dmaQ.length ∨ tokCount g (xTOK iw) = 255 then s
          else if !asyncReady s iw.core qs then asyncHold s iw.core qs
          else
            let p := asyPoison g iw ((List.range 8).map (fun i => xSC iw + i))
            let o : DmaOp := { id := s.nextKey, core := iw.core, slot := iw.slot, cmd := g.cmd, tok := xTOK iw, desc := d, phase := .queued, poison := p }
            let s := trkTake s iw.core o.id g.cmd qs
            let s := mvInval s iw.core c.tag d
            let s := modCl s cl (fun x => { x with dmaQ := x.dmaQ ++ [o] })
            let s := if p then markPoison s g.cmd else s
            putGroup { s with nextKey := s.nextKey + 1 } iw (tokRaise g.next (xTOK iw)))

/-! ## Ordered reductions at the home (R308) -/

/-- The key of an ordered sector. -/
def ordEntry (s : Dev) (home sec : Nat) : Option OrdSector := s.ms.ordSectors.find? (fun e => e.home == home && e.sector == sec)

/-- R308: set the expected rank of a sector, freeing its entry when a round has ended with nothing buffered. -/
def ordSet (s : Dev) (home sec e owner : Nat) : Dev :=
  modMs s (fun m =>
    let rest := m.ordSectors.filter (fun x => !(x.home == home && x.sector == sec))
    if e = 0 ∧ m.reorder.any (fun q => q.home == home && q.pa / 64 == sec) = false then { m with ordSectors := rest }
    else { m with ordSectors := rest ++ [{ home := home, sector := sec, expect := e, owner := owner }] })

/-- Apply one ordered operation, with the flags and outcome noted in its command. -/
def ordApply (s : Dev) (q : OrdOp) : Dev :=
  let (s, fl, w) := applyReduce s none q.slice q.pa q.attr q.rop q.dt q.ops q.poison
  let s := orFlags s q.cmd fl
  if w.lost then endCmd s q.cmd 0x08 none
  else
    match w.err with
    | some st => failCmd s q.cmd st
    | none => s

/-- R308: apply what the reorder buffer holds of a sector from rank `e` on (fuel: buffered operations). -/
def ordChain (n home sec : Nat) : Nat → Dev → Nat → Dev × Nat
  | 0, s, e => (s, e)
  | fuel + 1, s, e =>
    match s.ms.reorder.find? (fun q => q.home == home && q.pa / 64 == sec && q.rank == e) with
    | none => (s, e)
    | some q =>
      let s := modMs s (fun m => { m with reorder := m.reorder.filter (fun x => x.id != q.id) })
      ordChain n home sec fuel (ordApply s q) ((e + 1) % n)

/-- R308: an ordered operation arrives at its home; a home whose table or buffer is full refuses it with retry. -/
def doOrderedReduction (id : Nat) (s : Dev) : Dev :=
  if whoaStopped s then s
  else
    match s.ms.ordSent.find? (fun q => q.id == id) with
    | none => s
    | some q =>
      let n := getF s (fCD_SLICE_CFG_ORED_NM1 q.slice) + 1
      let sec := q.pa / 64
      let take (s : Dev) : Dev := modMs s (fun m => { m with ordSent := m.ordSent.filter (fun x => x.id != id) })
      if (ordEntry s q.home sec).isNone && decide (1024 ≤ (s.ms.ordSectors.filter (fun e => e.home == q.home)).length) then s
      else
        let e := match ordEntry s q.home sec with
          | some x => x.expect
          | none => 0
        if q.rank = e then
          let (s, e) := ordChain n q.home sec (s.ms.reorder.length + 1) (ordApply (take s) q) ((e + 1) % n)
          ordSet s q.home sec e q.slice
        else if 256 ≤ (s.ms.reorder.filter (fun x => x.home == q.home)).length then
          if (ordEntry s q.home sec).isNone then modMs s (fun m => { m with ordSectors := m.ordSectors ++ [{ home := q.home, sector := sec, expect := 0, owner := q.slice }] }) else s
        else ordSet (modMs (take s) (fun m => { m with reorder := m.reorder ++ [q] })) q.home sec e q.slice

/-- R308: clear the ordered operations of a slice. -/
def ordClear (s : Dev) (slice : Nat) : Dev :=
  modMs s (fun m => { m with ordSectors := m.ordSectors.filter (fun e => e.owner != slice), reorder := m.reorder.filter (fun q => q.slice != slice) })

/-- A data-mover operation, with what the storage it reads shows. -/
def moverStep (opcode : Nat) (op : OpRef) (flaw : Flaw) (s : State) : Out' := updM s (withFlaw flaw (doMover opcode op))

/-- COPY (R255). -/
def execCopy (op : OpRef) (s : State) (flaw : Flaw := .none) : Out' := moverStep 2 op flaw s
/-- FILL (R257). -/
def execFill (op : OpRef) (s : State) (flaw : Flaw := .none) : Out' := moverStep 3 op flaw s
/-- REDUCE (R258). -/
def execReduce (op : OpRef) (s : State) (flaw : Flaw := .none) : Out' := moverStep 4 op flaw s
/-- GATHER (R259). -/
def execGather (op : OpRef) (s : State) (flaw : Flaw := .none) : Out' := moverStep 5 op flaw s
/-- PREFETCH (R260). -/
def execPrefetch (op : OpRef) (s : State) (flaw : Flaw := .none) : Out' := moverStep 6 op flaw s
/-- DMA (R199). -/
def execDma (iw : IWord) (s : State) : Out' := updM s (doDma iw)
/-- DMA_OP_COMPLETE (R267). -/
def execDmaOpComplete (op : OpRef) (s : State) : Out' := upd s (doDmaOpComplete op)
/-- ORDERED_REDUCTION (R308). -/
def execOrderedReduction (id : Nat) (s : State) : Out' := updM s (doOrderedReduction id)

end Sys2Proof.Machine
end

