-- ==== Sys2Proof/Machine/Drop.lean ====
section
/-! DEFINITION. Sys2Proof/Machine/Drop.lean: dead destinations (R368 to R371), host links that go down (R496, R497), lost regions
(R520, R655) and hubs (R663), the entry into TSO mode (R336, R338), the domain drop (R311 to R315, R372 to R374, R657,
R658) and the device stop (R659). -/

namespace Sys2Proof.Machine

open Sys2Proof

/-! ## The ordering mode -/

/-- R336, R338: the package enters TSO mode: every store buffer seals what it holds and every core drops its L1. -/
def enterTso (s : Dev) : Dev :=
  if tso s then s
  else (s.cores.map (fun e => e.1)).foldl (fun s k => l1Flash (sealSb s k (fun _ => true)) k) (setF s fCD_ORDER_MODE 1)

/-! ## Dead destinations -/

/-- R369: an error record of a dead destination: `row` of the table of R368, 5 for a lost stack. -/
def destRecord (s : Dev) (row : Nat) (e : ErrRec) : Dev :=
  errRecord s { e with sev := 2, cause := 0x0040, detail := row }

/-- The lines a data-mover operation writes. -/
def dstLines (d : Block64) : List Nat :=
  if dOpcode d = 6 then []
  else
    let n := if dOpcode d = 5 then gElem d else mvN0 d
    ((dstRuns d).flatMap (fun a => if a < 0 then [] else
      (List.range ((a.toNat + n - 1) / 512 - a.toNat / 512 + 1)).map (fun i => a.toNat / 512 + i))).eraseDups

/-- Whether an operation writes a line that satisfies `p`. -/
def opWrites (s : Dev) (tag : Nat) (d : Block64) (p : Nat → PageAttr → Bool) : Bool :=
  (dstLines d).any (fun l => match (translate s tag (512 * l) true).2 with
    | .ok pa attr => p (pa / 512 * 512) attr
    | _ => false)

/-- The data-mover operations whose data has moved and whose acknowledgements are outstanding: command and descriptor. -/
def movedOps (s : Dev) : List (Nat × Block64) :=
  (s.cmds.filter (fun c => isMover (dOpcode c.desc) && c.moved && c.status.isNone)).map (fun c => (c.key, c.desc))
    ++ s.clusters.flatMap (fun e => (e.2.dmaQ.filter (fun o => o.phase == .moved)).map (fun o => (o.cmd, o.desc)))

/-- R268, R369, R370: every write to a destination that is in flight or buffered is dropped; an operation with such a write takes
STORE_LOST. -/
def dropWrites (s : Dev) (p : Nat → PageAttr → Bool) : Dev :=
  let s := (s.cores.map (fun e => e.1)).foldl (fun s k =>
    ((getCore s k).sb.filter (fun e => p (e.line * 512) e.attr)).foldl (fun s e =>
      sbGone (freeSb (noteLost s k e.groups e.cmds (lostLevel s (e.line * 512)) 0x08) k e.seq) k e.tag) s) s
  (movedOps s).foldl (fun s o => if opWrites s (cmdTag s o.1) o.2 p then endCmd s o.1 0x08 none else s) s

/-- R330, R369: the writes to a far port that it has not completed are dropped: the bytes and poison they replaced stand again. -/
def undoFar (s : Dev) (f : Nat) : Dev :=
  let mine (o : FarOut) : Bool := farPort (o.line * 512) == f
  let back (m : MemSys) (o : FarOut) : MemSys :=
    (List.range 8).foldl (fun m i =>
      let k := nField o.mask.toNat (64 * i + 63) (64 * i)
      if k = 0 then m
      else { m with tier := writeNat m.tier (o.line * 512 + 64 * i) 64 (lineSector o.old i).toNat k,
                    tierPoison := if o.poison.getLsbD i then insSorted (o.line * 8 + i) m.tierPoison else delNat (o.line * 8 + i) m.tierPoison }) m
  modMs s (fun m => { (m.farOut.filter mine).reverse.foldl back m with farOut := m.farOut.filter (fun o => !mine o) })

/-- R368, R369: a far port is declared dead: its writes are dropped and the homes drop every cached line of its range. -/
def farDies (s : Dev) (f : Nat) : Dev :=
  if getF s (fMT_FAR_CAP_STATE f) ≠ 1 then s
  else
    let mine (pa : Nat) : Bool := isFar pa && farPort pa == f
    let s := setF s (fMT_FAR_CAP_STATE f) 2
    let s := undoFar (dropWrites s (fun pa _ => mine pa)) f
    let s := dropBehind s (fun l => mine (l.line * 512))
    let s := modMs s (fun m => { m with adders := m.adders.filter (fun a => a.ctl != 2000 + f) })
    destRecord s 0 { sev := 2, cause := 0, die := 8 + f / 2, unit := 0x08, index := f, hubO := decide (2 ≤ f) }

/-- R368, R369: a host window is declared dead. -/
def hostDies (s : Dev) (p : Nat) : Dev :=
  dropWrites (modPort s p (fun x => { x with dead := true })) (fun pa _ => match placeOf s pa with
    | .host q _ => q == p
    | _ => false)

/-! ## A host link that goes down -/

/-- The submission and completion rings of a channel, not DISABLED, that satisfy a test on their PORT code, become ABORTED with
cause LINK_DOWN (R496). -/
def abortRings (s : Dev) (c : Nat) (p : Nat → Bool) : Dev :=
  (List.range 64).foldl (fun s n =>
    let s := if p (getF s (fCH_SQ_CFG_PORT c n)) && getF s (fCH_SQ_STATE_STATE c n) != 0 then
      setF (setF s (fCH_SQ_STATE_STATE c n) 3) (fCH_SQ_STATE_CAUSE c n) 2 else s
    if p (getF s (fCH_CQ_CFG_PORT c n)) && getF s (fCH_CQ_STATE_STATE c n) != 0 then
      setF (setF s (fCH_CQ_STATE_STATE c n) 3) (fCH_CQ_STATE_CAUSE c n) 2 else s) s

/-- R496: the commands and descriptors of a channel's submission rings on ports that satisfy a test are stopped and discarded. -/
def dropRings (s : Dev) (c : Nat) (p : Nat → Bool) : Dev :=
  let hit (s : Dev) (n : Nat) : Bool := p (getF s (fCH_SQ_CFG_PORT c n))
  let s := (s.cmds.filter (fun x => x.chan == c && hit s x.ring)).foldl (fun s x => dropCmd s x.key) s
  modCh s c (fun ch => { ch with fetched := ch.fetched.filter (fun f => !hit s f.ring), reads := ch.reads.filter (fun f => !hit s f.ring) })

/-- R496: a port's link goes down. Its address translation cache and outstanding page requests end with the link (PRESUMED, log 12). -/
def linkDown (s : Dev) (p : Nat) : Dev :=
  if !portUp s p then s
  else
    let code := p + 1
    let s := modPort s p (fun x => { x with up := false, held := none, pendingVec := [], atc := [], pageReqs := [] })
    let s := hostDies s p
    let s := if getF s fID_SEM_OWNER = code then endLease s else s
    let s := (List.range 16).foldl (fun s c => abortRings (dropRings s c (fun x => x == code)) c (fun x => x == code)) s
    let s := [0, 1].foldl (fun s n => if getF s (fFLT_ER_CFG_PORT n) = code ∧ getF s (fFLT_ER_STATE_STATE n) ≠ 0 then
      setF (setF s (fFLT_ER_STATE_STATE n) 3) (fFLT_ER_STATE_CAUSE n) 2 else s) s
    let s := [0, 1].foldl (fun s n => if getF s (fOBS_TRB_CFG_PORT n) = code ∧ getF s (fOBS_TRB_STATE_STATE n) ≠ 0 then
      setF (setF s (fOBS_TRB_STATE_STATE n) 3) (fOBS_TRB_STATE_CAUSE n) 2 else s) s
    let s := { s with obs := { s.obs with heldBar4 := s.obs.heldBar4.filter (fun h => h.1 != p) } }
    errRecord s { sev := 2, cause := 0x0041, die := 8 + p, unit := 0x0A, index := p, hubO := p == 1 }

/-! ## Lost regions -/

/-- R520, R655: a region leaves service: it is LOST and leaves every slice that holds it. Commands that have blocks in it stop;
those saved in its contexts end with ABORTED. -/
def loseRegion (s : Dev) (r : Nat) : Dev :=
  if getF s (fSLC_RGN_STATE r) = 3 then s
  else
    let holders := getF s (fSLC_RGN_HOLDERS r)
    let run := cmdsOf (regionTab s r) ++ (engineCmds s r).map (fun c => c.key)
    let saved := (s.saved.filter (fun x => x.region == r)).flatMap (fun x => cmdsOf x.cores)
    let s := run.foldl abortOrRequeue s
    let s := saved.foldl (fun s k => failCmd s k 0x05) s
    let s := { s with saved := s.saved.filter (fun x => x.region != r) }
    let s := (List.range 16).foldl (fun s n => if holders.testBit n then
      setF s (fSLC_RGNS_REGIONS n) (Nat.land (getF s (fSLC_RGNS_REGIONS n)) (2 ^ 32 - 1 - 2 ^ r)) else s) s
    setReg (groomRegion s r) (offSLC_RGN r) (BitVec.ofNat 64 (3 * 2 ^ 62))

/-! ## The device stop -/

/-- R659: a device stop: every channel stops dispatching and every command stops with ABORTED. -/
def deviceStop (s : Dev) : Dev :=
  if s.flt.stopped then s
  else
    let s := { s with flt := { s.flt with stopped := true } }
    let s := (s.cmds.map (fun c => c.key)).foldl (fun s k => failCmd s k 0x05) s
    setF (setF (setF (setF s fFLT_HEALTH_STATE 2) fFLT_HEALTH_SERVICE 1) fSU_PINS_SERVICE 1) fSU_PINS_FAULT 1

/-- R50: the dies reached from a set of dies over the links of R419 that have not failed, within some hops. -/
def reach (s : Dev) : Nat → List Nat → List Nat
  | 0, ds => ds
  | n + 1, ds =>
    let ends := (List.range 14).filterMap (fun l =>
      if getF s (fDL_LINK_STATE l) = 3 then none
      else
        let (a, b) := linkEnds l
        if ds.contains a && !ds.contains b then some b else if ds.contains b && !ds.contains a then some a else none)
    reach s n (ds ++ ends.eraseDups)

/-- R659: some two compute dies in service have no route between them. -/
def partitioned (s : Dev) : Bool :=
  let alive := (List.range 8).filter (fun d => !dieLost s d)
  match alive with
  | [] => false
  | a :: _ => !(alive.all (fun d => (reach s 10 [a]).contains d))

/-- A link is FAILED (R431, R451). -/
def failLink (s : Dev) (l : Nat) : Dev :=
  let s := setF (setF s (fDL_LINK_STATE l) 3) (fDL_LINK_MODULES l) 0
  setF s fFLT_HEALTH_LINKS_FAILED (Nat.lor (getF s fFLT_HEALTH_LINKS_FAILED) (2 ^ l))

/-! ## The domain drop -/

/-- R311, R658: what a drop answers: the dead agents, the kind of the first trigger (R647), a die, a link and a hub that are lost,
and the agents that rejoin empty (R318). -/
structure Drop where
  dead : Nat
  kind : Nat
  die : Option Nat
  link : Option Nat
  hub : Option Nat
  rejoin : Nat
deriving DecidableEq, Repr

/-- A drop with no dead agent. -/
def Drop.none : Drop := { dead := 0, kind := 0, die := Option.none, link := Option.none, hub := Option.none, rejoin := 0 }

/-- R314, R315: a line of a home poisoned in every sector, with no other copy. -/
def poisonHome (s : Dev) (h : CacheLine) : Dev :=
  let d := (List.range 8).foldl (fun d i => putSector d i (Config.poisonData (s.free + i))) (0 : LineData)
  let s := { s with free := s.free + 8 }
  markDirty (putLine s { h with st := .hv, owner := 0x3F, sharers := 0, sv := 0xFF, dm := BitVec.allOnes 512, ps := 0xFF, data := d }) h.agent h.backing

/-- R313 step 4 for one surviving guest: its dirty bytes reach the line's home, found by R312. -/
def guestReturns (s : Dev) (g : CacheLine) : Dev :=
  if g.dm = 0 then s
  else
    let pa := g.line * 512
    let attr : PageAttr := { home := (zonePolicy s pa).getD 0, cache := 0, sharedRO := false, owner := g.tag }
    (cohWrite s none g.tag pa attr g.data g.dm.toNat g.ps noThread).1

/-- R373: waiters owed an acknowledgement by an agent that becomes dead: `dead` says which lines a dead agent was home of. -/
def ackLosses (s : Dev) (dead : Nat → PageAttr → Bool) : Dev :=
  let ops := movedOps s
  let s := (s.cores.map (fun e => e.1)).foldl (fun s k =>
    ((getCore s k).sb.filter (fun e => e.st == .sent && dead (e.line * 512) e.attr)).foldl (fun s e =>
      sbGone (freeSb (noteLost s k e.groups e.cmds (lostLevel s (e.line * 512)) 0x09) k e.seq) k e.tag) s) s
  ops.foldl (fun s o => if opWrites s (cmdTag s o.1) o.2 dead then failCmd s o.1 0x09 else s) s

/-- R313: the requests that waited at dead homes are asked again: their misses and queued operations are gone, and so is what those homes
held. -/
def reask (s : Dev) (isDead : Nat → Bool) : Dev :=
  let waiters : List (Nat × Nat) := (s.ms.misses.filter (fun m => isDead m.slice)).flatMap (fun m => m.reqs.map (fun q => match q with
      | .core c r => (c, r)))
    ++ ((s.ms.redQ ++ s.ms.adderQ).filter (fun q => isDead q.home)).map (fun q => (q.core, q.req))
  let drop (m : MemSys) : MemSys :=
    { m with
      misses := m.misses.filter (fun x => !isDead x.slice)
      redQ := m.redQ.filter (fun q => !isDead q.home)
      adderQ := m.adderQ.filter (fun q => !isDead q.home)
      heldOps := m.heldOps.filter (fun q => !isDead q.home) }
  modMs (waiters.foldl (fun s w => modReq s w.1 w.2 (fun r => { r with waiting := false })) s) drop

/-- R314: the ordered operations on affected sectors are aborted; the others are kept. -/
def abortOrdered (s : Dev) (hit : OrdOp → Bool) (isDead : Nat → Bool) : Dev :=
  let ords := (s.ms.ordSent ++ s.ms.reorder).filter hit
  let drop (m : MemSys) : MemSys :=
    { m with
      ordSent := m.ordSent.filter (fun q => !hit q)
      reorder := m.reorder.filter (fun q => !hit q)
      ordSectors := m.ordSectors.filter (fun e => !isDead e.home && !ords.any (fun q => q.home == e.home && q.pa / 64 == e.sector)) }
  let s := modMs s drop
  let s := (ords.map (fun q => q.cmd)).eraseDups.foldl (fun s k => failCmd s k 0x0C) s
  (ords.map (fun q => q.slice)).eraseDups.foldl (fun s n => setF s (fCD_SLICE_CFG_ORED_ARM n) 0) s

/-- R313, R314: what the cache does in a drop whose dead agents are `dead`. `s` is the state before it. -/
def cacheDrop (s : Dev) (dead : Nat) : Dev :=
  let isDead (a : Nat) : Bool := dead.testBit a
  let homeDead (pa : Nat) (attr : PageAttr) : Bool := match placeOf s pa with
    | .tier => (match homeAgent s pa attr.home with
      | some h => isDead h
      | none => false)
    | _ => false
  let lines := s.ms.lines
  let ownerDead (pa : Nat) : Bool := lines.any (fun l => l.home && l.line == pa / 512 && l.st == .hx && isDead l.owner)
  let s1 := ackLosses s homeDead
  let owned := s1.ms.lines.filter (fun l => l.home && !isDead l.agent && l.st == .hx && isDead l.owner)
  let s1 := owned.foldl poisonHome s1
  let guests := s1.ms.lines.filter (fun l => !l.home && !isDead l.agent)
  -- members and lines without the dead agents
  let s1 := setF s1 fCD_STATUS_MEMBERS (Nat.land (getF s1 fCD_STATUS_MEMBERS) (2 ^ 36 - 1 - Nat.land dead (2 ^ 36 - 1)))
  let s1 := reask s1 isDead
  let s1 := modMs s1 (fun m => { m with lines := m.lines.filter (fun l => !isDead l.agent) })
  -- owners' dirty bytes reach their homes; every guest copy goes
  let s1 := guests.foldl guestReturns s1
  let s1 := modMs s1 (fun m => { m with lines := (m.lines.filter (fun l => l.home)).map (fun l =>
    { l with sharers := 0, owner := 0x3F, st := if l.st = .hx then .hv else l.st }), resv := [] })
  settleDrains (abortOrdered s1 (fun q => isDead q.home || ownerDead q.pa) isDead)

/-- R419: the links of a hub: those to compute dies, and that of its bay where one was admitted. -/
def hubLinks (s : Dev) (h : Nat) : List Nat :=
  (if h = 0 then [0, 1] else [12, 13]) ++ if getF s (fDL_BAY_STATUS_STATE h) = 2 ∨ getF s (fDL_BAY_STATUS_STATE h) = 3 then [14 + h] else []

/-- R663: the losses that go with a hub. -/
def loseHub (s : Dev) (h : Nat) : Dev :=
  let s := setF s fFLT_HEALTH_HUBS_BAYS (Nat.lor (getF s fFLT_HEALTH_HUBS_BAYS) (2 ^ h))
  let s := linkDown s h
  let s := (List.range 8).foldl (fun s i =>
    let c := 8 * h + i
    let s := abortRings (dropRings s c (fun _ => true)) c (fun _ => true)
    let s := if getF s (fCH_STATUS_OWNED c) = 1 then
      setF s (fSLC_CHAN_CHANNELS (chanSlice s c)) (Nat.land (getF s (fSLC_CHAN_CHANNELS (chanSlice s c))) (2 ^ 16 - 1 - 2 ^ c)) else s
    setF (setF s (fCH_STATUS_OWNED c) 0) (fCH_STATUS_SLICE c) 0) s
  let s := farDies (farDies s (2 * h)) (2 * h + 1)
  let mine := s.flt.backlog.filter (fun e => e.1 == h)
  let s := { s with flt := { s.flt with backlog := s.flt.backlog.filter (fun e => e.1 != h) } }
  let s := satF (setF s fFLT_SEQ_BACKLOG s.flt.backlog.length) fFLT_SEQ_BACKLOG_LOST mine.length
  let s := (hubLinks s h).foldl failLink s
  -- an admitted bay fails with its hub
  showTap (if getF s (fDL_BAY_STATUS_STATE h) = 2 then
    let s := showRights (setF s (fDL_BAY_STATUS_STATE h) 3) h
    setF s fFLT_HEALTH_HUBS_BAYS (Nat.lor (getF s fFLT_HEALTH_HUBS_BAYS) (2 ^ (2 + h))) else s)

/-- The links a lost die takes with it (R431). -/
def dieLinks (d : Nat) : List Nat := (List.range 14).filter (fun l => (linkEnds l).1 == d || (linkEnds l).2 == d)

/-- R655: the record of a lost region, with its replacement request. -/
def regionRecord (s : Dev) (r : Nat) : Dev :=
  noteReplace (errRecord s { sev := 3, cause := 0x0061, die := r / 4, region := r % 4, replace := true }) 2

/-- R311 to R315, R657: steps 2 to 6 of a domain drop. There is none before Saddled (R635). Its triggers that come before its step 5 are one
drop (R658). From its end until step 7 DROP_ACTIVE reads 1, and every home refuses coherent requests with retry (log 15). -/
def domainDrop (s : Dev) (d : Drop) : Dev :=
  if stage s ≠ 2 then s
  else
    let s := setF s fCD_STATUS_DROP_ACTIVE 0
    let run := s.ms.drop.getD { dead := 0, kind := d.kind, first := s.now, last := s.now, dies := [], links := [], hubs := [], regions := [] }
    let s := if s.ms.drop.isSome then s else satF s fCD_STATUS_DROP_COUNT 1
    let s := match d.die with
      | some x => (dieLinks x).foldl failLink s
      | none => s
    let mods := match d.link with
      | some l => getF s (fDL_LINK_MODULES l)
      | none => 0
    let s := match d.link with
      | some l => failLink s l
      | none => s
    let s := enterTso s
    let s := cacheDrop s d.dead
    let s := setF s fCD_STATUS_MEMBERS (Nat.lor (getF s fCD_STATUS_MEMBERS) d.rejoin)
    let s := setF s fCD_STATUS_LAST_DEAD (((List.range 36).find? (fun a => (Nat.lor run.dead d.dead).testBit a)).getD 0x3F)
    let s := match d.die with
      | some x =>
        let s := setF s fFLT_HEALTH_DIES_LOST (Nat.lor (getF s fFLT_HEALTH_DIES_LOST) (2 ^ x))
        let s := setF s fSU_STATUS_DIES_OK (Nat.land (getF s fSU_STATUS_DIES_OK) (255 - 2 ^ x))
        setF s fMT_STATUS_STACK_OK (Nat.land (getF s fMT_STATUS_STACK_OK) (65535 - 3 * 2 ^ (2 * x)))
      | none => s
    -- lines with no home and windows of a lost die are dead destinations from now on (R368)
    let s := dropWrites s (deadPlace s)
    let s := showTap s
    let lost := (List.range 32).filter (fun r => d.dead.testBit r && getF s (fSLC_RGN_STATE r) != 3)
    let s := lost.foldl loseRegion s
    let s := match d.hub with
      | some h => loseHub s h
      | none => s
    let run : DropRun :=
      { run with
        dead := Nat.lor run.dead d.dead
        last := s.now
        dies := run.dies ++ d.die.toList
        links := run.links ++ d.link.toList.map (fun l => (l, mods))
        hubs := run.hubs ++ d.hub.toList
        regions := run.regions ++ lost.filter (fun r => d.die != some (r / 4)) }
    let s := modMs (setF s fCD_STATUS_DROP_ACTIVE 1) (fun m => { m with blocked := false, drop := some run })
    -- the device stops when no cache slice is left, both hubs are lost, or the package is partitioned
    if Nat.land (getF s fCD_STATUS_MEMBERS) (2 ^ 32 - 1) = 0 ∨ (hubLost s 0 && hubLost s 1) = true then deviceStop s
    else if partitioned s then
      deviceStop (errRecord s { sev := 4, cause := 0x0065, unit := 0x09, detail := maskOf ((List.range 16).filter (fun l => getF s (fDL_LINK_STATE l) == 3)) })
    else s

/-- R647, R657 step 6, R658: the records of a drop, one for the joined drop and one for each part lost. The interruption is a free value
within R657's bound from the last trigger. -/
def dropRecords (s : Dev) (r : DropRun) : Dev :=
  let ns := r.last - r.first + (Config.dropNs s.free).toNat % 40001
  let s := errRecord (bumpFree s) { sev := 3, cause := 0x0030, detail := r.dead % 2 ^ 36 + r.kind * 2 ^ 64 + ns % 2 ^ 32 * 2 ^ 96 }
  let s := r.dies.foldl (fun s x => noteReplace (errRecord s { sev := 3, cause := 0x0062, die := x, replace := true }) 1) s
  let s := r.links.foldl (fun s l => noteReplace (errRecord s { sev := 3, cause := 0x0022, unit := 0x09, index := l.1, replace := true, detail := l.2 }) 3) s
  let s := r.hubs.foldl (fun s h => noteReplace (errRecord s { sev := 3, cause := 0x0063, die := 8 + h, replace := true, hubO := h == 0 }) 5) s
  r.regions.foldl regionRecord s

/-- R313 step 7, R675: a nanosecond passes: the homes accept coherent requests again, and the drop is recorded (DESIGN CHOICE, logs 1 and
15). -/
def passTime (s : Dev) : Dev :=
  let s := { s with now := s.now + 1 }
  match s.ms.drop with
  | some r => dropRecords (modMs (setF s fCD_STATUS_DROP_ACTIVE 0) (fun m => { m with drop := none })) r
  | none => s

end Sys2Proof.Machine
end

