-- ==== Sys2Proof/Machine/Cache.lean ====
section
/-! DEFINITION. Sys2Proof/Machine/Cache.lean: the commands of "The unified cache" and of the ordering mode: range operations by
register (R296 to R298, R310, R328), the arming of ordered reductions (R307, R308), the mode write (R337), the
silence of an agent (R311), and a home read with what the home's storage shows (R286, R318). -/

namespace Sys2Proof.Machine

open Sys2Proof

/-! ## Range operations -/

/-- The dies whose stacks back a physical frame of the near tier, by its zone's policy (R280, R399). -/
def frameDies (s : Dev) (f : Nat) : List Nat :=
  let d := f / 2 ^ 21
  match zonePolicy s (f * 2 ^ 16) with
  | some 1 => (List.range 4).map (fun i => 4 * (d / 4) + i)
  | some 2 => List.range 8
  | _ => [d]

/-- R310: clear the dirty-frame map bits of the frames that satisfy `p`, in every cache slice's map: a bit stands for every
frame that lies behind its die's frame (DEDUCED, log 13). -/
def clearMap (s : Dev) (p : Nat → Bool) : Dev :=
  modMs s (fun m => { m with dirtyMap := m.dirtyMap.filter (fun e =>
    let die := e / 2 ^ 21 / 4
    !((List.range 8).any (fun d => let f := d * 2 ^ 21 + e % 2 ^ 21
        p f && (frameDies s f).contains die))) })

/-- R297, R328: the lines a CD_RANGE operation covers. -/
def rangeHits (s : Dev) (l : CacheLine) : Bool :=
  let b := getF s fCD_RANGE_BASE_BASE
  decide (b ≤ l.line) && decide (l.line < b + getF s fCD_RANGE_LEN_LINES)
    && (getF s fCD_RANGE_CMD_TAGSEL == 0 || l.tag == getF s fCD_RANGE_CMD_TAG)

/-- The range operation of an OP code. -/
def rangeOpOf (op : Nat) : RangeOp := if op = 1 then .flush else if op = 2 then .inval else .flushInv

/-- R296, R328: the effect of a write of CD_RANGE_CMD. -/
def rangeCmdEff (port : Nat) (data : Word) (s : Dev) : Dev :=
  if data.getLsbD 0 = false then writeReg s offCD_RANGE_CMD data
  else if getF s fCD_RANGE_CMD_BUSY = 1 ∨ getF s fCD_RANGE_LEN_LINES = 0 ∨ fld data 5 4 = 0 then setupError s port offCD_RANGE_CMD
  else
    let s := setF (writeReg s offCD_RANGE_CMD data) fCD_RANGE_CMD_BUSY 1
    let s := modMs s (fun m => { m with range := some (getF s fCD_RANGE_BASE_BASE, getF s fCD_RANGE_LEN_LINES, getF s fCD_RANGE_CMD_TAGSEL == 1) })
    rangeLines (rangeOpOf (fld data 5 4)) 0 s (rangeHits s)

/-- A CD_RANGE_CMD word with GO set. -/
def rangeWord (op : Nat) (tagsel : Bool) (tag : Nat) : Word := BitVec.ofNat 64 (1 + 16 * op + 256 * tagsel.toNat + 65536 * tag)

/-- R298, R306, R310: a CD_RANGE operation completes, once what homes hold of it at pinned lines has acted. The frames it covers are those
of its start. -/
def doRangeDone (s : Dev) : Dev :=
  if getF s fCD_RANGE_CMD_BUSY = 0 ∨ s.ms.heldOps.any (fun q => q.owner == 0 && decide (q.op < 3)) = true then s
  else
    let s' := setF (modMs s (fun m => { m with range := none })) fCD_RANGE_CMD_BUSY 0
    match s.ms.range with
    | some (b, n, false) => clearMap s' (fun f => decide (b ≤ 128 * f) && decide (128 * f + 128 ≤ b + n))
    | _ => s'

/-! ## Ordered reductions and the ordering mode -/

/-- R308, R323: the effect of a write of CD_SLICE_CFGn. -/
def sliceCfgEff (n : Nat) (data : Word) (s : Dev) : Dev :=
  let s := writeReg s (offCD_SLICE_CFG n) data
  if data.getLsbD 1 then ordClear s n else s

/-- R336, R337: the effect of a write of CD_ORDER. -/
def orderEff (port : Nat) (data : Word) (s : Dev) : Dev :=
  if data.getLsbD 0 then enterTso s
  else if stage s = 2 ∧ getF s fCD_STATUS_DROP_ACTIVE = 0 ∧ s.selfTest = 0 then setF s fCD_ORDER_MODE 0
  else setupError s port offCD_ORDER

/-! ## The silence of an agent -/

/-- R311, R663: agents give no heartbeat for 20 µs. Heartbeats are not watched while the module is stopped (R695). A hub whose two
sequencer caches are silent is lost (DEDUCED, log 14). -/
def doHeartbeatExpiry (silent : Nat) (s : Dev) : Dev :=
  let dead := Nat.land silent (getF s fCD_STATUS_MEMBERS)
  if whoaStopped s ∨ dead = 0 then s
  else
    let hub := if dead.testBit 32 && dead.testBit 33 then some 0 else if dead.testBit 34 && dead.testBit 35 then some 1 else none
    domainDrop s { Drop.none with dead := dead, hub := hub }

/-! ## A home read and the home's storage -/

/-- An SRAM record of a cache slice: a corrected error, or poison (R318, R647). -/
def sramRecord (s : Dev) (home : Nat) (ue : Bool) : Dev :=
  errRecord s (if ue then { sev := 1, cause := 0x0002, die := home / 4, region := home % 4, unit := 0x05 }
    else { sev := 0, cause := 0x0001, die := home / 4, region := home % 4, unit := 0x05 })

/-- R318: the requesters of a miss entry that is lost receive poison: its reads, and the operations queued on its line. -/
def missLost (s : Dev) (m : MissEntry) : Dev :=
  let here (q : RedOp) : Bool := q.home == m.slice && q.line == m.line
  let ops := s.ms.redQ.filter here
  let reads := m.reqs.filterMap (fun q => match q with
    | .core c i => (getReq s c i).map (fun r => (c, r)))
  let (s, held) := takeHeld s m.slice m.line
  let s := setPin (modMs s (fun x => { x with misses := x.misses.filter (fun e => !(e.slice == m.slice && e.line == m.line)), redQ := x.redQ.filter (fun q => !here q) })) m.slice m.line 0
  let x := (Config.poisonData s.free).toNat
  let s := reads.foldl (fun s q => answerRead s q.1 q.2 { data := BitVec.ofNat 4096 x, poison := 0xFF, err := none }) (bumpFree s)
  let s := ops.foldl (fun s q => match getReq s q.core q.req with
    | some r => answerAtom s q.core r { AtomRes.start with results := r.elems.map (fun e => (e.lane, x % 2 ^ (8 * r.size))), poison := 0xFF }
    | none => s) s
  settleDrains (releaseHeld s m.slice m.line held)

/-- R315, R318: what the home of a line finds wrong as it serves a core's access, and its effect. An ordered operation of which the reorder buffer
or the sector's table entry cannot be read is applied with poison (DEDUCED, log 91). -/
def homeFaultEff (f : HomeFault) (core line : Nat) (attr : PageAttr) (s : Dev) : Dev :=
  match homeAgent s (line * 512) attr.home with
  | none => s
  | some home =>
    let bad (s : Dev) (agent : Nat) (l : Option CacheLine) (i : Nat) : Dev := match l with
      | some h => sramRecord (putLine s { h with ps := h.ps ||| BitVec.ofNat 8 (2 ^ i) }) agent true
      | none => s
    let ord (p : OrdOp → Bool) : Dev :=
      sramRecord (modMs s (fun m => { m with reorder := updAll (fun q => q.home == home && p q) (fun q => { q with poison := true }) m.reorder })) home true
    match f with
    | .ok => s
    | .flaw _ => s
    | .corrected => sramRecord s home false
    | .data i => bad s home (liveLine s home line) i
    | .guest i => bad s (coreRegion core) (liveLine s (coreRegion core) line) i
    | .reorder id => ord (fun q => q.id == id)
    | .ordered sector => ord (fun q => q.pa / 64 == sector)
    | .address => deviceStop (errRecord s { sev := 4, cause := 0x0032, die := home / 4, region := home % 4, unit := 0x05, detail := home })
    | .directory =>
      match liveLine s home line with
      | some h =>
        let s := errRecord s { sev := 3, cause := 0x0031, die := home / 4, region := home % 4, unit := 0x05 }
        domainDrop (poisonHome (invalCopies s home line none) h) { Drop.none with kind := 2 }
      | none => s
    | .map fr =>
      let w := home * 2 ^ 21 + fr.val / 64 * 64
      sramRecord (modMs s (fun m => { m with dirtyMap := (List.range 64).foldl (fun l i => insSorted (w + i) l) m.dirtyMap })) home true
    | .table =>
      match s.ms.misses.find? (fun m => m.slice == home && m.line == line) with
      | some m => sramRecord (missLost s m) home true
      | none => s
    | .sequencer i => domainDrop s { Drop.none with dead := 2 ^ (32 + i.val), kind := 4, rejoin := 2 ^ (32 + i.val) }

/-- R313, R318: an access at a home, with what the home's storage and the tier show. One that meets a domain drop waits. -/
def homeStep (f : HomeFault) (core : Nat) (at' : Dev → Option (Nat × PageAttr)) (op : Dev → Dev) (s : Dev) : Dev :=
  if whoaStopped s then s
  else
    match f with
    | .flaw x => withFlaw x op s
    | _ =>
      let s := match at' s with
        | some (line, attr) => homeFaultEff f core line attr s
        | none => s
      if f != .ok && getF s fCD_STATUS_DROP_ACTIVE == 1 then s else op s

/-- The line and attributes of a request, and of a store-buffer entry. -/
def reqLine (core id : Nat) (s : Dev) : Option (Nat × PageAttr) := (getReq s core id).map (fun r => (r.line, r.attr))
def sbLine (core seq : Nat) (s : Dev) : Option (Nat × PageAttr) := ((getCore s core).sb.find? (fun e => e.seq == seq)).map (fun e => (e.line, e.attr))

/-- HOME_READ (R286). -/
def execHomeRead (core : Fin 768) (id : Nat) (fault : HomeFault) (s : State) : Out' := updM s (homeStep fault core (reqLine core id) (doHomeRead core id))
/-- HOME_WRITE (R286). -/
def execHomeWrite (core : Fin 768) (seq : Nat) (s : State) (fault : HomeFault := .ok) : Out' := updM s (homeStep fault core (sbLine core seq) (doHomeWrite core seq))
/-- HOME_ATOMIC (R301). -/
def execHomeAtomic (core : Fin 768) (id : Nat) (s : State) (fault : HomeFault := .ok) : Out' := updM s (homeStep fault core (reqLine core id) (doHomeAtomic core id))
/-- FLUSH (R296). -/
def execFlush (port : Fin 2) (tagsel : Bool) (tag : Fin 32) (s : State) : Out' :=
  upd s (setupWr port offCD_RANGE_CMD (rangeWord 1 tagsel tag) (rangeCmdEff port (rangeWord 1 tagsel tag)))
/-- INVALIDATE (R296). -/
def execInvalidate (port : Fin 2) (tagsel : Bool) (tag : Fin 32) (s : State) : Out' :=
  upd s (setupWr port offCD_RANGE_CMD (rangeWord 2 tagsel tag) (rangeCmdEff port (rangeWord 2 tagsel tag)))
/-- FLUSH_INV (R296). -/
def execFlushInv (port : Fin 2) (tagsel : Bool) (tag : Fin 32) (s : State) : Out' :=
  upd s (setupWr port offCD_RANGE_CMD (rangeWord 3 tagsel tag) (rangeCmdEff port (rangeWord 3 tagsel tag)))
/-- RANGE_DONE (R298). -/
def execRangeDone (s : State) : Out' := upd s doRangeDone
/-- ORED_ARM (R308): the written word with ORED_ARM set. -/
def execOredArm (port : Fin 2) (slice : Fin 16) (data : Word) (s : State) : Out' :=
  upd s (setupWr port (offCD_SLICE_CFG slice) (data ||| 2) (sliceCfgEff slice (data ||| 2)))
/-- MODE_WRITE (R337). -/
def execModeWrite (port : Fin 2) (mode : Bool) (s : State) : Out' :=
  upd s (setupWr port offCD_ORDER (BitVec.ofNat 64 mode.toNat) (orderEff port (BitVec.ofNat 64 mode.toNat)))
/-- HEARTBEAT_EXPIRY (R311). -/
def execHeartbeatExpiry (silent : BitVec 36) (s : State) : Out' := upd s (doHeartbeatExpiry silent.toNat)

end Sys2Proof.Machine
end

