-- ==== Sys2Proof/Machine/FabImage.lean ====
section
/-! DEFINITION. Sys2Proof/Machine/FabImage.lean: the function fabric's configuration images (R226 to R230, R233), the operations
of a processing element (R210 to R212) and the lookup tables (R215). An image is a little-endian number. -/

namespace Sys2Proof.Machine

open Sys2Proof

/-! ## Image fields (R226 to R230) -/

/-- `n` bytes at offset `off` of an image. -/
def imgN (img off n : Nat) : Nat := img / 2 ^ (8 * off) % 2 ^ (8 * n)

def iNENT (img : Nat) : Nat := imgN img 0x06 1
def iNTAB (img : Nat) : Nat := imgN img 0x07 1
def iSIZE (img : Nat) : Nat := imgN img 0x08 4
def iNCONST (img : Nat) : Nat := imgN img 0x0C 1

/-- Fields of entry `e` (R228). -/
def eN (img e off n : Nat) : Nat := imgN img (0x100 + 64 * e + off) n
def eII (img e : Nat) : Nat := eN img e 0 1
def eSBASE (img e : Nat) : Nat := eN img e 1 1
def eLAT (img e : Nat) : Nat := eN img e 2 2
def eINB (img e : Nat) : Nat := eN img e 4 1
def eDRB (img e : Nat) : Nat := eN img e 5 1
def eOUTB (img e : Nat) : Nat := eN img e 6 1
def eINCFG (img e p : Nat) : Nat := eN img e (8 + p) 1
def eOUTCFG (img e p : Nat) : Nat := eN img e (0x10 + p) 1
def eLLEN (img e p : Nat) : Nat := eN img e (0x18 + 2 * p) 2
def eNITER (img e : Nat) : Nat := eN img e 0x28 4

/-- Slot `s` of PE (r, c) (R226, R230). -/
def slotW (img r c s : Nat) : Nat := imgN img (0x900 + ((r * 16 + c) * 4 + s) * 8) 8
def sHOLD (w : Nat) : Bool := w.testBit 51
def sSAT (w : Nat) : Bool := w.testBit 50
def sRND (w : Nat) : Nat := nField w 49 48
def sTAB (w : Nat) : Nat := nField w 47 44
def sCIDX (w : Nat) : Nat := nField w 43 37
def sOPORT (w : Nat) : Nat := nField w 36 34
def sOUT (w : Nat) : Bool := w.testBit 33
def sXLANE (w : Nat) : Nat := nField w 32 31
def sXDIM (w : Nat) : Bool := w.testBit 30
def sXEN (w : Nat) : Bool := w.testBit 29
def sIPORT (w : Nat) : Nat := nField w 28 26
def sRD (w : Nat) : Nat := nField w 25 23
def sWR (w : Nat) : Bool := w.testBit 22
def sSRC (w i : Nat) : Nat := if i = 0 then nField w 11 7 else if i = 1 then nField w 16 12 else nField w 21 17
def sOPC (w : Nat) : Nat := nField w 6 0

/-- Fields of table header `t` (R229). -/
def tN (img t off n : Nat) : Nat := imgN img (0x700 + 32 * t + off) n
def tMODE (img t : Nat) : Nat := tN img t 0 1
def tP (img t : Nat) : Nat := tN img t 1 1
def tCLAMP (img t : Nat) : Bool := (tN img t 2 1).testBit 0
def tPAR (img t : Nat) : Bool := (tN img t 2 1).testBit 1
def tOUTE (img t : Nat) : Nat := nField (tN img t 2 1) 3 2
def tTOFF (img t : Nat) : Nat := tN img t 4 4
/-- Coefficient `k` of segment `i`. -/
def tCoef (img t i k : Nat) : Nat := imgN img (tTOFF img t + 12 * i + 4 * k) 4

/-! ## Which fields an operation uses (R210, R211) -/

/-- Sources an operation reads; `none` for a reserved opcode. -/
def opcSources (c : Nat) : Option Nat :=
  if c = 0 then some 0
  else if [0x01, 0x0E, 0x0F, 0x1C, 0x1D, 0x30, 0x31, 0x38].contains c then some 1
  else if [0x08, 0x09, 0x0A, 0x0C, 0x0D, 0x10, 0x11, 0x12, 0x18, 0x19, 0x1B, 0x20, 0x21, 0x22, 0x23, 0x24, 0x25, 0x26, 0x27, 0x28, 0x29, 0x2A, 0x2B, 0x2C].contains c then some 2
  else if [0x0B, 0x1A, 0x2D].contains c then some 3
  else none

/-- Operations that round by RND, and those that use SAT. -/
def opcRounds (c : Nat) : Bool := [0x08, 0x09, 0x0A, 0x0B, 0x18, 0x19, 0x1A, 0x1B, 0x30, 0x31].contains c
def opcSat (c : Nat) : Bool := c == 0x1B || c == 0x31

/-- The source codes a slot reads. -/
def slotSources (w : Nat) : List Nat := (List.range ((opcSources (sOPC w)).getD 0)).map (sSRC w)

/-- R210, R211, R230, R233: a slot of an entry with input ports `inb` and output ports `outb`. -/
def slotOk (img inb outb w : Nat) : Bool :=
  if sOPC w = 0 then w == 0
  else
    match opcSources (sOPC w) with
    | none => false
    | some n =>
      let src := slotSources w
      let port := src.contains 0x14 || src.contains 0x15
      nField w 63 52 == 0
        && (if opcRounds (sOPC w) then decide (sRND w ≤ 1) else sRND w == 0) && (opcSat (sOPC w) || !sSAT w)
        && (decide (1 ≤ n) || sSRC w 0 == 0) && (decide (2 ≤ n) || sSRC w 1 == 0) && (decide (3 ≤ n) || sSRC w 2 == 0)
        && src.all (fun c => decide (c ≤ 0x1B))
        && (if sOPC w = 0x38 then decide (sTAB w < iNTAB img) else sTAB w == 0)
        && (if src.contains 0x16 then decide (sCIDX w < iNCONST img) else sCIDX w == 0)
        && (if port then inb.testBit (sIPORT w) else sIPORT w == 0)
        && (if sOUT w then outb.testBit (sOPORT w) else sOPORT w == 0)
        && (sXEN w || (sXLANE w == 0 && !sXDIM w)) && (sWR w || sRD w == 0)

/-! ## Validation (R233) -/

/-- The slots of an entry's window: slot number and its 256 words. -/
def windowSlots (img e : Nat) : List (Nat × List (Nat × Nat × Nat)) :=
  (List.range (eII img e)).map (fun j =>
    (eSBASE img e + j, (List.range 256).map (fun k => (k / 16, k % 16, slotW img (k / 16) (k % 16) (eSBASE img e + j)))))

/-- No repeats, for a list of small numbers. -/
def distinct : List Nat → Bool
  | [] => true
  | x :: t => !t.contains x && distinct t

/-- The express lane a PE's slot drives, as one number. -/
def xlKey (r c w : Nat) : Nat := if sXDIM w then 64 + 4 * c + sXLANE w else 4 * r + sXLANE w

/-- The output lane a PE's slot writes, as one number. -/
def outLane (img e r c w : Nat) : Nat := 16 * sOPORT w + (if (eOUTCFG img e (sOPORT w)).testBit 0 then c else r)

/-- The byte offsets of an entry that the entry table does not list. -/
def entryResZero (img e : Nat) : Bool := eN img e 7 1 == 0 && eN img e 0x2C 20 == 0

/-- R228, R233: one entry. ANCH is checked for the ports of INB only; that of a port with ADV = 0 may also be zero, as R211's unused fields
are (DEDUCED, log 89). -/
def entryOk (img e : Nat) : Bool :=
  let inb := eINB img e
  let drb := eDRB img e
  let cfgOk (p : Nat) : Bool :=
    if inb.testBit p then
      let c := eINCFG img e p
      let anch := nField c 4 2
      nField c 7 5 == 0 &&
        (if c.testBit 1 then inb.testBit anch && !(eINCFG img e anch).testBit 1 else anch == 0 || (inb.testBit anch && !(eINCFG img e anch).testBit 1))
    else nField (eINCFG img e p) 7 5 == 0
  let llenOk (p : Nat) : Bool := if drb.testBit p then decide (1 ≤ eLLEN img e p) && decide (eLLEN img e p ≤ 128) else eLLEN img e p == 0
  let outOk (p : Nat) : Bool := nField (eOUTCFG img e p) 7 4 == 0 && nField (eOUTCFG img e p) 2 1 != 3
  decide (1 ≤ eII img e) && decide (eII img e ≤ 4) && decide (eSBASE img e ≤ 3) && decide (eSBASE img e + eII img e ≤ 4) && decide (eLAT img e ≤ 1023)
    && Nat.land drb inb == drb && (List.range 8).all cfgOk && (List.range 8).all llenOk && (List.range 8).all outOk
    && (if inb = 0 then eNITER img e != 0 else eNITER img e == 0) && entryResZero img e

/-- R233: the slots of one entry's window. -/
def windowOk (img e : Nat) : Bool :=
  let ws := windowSlots img e
  ws.all (fun sl => sl.2.all (fun x => slotOk img (eINB img e) (eOUTB img e) x.2.2)
      && distinct ((sl.2.filter (fun x => sXEN x.2.2)).map (fun x => xlKey x.1 x.2.1 x.2.2)))
    && distinct (ws.flatMap (fun sl => (sl.2.filter (fun x => sOUT x.2.2)).map (fun x => outLane img e x.1 x.2.1 x.2.2)))

/-- A finite FP32 word. -/
def finite32 (w : Nat) : Bool := nField w 30 23 != 255
/-- A word that is no NaN, or the canonical one. -/
def specialOk (w : Nat) : Bool := !isNaN (decodeVal .fp32 w) || w == 0x7FC00000

/-- R229, R233: one table header and its segments. Byte 0x03, which the table does not list, must be zero (DEDUCED, log 89). -/
def tableOk (img t : Nat) : Bool :=
  let m := tMODE img t
  let fl := tN img t 2 1
  decide (m ≤ 2) && decide (tP img t ≤ 8) && (!tPAR img t || decide (1 ≤ tP img t))
    && nField fl 7 4 == 0 && (m == 0 || !tCLAMP img t) && (m == 2 || (!tPAR img t && tOUTE img t == 0)) && tN img t 3 1 == 0
    && tTOFF img t % 4 == 0 && decide (0x2900 ≤ tTOFF img t) && decide (tTOFF img t + 12 * 2 ^ tP img t ≤ iSIZE img)
    && (if m = 0 then finite32 (tN img t 8 4) && finite32 (tN img t 12 4) else tN img t 8 8 == 0)
    && (List.range 4).all (fun k => specialOk (tN img t (0x10 + 4 * k) 4))
    && (List.range (2 ^ tP img t)).all (fun i => (List.range 3).all (fun k => finite32 (tCoef img t i k)))

/-- One byte of the CRC-32 of IEEE 802.3 (fuel: bits). -/
def crcBits : Nat → Nat → Nat
  | 0, c => c
  | n + 1, c => crcBits n (if c % 2 = 1 then Nat.xor (c / 2) 0xEDB88320 else c / 2)

/-- R227: the CRC-32 of IEEE 802.3 over a list of bytes. -/
def crc32 (l : List Byte) : Nat := Nat.xor (l.foldl (fun c b => crcBits 8 (Nat.xor c b.toNat)) 0xFFFFFFFF) 0xFFFFFFFF

/-- R227: an image's header fields lie in the header table. -/
def headerOk (img : Nat) : Bool :=
  imgN img 0 4 == 0x31464656 && imgN img 4 2 == 1 && decide (1 ≤ iNENT img) && decide (iNENT img ≤ 16) && decide (iNTAB img ≤ 16)
    && iSIZE img % 64 == 0 && decide (0x2900 ≤ iSIZE img) && decide (iSIZE img ≤ 0x10000) && decide (iNCONST img ≤ 128)
    && imgN img 0x0D 3 == 0 && imgN img 0x14 236 == 0

/-- R227: CHECK matches, computed with CHECK taken as zero. -/
def checkOk (img : Nat) : Bool :=
  crc32 (leBytes (iSIZE img) (img - imgN img 0x10 4 * 2 ^ 128)) == imgN img 0x10 4

/-- R233: validation of an image. -/
def imageOk (img : Nat) : Bool :=
  headerOk img && checkOk img && (List.range (iNENT img)).all (fun e => entryOk img e && windowOk img e) && (List.range (iNTAB img)).all (tableOk img)

/-! ## Lookup and polynomial evaluation (R215) -/

/-- The floor of a finite value. -/
def floorVal (v : FVal) : Int :=
  match v with
  | .fin s m q =>
    if 0 ≤ q then (if s then -((m * 2 ^ q.toNat : Nat) : Int) else ((m * 2 ^ q.toNat : Nat) : Int))
    else
      let d := 2 ^ (-q).toNat
      if s then -((ceilDiv m d : Nat) : Int) else ((m / d : Nat) : Int)
  | _ => 0

/-- An integer as a value. -/
def intVal (x : Int) : FVal := .fin (decide (x < 0)) x.natAbs 0

/-- Negate a value. -/
def negVal (v : FVal) : FVal :=
  match v with
  | .nan => .nan
  | .inf s => .inf (!s)
  | .fin s m q => .fin (!s) m q

/-- An exact difference of finite values. -/
def subExact (a b : FVal) : FVal := (addVal a (negVal b)).getD .nan

/-- Scale a value by a power of two. -/
def scaleVal (v : FVal) (n : Int) : FVal :=
  match v with
  | .fin s m q => .fin s m (q + n)
  | x => x

/-- `a * u + c` in FP32 with one rounding, where `u` is an exact value. -/
def fmaV (a : Nat) (u : FVal) (c : Nat) : Nat × ArithFlags :=
  let x := decodeVal .fp32 a
  let z := decodeVal .fp32 c
  finishOp .fp32 .rne (isNaN x || isNaN u || isNaN z) (match mulVal x u with
    | none => none
    | some p => addVal p z)

/-- R215 horner. -/
def lutHorner (img t i : Nat) (u : FVal) : Nat × ArithFlags :=
  let (x, f1) := fmaV (tCoef img t i 2) u (tCoef img t i 1)
  let (y, f2) := fmaV x u (tCoef img t i 0)
  (y, f1 ||| f2)

/-- R215 special: a special word, NV when it is NaN. -/
def lutSpecial (w : Nat) : Nat × ArithFlags := (w, if isNaN (decodeVal .fp32 w) then flagNV else 0)

/-- R215 ldexp32. -/
def ldexp32 (p : Nat) (n : Int) : Nat × ArithFlags :=
  match decodeVal .fp32 p with
  | .nan => (0x7FC00000, 0)
  | .inf _ => (p, 0)
  | .fin s m q => roundFloat .fp32 .rne false 0 s m (q + n)

/-- R215: UNI. -/
def lutUni (img t : Nat) (x : Nat) : Nat × ArithFlags :=
  let n : Int := ((2 ^ tP img t : Nat) : Int)
  match decodeVal .fp32 x with
  | .inf s => lutSpecial (tN img t (if s then 0x18 else 0x14) 4)
  | _ =>
    let (y, f0) := fpFma .fp32 .rne x (tN img t 8 4) (tN img t 12 4)
    match decodeVal .fp32 y with
    | .inf s => let (w, f) := lutSpecial (tN img t (if s then 0x18 else 0x14) 4); (w, f0 ||| f)
    | yv =>
      let i := min (max (floorVal yv) 0) (n - 1)
      if tCLAMP img t then
        let d := subExact yv (intVal i)
        let u := if valLt false d (intVal 0) then intVal 0 else if valLt false (intVal 1) d then intVal 1 else d
        let (w, f) := lutHorner img t i.toNat u
        (w, f0 ||| f)
      else
        let (ub, f1) := finishOp .fp32 .rne false (some (subExact yv (intVal i)))
        let (w, f) := lutHorner img t i.toNat (decodeVal .fp32 ub)
        (w, f0 ||| f1 ||| f)

/-- R215: EXP2. -/
def lutExp2 (img t : Nat) (x : Nat) : Nat × ArithFlags :=
  let v := decodeVal .fp32 x
  if v == .inf false || !valLt false v (intVal 128) then lutSpecial (tN img t 0x14 4)
  else if v == .inf true || valLt false v (intVal (-160)) then lutSpecial (tN img t 0x18 4)
  else
    let n := floorVal v
    let g := scaleVal (subExact v (intVal n)) (tP img t)
    let i := floorVal g
    let (p, f1) := lutHorner img t i.toNat (subExact g (intVal i))
    let (y, f2) := ldexp32 p n
    (y, f1 ||| f2)

/-- R215: MANT. -/
def lutMant (img t : Nat) (x : Nat) : Nat × ArithFlags :=
  match decodeVal .fp32 x with
  | .nan => (0x7FC00000, flagNI)
  | .inf s => lutSpecial (tN img t (if s then 0x1C else 0x14) 4)
  | .fin s m q =>
    if m = 0 then lutSpecial (tN img t 0x10 4)
    else if s then lutSpecial (tN img t 0x1C 4)
    else
      let e := magExp m q
      -- m - 1 as an exact value
      let frac := subExact (.fin false m (q - e)) (intVal 1)
      let pw : Int := if tPAR img t then (tP img t : Int) - 1 else (tP img t : Int)
      let g := scaleVal frac pw
      let i := (if tPAR img t then (e % 2) * (2 ^ (tP img t - 1) : Nat) else 0) + floorVal g
      let (p, f1) := lutHorner img t i.toNat (subExact g (intVal (floorVal g)))
      match tOUTE img t with
      | 0 => (p, f1)
      | 1 => let (y, f) := finishOp .fp32 .rne (isNaN (decodeVal .fp32 p)) (addVal (decodeVal .fp32 p) (intVal e)); (y, f1 ||| f)
      | 2 => let (y, f) := ldexp32 p (-(e / 2)); (y, f1 ||| f)
      | _ => let (y, f) := ldexp32 p (-e); (y, f1 ||| f)

/-- R215: LUT. -/
def lutEval (img t x : Nat) : Nat × ArithFlags :=
  if isNaN (decodeVal .fp32 x) then (0x7FC00000, flagNI)
  else if tMODE img t = 0 then lutUni img t x
  else if tMODE img t = 1 then lutExp2 img t x
  else lutMant img t x

/-! ## PE operations (R210 to R212) -/

/-- The NI flag of two FP32 operands. -/
def niOf (a b : Nat) : ArithFlags := if isNaN (decodeVal .fp32 a) || isNaN (decodeVal .fp32 b) then flagNI else 0

/-- R93, R211: the conversion of a paired result to BF16 overflows where the exact result is infinite too. -/
def infHalf (x : Nat) : ArithFlags := if x % 2 ^ 15 = 0x7F80 then flagOF else 0

/-- R211, R212: a paired BF16 operation. -/
def pairOp (f : Nat → Nat → Nat → Nat × ArithFlags) (a b c : Nat) : Nat × ArithFlags :=
  let (lo, f1) := f (a % 2 ^ 16) (b % 2 ^ 16) (c % 2 ^ 16)
  let (hi, f2) := f (a / 2 ^ 16) (b / 2 ^ 16) (c / 2 ^ 16)
  (lo + 2 ^ 16 * hi, f1 ||| f2 ||| infHalf lo ||| infHalf hi)

/-- R210: the result of an operation on FP32, paired and conversion sources. HLO and HHI of an infinite half set OF, as R93 says of a
source other than FP32 (DEDUCED, log 85). -/
def peOp (img w a b c : Nat) : Nat × ArithFlags :=
  let rnd := (rndOfCode (sRND w)).getD .rne
  let va := decodeVal .fp32 a
  let vb := decodeVal .fp32 b
  let sa := sextNat 32 a
  let sb := sextNat 32 b
  match sOPC w with
  | 0x01 => (a, 0)
  | 0x08 => fpAdd .fp32 rnd a b
  | 0x09 => fpSub .fp32 rnd a b
  | 0x0A => fpMul .fp32 rnd a b
  | 0x0B => fpFma .fp32 rnd a b c
  | 0x0C => fpMin .fp32 a b
  | 0x0D => fpMax .fp32 a b
  | 0x0E => if isNaN va then (0x7FC00000, flagNI) else (a % 2 ^ 31, 0)
  | 0x0F => if isNaN va then (0x7FC00000, flagNI) else (Nat.xor a (2 ^ 31), 0)
  | 0x10 => ((valLt false va vb).toNat, niOf a b)
  | 0x11 => ((valLt false va vb || valEq va vb).toNat, niOf a b)
  | 0x12 => ((valEq va vb).toNat, niOf a b)
  | 0x18 => pairOp (fun x y _ => fpAdd .bf16 rnd x y) a b c
  | 0x19 => pairOp (fun x y _ => fpMul .bf16 rnd x y) a b c
  | 0x1A => pairOp (fun x y z => fpFma .bf16 rnd x y z) a b c
  | 0x1B =>
    let (lo, f1) := convertBits .fp32 .bf16 rnd (sSAT w) 0 a
    let (hi, f2) := convertBits .fp32 .bf16 rnd (sSAT w) 0 b
    (lo + 2 ^ 16 * hi, f1 ||| f2)
  | 0x1C => convertBits .bf16 .fp32 .rne false 0 (a % 2 ^ 16)
  | 0x1D => convertBits .bf16 .fp32 .rne false 0 (a / 2 ^ 16)
  | 0x20 => ((a + b) % 2 ^ 32, 0)
  | 0x21 => (wrapNat 32 (sa - sb), 0)
  | 0x22 => (a * b % 2 ^ 32, 0)
  | 0x23 => (if sa ≤ sb then a else b, 0)
  | 0x24 => (if sa ≤ sb then b else a, 0)
  | 0x25 => (Nat.land a b, 0)
  | 0x26 => (Nat.lor a b, 0)
  | 0x27 => (Nat.xor a b, 0)
  | 0x28 => (a * 2 ^ (b % 32) % 2 ^ 32, 0)
  | 0x29 => (a / 2 ^ (b % 32), 0)
  | 0x2A => (wrapNat 32 (sa / ((2 ^ (b % 32) : Nat) : Int)), 0)
  | 0x2B => ((decide (sa < sb)).toNat, 0)
  | 0x2C => ((a == b).toNat, 0)
  | 0x2D => (if c = 0 then b else a, 0)
  | 0x30 => convertBits .int32 .fp32 rnd false 0 a
  | 0x31 => convertBits .fp32 .int32 rnd (sSAT w) 0 a
  | 0x38 => lutEval img (sTAB w) a
  | _ => (0, 0)

end Sys2Proof.Machine
end

