-- ==== Sys2Proof/Machine/Tiers.lean ====
section
/-! DEFINITION. Sys2Proof/Machine/Tiers.lean: the commands of "Near and far memory": adders' merge buffers (R389), scrubbing (R385),
far ports that die, recover or report events (R368, R391, R395, R396), the backing table (R402), error injection (R418) and
the loss of a stack (R656). -/

namespace Sys2Proof.Machine

open Sys2Proof

/-- R389: a merge-buffer sector has had no operation for 2 µs and is written to the tier. -/
def doAdderFlushExpiry (sector : Nat) (s : Dev) : Dev :=
  match s.ms.adders.find? (fun a => a.sector == sector) with
  | none => s
  | some a => adderFlush { s with now := max s.now (a.last + 2000) } (64 * sector)

/-- R368: a far port's write-through has had no completion for 1 ms, or its link is down or reports Viral (R391). -/
def doFarDead (f : Nat) (s : Dev) : Dev := farDies s f

/-- R368, R369: a host link that is up returns no posted-write credit for 2 ms: its window is declared dead. -/
def doHostCreditTimeout (p : Nat) (s : Dev) : Dev :=
  if hostDead s p then s
  else destRecord (hostDies s p) 1 { sev := 2, cause := 0, die := 8 + p, unit := 0x0A, index := p, hubO := p == 1 }

/-- R385: a controller scrubs one sector of its stack, a read by no command. -/
def doScrubRead (sector : Nat) (s : Dev) : Dev :=
  let b := 64 * sector
  if getF s fMT_CFG_SCRUB_H = 0 ∨ isNear b = false ∨ s.pw.sleeping.getLsbD (nField b 39 37) = true ∨ stackLost s (stackOf b) = true ∨ dieLost s (nField b 39 37) = true then s
  else (tierRead s (paOf s b) b 0xFF).1

/-- R396, R412: the effect of a write of MT_FARn_CTL. -/
def farCtlEff (port f : Nat) (data : Word) (s : Dev) : Dev :=
  let st := getF s (fMT_FAR_CAP_STATE f)
  let s := if data.getLsbD 0 then
      if st = 2 then modMs s (fun m => { m with farRetrain := insSorted f m.farRetrain }) else setupError s port (offMT_FAR_CTL f)
    else s
  if data.getLsbD 1 then
    if st = 3 then setF s (fMT_FAR_CAP_STATE f) 1 else setupError s port (offMT_FAR_CTL f)
  else s

/-- R392, R734: what a far port shows after training: the volatile capacity rounded down to 1 GiB and limited to 512; a port that trains is
keyed afresh. -/
def farShow (s : Dev) (f : Nat) (state : Nat) (r : FarTrain) : Dev :=
  match r with
  | .absent => setF (setF s (fMT_FAR_CAP_STATE f) 0) (fMT_FAR_CAP_CAP_GIB f) 0
  | .found mib x8 gt =>
    let s := modMs s (fun m => { m with farIde := tabMod (fun _ => 0) m.farIde f (fun n => n + 1) })
    setF (setF (setF (setF s (fMT_FAR_CAP_STATE f) state) (fMT_FAR_CAP_CAP_GIB f) (min (mib / 1024) 512)) (fMT_FAR_CAP_X8 f) x8.toNat) (fMT_FAR_CAP_GT64 f) gt.toNat

/-- R396 step 3: a recovered port's training and enumeration end. -/
def doFarRetrainDone (f : Nat) (r : FarTrain) (s : Dev) : Dev :=
  if s.ms.farRetrain.contains f then
    farShow (modMs s (fun m => { m with farRetrain := delNat f m.farRetrain, devLoad := tabSet (fun _ => 1) m.devLoad f 1 })) f 3 r
  else s

/-- R391: the 10 µs of a port's reduced request rate end. -/
def doDevloadExpiry (f : Nat) (s : Dev) : Dev := modMs s (fun m => { m with devLoad := tabSet (fun _ => 1) m.devLoad f 1 })

/-- One word of a table in memory, read by the device through an entry point with the manager's tag; a word that cannot be read is zero. -/
def tableWord (s : Dev) (x : Option Nat) (pa : Nat) : Dev × Word :=
  if badEntryAddr s pa then (s, 0)
  else
    let (s, w, p) := physWord s x pa
    (s, if p then 0 else BitVec.ofNat 64 w)

/-- R402: the copy of the backing table, read through a sequencer cache (log 84). -/
def readBack (base : Nat) : Nat → Dev → Dev × List (Word × Word)
  | 0, s => (s, [])
  | n + 1, s =>
    let (s, l) := readBack base n s
    let (s, a) := tableWord s (seqEntry 0 0) (base + 16 * n)
    let (s, b) := tableWord s (seqEntry 0 0) (base + 16 * n + 8)
    (s, l ++ [(a, b)])

/-- R402, R414: the effect of a write of MT_BACK_CTL. A load is complete, and its copy in force, within the step. -/
def backCtlEff (data : Word) (s : Dev) : Dev :=
  let s := writeReg s offMT_BACK_CTL data
  if data.getLsbD 16 then
    let (s, l) := readBack (64 * getF s fMT_BACK_BASE_BASE) (getF s fMT_BACK_CTL_ENTRIES) s
    setF (modMs s (fun m => { m with backTable := l })) fMT_BACK_CTL_LOADED 1
  else s

/-- R418: the effect of a write of MT_INJECT. -/
def injectEff (port : Nat) (data : Word) (s : Dev) : Dev :=
  if data.getLsbD 0 = false then writeReg s offMT_INJECT data
  else if !debugOn s then setupError s port offMT_INJECT
  else
    let s := writeReg s offMT_INJECT data
    let pa := 64 * getF s fMT_INJECT_ADDR
    if isNear pa then
      let b := backingOf pa ((zonePolicy s pa).getD 0)
      modMs s (fun m => { m with tierErr := tabSet (fun _ => 0) m.tierErr (b / 64) (getF s fMT_INJECT_KIND + 1) })
    else s

/-- R280, R399, R401: the frames that have lines behind a backing frame: the frame itself, or its whole HALF or DEVICE group. -/
def groupFrames (s : Dev) (f : Nat) : List Nat :=
  let hd := f / 2 ^ 21
  match zonePolicy s (f * 2 ^ 16) with
  | some 1 => (List.range 4).map (fun i => (4 * (hd / 4) + i) * 2 ^ 21 + f % 2 ^ 21)
  | some 2 => (List.range 8).map (fun i => i * 2 ^ 21 + f % 2 ^ 21)
  | _ => [f]

/-- R406: enter a frame of a lost stack in the retired-frame list and the Bridle's copy of it, while the list has room. -/
def listFrame (s : Dev) (f : Nat) : Dev :=
  let n := getF s fMT_RETIRE_CNT_COUNT
  if 1024 ≤ n ∨ s.ms.badFrames.contains f = true then s
  else
    let s := modMs s (fun m => { m with badFrames := insSorted f m.badFrames })
    let s := setReg s (offMT_RETIRE n) (BitVec.ofNat 64 (2 ^ 63 + f * 2 ^ 16 + 3))
    { setF s fMT_RETIRE_CNT_COUNT (n + 1) with bridle := { s.bridle with repairLog := s.bridle.repairLog ++ [f] } }

/-- R406, R656: enter the frames of a lost stack in the retired-frame list: `left` backing frames looked at from `f` on. -/
def retireStack (k : Nat) : Nat → Nat → Dev → Dev
  | 0, _, s => s
  | left + 1, f, s => retireStack k left (f + 1) (if stackOf (f * 2 ^ 16) = k then (groupFrames s f).foldl listFrame s else s)

/-- R378, R405: the frames that a lost stack retires: 2^13 backing frames of it in each 1 GiB granule, with their groups. -/
def stackFrames (s : Dev) (k : Nat) : Nat :=
  (List.range 128).foldl (fun a g => a + 2 ^ 13 * (groupFrames s (k / 2 * 2 ^ 21 + g * 2 ^ 14)).length) 0

/-- Whether a frame has lines on a stack. -/
def frameOn (s : Dev) (k f : Nat) : Bool := (groupFrames s f).any (fun b => stackOf (b * 2 ^ 16) == k)

/-- R656, R405, R406: a stack is lost. The frames with lines on it are retired: those the list has no room for are counted. -/
def doStackLoss (k : Nat) (s : Dev) : Dev :=
  if stackLost s k || dieLost s (k / 2) then s
  else
    let on (l : Nat) : Bool := isNear (l * 512) && stackOf (l * 512) == k
    let s := setF s fFLT_HEALTH_STACKS_LOST (Nat.lor (getF s fFLT_HEALTH_STACKS_LOST) (2 ^ k))
    let s := setF s fMT_STATUS_STACK_OK (Nat.land (getF s fMT_STATUS_STACK_OK) (65535 - 2 ^ k))
    let s := dropWrites s (fun pa attr => isNear pa && stackOf (backingOf pa attr.home) == k)
    let s := dropBehind s (fun l => on l.backing)
    let s := modMs s (fun m => { m with adders := m.adders.filter (fun a => !(isNear (a.sector * 64) && stackOf (a.sector * 64) == k)) })
    let s := retireStack k 4096 (k / 2 * 2 ^ 21) s
    let s := satF s fMT_RETIRE_CNT_OVERFLOW (stackFrames s k - (s.ms.badFrames.filter (frameOn s k)).length)
    let e : ErrRec := { sev := 1, cause := 0x0060, die := k / 2, unit := 0x07, index := k, replace := true }
    destRecord (noteReplace (errRecord s e) 0) 5 { e with replace := false }

/-- R395: an expander's own event record is forwarded: CORRECTED, or DEFERRED for an uncorrectable one. -/
def doCxlEventRecord (f : Nat) (deferred : Bool) (addr : Nat) (s : Dev) : Dev :=
  let u := tierUnit (0x010000000000 + f * 2 ^ 39)
  if getF s (fMT_FAR_CAP_STATE f) = 0 then s
  else if deferred then errRecord s { u with sev := 1, cause := 0x0004, addr := some (0x010000000000 + f * 2 ^ 39 + addr % 2 ^ 39), detail := 1 }
  else errRecord s { u with sev := 0, cause := 0x0003, addr := some (0x010000000000 + f * 2 ^ 39 + addr % 2 ^ 39), detail := 2 }

/-- ADDER_FLUSH_EXPIRY (R389): the sector's backing address over 64. -/
def execAdderFlushExpiry (sector : Nat) (s : State) : Out' := upd s (doAdderFlushExpiry sector)
/-- FAR_WRITE_TIMEOUT (R368). -/
def execFarWriteTimeout (f : Fin 4) (s : State) : Out' := upd s (doFarDead f)
/-- HOST_CREDIT_TIMEOUT (R368). -/
def execHostCreditTimeout (port : Fin 2) (s : State) : Out' := upd s (doHostCreditTimeout port)
/-- SCRUB_READ (R385): the sector's backing address over 64, and what the tier answers. -/
def execScrubRead (sector : Nat) (s : State) (flaw : Flaw := .none) : Out' := updM s (withFlaw flaw (doScrubRead sector))
/-- RECOVER (R396). -/
def execRecover (port : Fin 2) (f : Fin 4) (s : State) : Out' := upd s (setupWr port (offMT_FAR_CTL f) 1 (farCtlEff port f 1))
/-- FAR_RETRAIN_DONE (R396). -/
def execFarRetrainDone (f : Fin 4) (result : FarTrain) (s : State) : Out' := upd s (doFarRetrainDone f result)
/-- UNLATCH (R396). -/
def execUnlatch (port : Fin 2) (f : Fin 4) (s : State) : Out' := upd s (setupWr port (offMT_FAR_CTL f) 2 (farCtlEff port f 2))
/-- DEVLOAD_EXPIRY (R391). -/
def execDevloadExpiry (f : Fin 4) (s : State) : Out' := upd s (doDevloadExpiry f)
/-- LOAD (R402). -/
def execLoad (port : Fin 2) (entries : Fin 1025) (s : State) : Out' :=
  updM s (setupWr port offMT_BACK_CTL (BitVec.ofNat 64 (2 ^ 16 + entries.val)) (backCtlEff (BitVec.ofNat 64 (2 ^ 16 + entries.val))))
/-- INJECT (R418): KIND and the sector's physical address over 64. -/
def execInject (port : Fin 2) (kind : Fin 4) (sector : BitVec 42) (s : State) : Out' :=
  upd s (setupWr port offMT_INJECT (BitVec.ofNat 64 (kind.val * 2 ^ 62 + sector.toNat * 64 + 1)) (injectEff port (BitVec.ofNat 64 (kind.val * 2 ^ 62 + sector.toNat * 64 + 1))))
/-- STACK_LOSS (R656). -/
def execStackLoss (stack : Fin 16) (s : State) : Out' := upd s (doStackLoss stack)
/-- FAR_LINK_DOWN (R368). -/
def execFarLinkDown (f : Fin 4) (s : State) : Out' := upd s (doFarDead f)
/-- CXL_EVENT_RECORD (R395): an offset in the port's range. -/
def execCxlEventRecord (f : Fin 4) (deferred : Bool) (addr : Nat) (s : State) : Out' := upd s (doCxlEventRecord f deferred addr)

end Sys2Proof.Machine
end

