-- ==== Sys2Proof/Machine/Slices.lean ====
section
/-! DEFINITION. Sys2Proof/Machine/Slices.lean: building, quiescing and removing slices (R512 to R525), page groom (R526 to R528),
residency and pre-emption by time (R534, R535), the switch bound (R538) and dirty logging (R548 to R550). What these
commands set going acts within the step, but for a Hobble, a page groom and a switch, which wait for the work they name; a START, a
RESET, a REMOVE and a groom show their end once time passes (DESIGN CHOICE, log 15). -/

namespace Sys2Proof.Machine

open Sys2Proof

/-! ## Frames and areas -/

/-- Frames zeroed in the tiers and in no cache: lines, bytes, poison and stored errors of every physical frame that satisfies `p`
(R526). -/
def zeroFrames (s : Dev) (p : Nat → Bool) : Dev :=
  let at_ (b : Nat) : Bool := p (paOf s b / 2 ^ 16)
  modMs s (fun m => { m with
    lines := m.lines.filter (fun l => !p (l.line / 128)), misses := m.misses.filter (fun x => !p (x.line / 128)),
    adders := m.adders.filter (fun a => !at_ (a.sector * 64)), tier := m.tier.filter (fun e => !at_ e.1),
    tierPoison := m.tierPoison.filter (fun x => !at_ (x * 64)), tierErr := m.tierErr.filter (fun e => !at_ (e.1 * 64)) })

/-- The address of a slice's context-table entry for a region (R516). -/
def ctxAt (s : Dev) (n r : Nat) : Nat := getF s (fSLC_CTXTAB_BASE n) * 256 + 8 * r

/-- A context-table entry of a slice (R516), as it stands in memory. -/
def ctxEntry (s : Dev) (n r : Nat) : Nat := (tableWord s none (ctxAt s n r)).2.toNat

/-- R285, R519: sequencer firmware reads a slice's context entries through the sequencer caches, on the hub of each region's half. -/
def readCtxTab (s : Dev) (n : Nat) : Dev :=
  (bitsOf 32 (getF s (fSLC_RGNS_REGIONS n))).foldl (fun s r => (tableWord s (seqEntry (r / 16) n) (ctxAt s n r)).1) s

/-- The base of a slice's context area for a region. -/
def ctxArea (s : Dev) (n r : Nat) : Nat := nField (ctxEntry s n r) 47 21 * 2 ^ 21

/-- The zone policy of an area. -/
def areaZone (s : Dev) (n r : Nat) : Option Nat := if isNear (ctxArea s n r) then zonePolicy s (ctxArea s n r) else none

/-- R516: the context entry of a region is valid and its 112 MiB lie where they may. -/
def ctxOk (s : Dev) (n r : Nat) : Bool :=
  let e := ctxEntry s n r
  let okAt (a : Nat) : Bool := isNear a && (match zonePolicy s a with
    | some 0 => nField a 39 37 == r / 4
    | some 1 => nField a 39 37 / 4 == r / 16
    | some 2 => true
    | _ => false)
  e.testBit 63 && nField e 62 48 == 0 && nField e 20 0 == 0 && okAt (ctxArea s n r) && okAt (ctxArea s n r + 112 * 2 ^ 20 - 1)
    && zonePolicy s (ctxArea s n r) == zonePolicy s (ctxArea s n r + 112 * 2 ^ 20 - 1)

/-- R520: the context area of a slice for a region is zeroed and what is saved there is gone. -/
def zeroArea (s : Dev) (n r : Nat) : Dev :=
  let a := ctxArea s n r / 2 ^ 16
  let s := { s with saved := s.saved.filter (fun x => !(x.slice == n && x.region == r)) }
  if (ctxEntry s n r).testBit 63 then zeroFrames s (fun f => decide (a ≤ f) && decide (f < a + 1792)) else s

/-! ## The switch bound (R538) -/

/-- Context bytes over the rate of an area, in units of 1/307,200,000 µs. -/
def ctxTime (s : Dev) (m r : Nat) : Nat :=
  let own := bitsOf 32 (getF s (fSLC_RGNS_REGIONS m))
  let t0 := 57520128 * 256
  match areaZone s m r with
  | some 1 => max t0 (57520128 * 25 * (own.filter (fun q => areaZone s m q == some 1 && q / 16 == r / 16)).length)
  | some 2 => max t0 (57520128 * 25 * (own.filter (fun q => areaZone s m q == some 2)).length)
  | _ => t0

/-- R538: switch_bound(n), in µs. -/
def switchBound (s : Dev) (n : Nat) : Nat :=
  let u := 307200000
  let worst := (bitsOf 32 (getF s (fSLC_RGNS_REGIONS n))).foldl (fun w r =>
    let out := (bitsOf 16 (getF s (fSLC_RGN_HOLDERS r))).foldl (fun w m => max w (ctxTime s m r)) 0
    max w (out + max (ctxTime s n r) (60 * u))) 0
  ceilDiv (54 * u + worst) u

/-- R538: firmware shows the bound of every slice that is not FREE. -/
def showBounds (s : Dev) : Dev :=
  (List.range 16).foldl (fun s n => setF s (fSLC_SWITCH_SWITCH_US n) (if getF s (fSLC_CTL_STATE n) = 0 then 0 else switchBound s n)) s

/-! ## START (R519) -/

/-- R517: a slice's state, and setting it. -/
def slState (s : Dev) (n : Nat) : Nat := getF s (fSLC_CTL_STATE n)

/-- R519: a START of a slice has been accepted, and STATE does not read RUNNING yet. -/
def starting (s : Dev) (n : Nat) : Bool := s.todo.contains (.run n)

/-- R518: a slice that is not FREE or STOPPED, or leaves these. -/
def slFixed (s : Dev) (n : Nat) : Bool := decide (2 ≤ slState s n) || starting s n

/-- The valid PASIDs of a slice. -/
def pasids (s : Dev) (n : Nat) : List Nat := ((List.range 8).filter (fun k => getF s (fSLC_PASID_VALID n k) == 1)).map (fun k => getF s (fSLC_PASID_PASID n k))

/-- R519: the first failing check of START. -/
def startCheck (s : Dev) (n : Nat) : Option Nat :=
  let regions := bitsOf 32 (getF s (fSLC_RGNS_REGIONS n))
  let held (r : Nat) : Nat := (bitsOf 16 (getF s (fSLC_RGN_HOLDERS r))).length
  let mine (r : Nat) : Bool := (getF s (fSLC_RGN_HOLDERS r)).testBit n
  if regions.any (fun r => !(getF s (fSLC_RGN_STATE r) == 0 || (getF s (fSLC_RGN_STATE r) == 1 && (mine r || decide (held r < 4))))) then some 0x02
  else if (bitsOf 16 (getF s (fSLC_CHAN_CHANNELS n))).any (fun c => getF s (fCH_STATUS_OWNED c) == 1 && getF s (fCH_STATUS_SLICE c) != n) then some 0x03
  else if (pasids s n).isEmpty || (pasids s n).any (fun p => (List.range 16).any (fun m => m != n && (slState s m != 0 || starting s m) && (pasids s m).contains p)) then some 0x04
  else if regions.any (fun r => !ctxOk s n r) then some 0x05
  else if getF s (fSLC_PTBASE_BASE n) = 0 then some 0x06
  else none

/-- R576, R577: a POWER_GATED region begins to wake. -/
def wakeRegion (s : Dev) (r : Nat) : Dev := if getF s (fPW_RGN_STATE r) = 2 then setF s (fPW_RGN_STATE r) 3 else s

/-- R524, R525: a channel has left its slice: ring state, cyclic table and counters at their reset values. -/
def groomChannel (s : Dev) (c : Nat) : Dev :=
  let base := 0x101000 + 0x10000 * c
  let cyc := offSLC_CYC_CFG c
  let s := { s with regs := s.regs.filter (fun e => !((decide (base ≤ e.1) && decide (e.1 < base + 0x2000)) || (decide (cyc ≤ e.1) && decide (e.1 < cyc + 0x1000)))) }
  let s := modCh s c (fun _ => { Channel.init with lastDone := s.now })
  let s := (List.range 32).foldl (fun s r => if (getRgn s r).window = some c then modRgn s r (fun g => { g with window := none }) else s) s
  let s := { s with obs := { s.obs with chCount := s.obs.chCount.filter (fun e => e.1 / 2 != c) } }
  setF (setReg s (offCH_STATUS c) 0) (fPW_RES_RES_W c) 0

/-- R519: a slice takes a channel; one it has just left is groomed first. -/
def takeChannel (s : Dev) (n c : Nat) : Dev :=
  let s := if s.todo.contains (.channel c) then groomChannel { s with todo := s.todo.filter (fun t => t != .channel c) } c else s
  setF (setF s (fCH_STATUS_OWNED c) 1) (fCH_STATUS_SLICE c) n

/-- R519: a slice takes its regions and channels. -/
def startSlice (s : Dev) (n : Nat) : Dev :=
  let s := (bitsOf 32 (getF s (fSLC_RGNS_REGIONS n))).foldl (fun s r =>
    let s := if getF s (fSLC_RGN_STATE r) = 0 then
      wakeRegion (modRgn (setF (setF s (fSLC_RGN_STATE r) 1) (fSLC_RGN_RESIDENT r) n) r (fun g => { g with entered := s.now })) r else s
    setF s (fSLC_RGN_HOLDERS r) (Nat.lor (getF s (fSLC_RGN_HOLDERS r)) (2 ^ n))) s
  let s := (bitsOf 16 (getF s (fSLC_CHAN_CHANNELS n))).foldl (fun s c => takeChannel s n c) s
  { s with todo := s.todo ++ [.run n] }

/-- R519, R523: a slice that has started runs; work saved where it is resident resumes. -/
def runSlice (s : Dev) (n : Nat) : Dev :=
  let s := setF s (fSLC_CTL_STATE n) 2
  let s := (residentRegions s n).foldl (fun s r => if (findCtx s n r 0).isSome then restoreCtx s n r 0 else s) s
  let idle := s.cmds.filter (fun c => c.tag == n && c.saved && !s.saved.any (fun x => (cmdsOf x.cores).contains c.key))
  let s := resumeCmds s (idle.map (fun c => c.key))
  (List.range 32).foldl idleSwitch (showBounds s)

/-! ## HOBBLE (R522) -/

/-- R522, R533: with SAVE, the slice's work in the regions where it is resident is saved to context 0, and a KERNEL with no block
placed counts as saved. -/
def hobbleSave (s : Dev) (n : Nat) : Dev :=
  let s := (residentRegions s n).foldl (fun s r => askSwitch s r { slice := n, ctx := 0, enter := none, since := s.now }) s
  let s := (residentRegions s n).foldl trySwitch s
  let idle := s.cmds.filter (fun c => c.tag == n && dOpcode c.desc == 1 && c.status.isNone && !c.saved
    && !s.cores.any (fun e => e.2.blocks.any (fun b => b.cmd == c.key)))
  idle.foldl (fun s c => modCmd s c.key (fun c => { c with saved := true, savedAt := s.now })) s

/-- R522 step 1: a running slice begins to Hobble. -/
def hobbleSlice (s : Dev) (n : Nat) : Dev :=
  let s := setF s (fSLC_CTL_STATE n) 3
  tryHobble (if getF s (fSLC_CTL_HMODE n) = 1 then hobbleSave s n else s) n

/-- R522 step 3: the bound of step 2 has passed: the commands that remain are force-aborted. -/
def doHobbleForceAbort (n : Nat) (s : Dev) : Dev :=
  if slState s n ≠ 3 then s
  else
    let s := ((s.cmds.filter (fun c => c.tag == n && !c.saved)).map (fun c => c.key)).foldl (fun s k => failCmd s k 0x05) s
    tryHobble ((residentRegions s n).foldl trySwitch s) n

/-! ## RESET and REMOVE (R520, R521, R524, R631) -/

/-- R520, R655: the commands whose state is saved in a slice's contexts of regions that satisfy `p` end with ABORTED. -/
def abortSaved (s : Dev) (n : Nat) (p : Nat → Bool) : Dev :=
  ((s.saved.filter (fun x => x.slice == n && p x.region)).flatMap (fun x => cmdsOf x.cores)).foldl (fun s k => failCmd s k 0x05) s

/-- R524: what RESET and REMOVE groom of a slice beyond its regions. -/
def groomSlice (s : Dev) (n : Nat) : Dev :=
  let s := abortSaved s n (fun _ => true)
  let s := ((s.cmds.filter (fun c => c.tag == n)).map (fun c => c.key)).foldl (fun s k => failCmd s k 0x05) s
  let s := rangeLines .inval 0 s (fun l => l.tag == n)
  let s := setReg (setReg (ordClear s n) (offCD_DEADRR n) 0) (offCD_SLICE_CFG n) 0
  let s := modMs s (fun m => { m with tlb := m.tlb.filter (fun t => t.1 != n), ordSent := m.ordSent.filter (fun q => q.slice != n) })
  let s := (List.range 32).foldl (fun s r => if (getF s (fSLC_RGN_HOLDERS r)).testBit n then zeroArea s n r else s) s
  let s := (residentRegions s n).foldl (fun s r =>
    setF (clearRegionResv ((regionCores r).foldl (fun s k => if (regionTab s r).any (fun e => e.1 == k) then modCore s k (fun c => { c with sb := [], l1 := [] }) else s) s) r) (fSLC_RGN_SAVED1 r) 0) s
  let s := (List.range 32).foldl (fun s r => if getF s (fSLC_RGN_HOLDERS r) = 2 ^ n then groomRegion s r else s) s
  let s := { s with dlog := s.dlog.filter (fun e => e.1 != n) }
  let s := setF (setF (setF s (fSLC_DLOG_CTL_EN_A n) 0) (fSLC_DLOG_CTL_EN_B n) 0) (fSLC_DLOG_CTL_EN_D n) 0
  [0, 1].foldl (fun s b => if getF s (fDL_BAY_CTL_SLICE b) = n then showRights (setF s (fDL_BAY_CTL_BIND b) 0) b else s) s

/-- R520, R525: a region leaves a slice: its saved work ends, its area is zeroed, and it is being groomed when no slice holds it; where the
slice was resident, the next holder enters. -/
def regionLeaves (s : Dev) (n r : Nat) : Dev :=
  if !(getF s (fSLC_RGN_HOLDERS r)).testBit n then s
  else
    let s := zeroArea (abortSaved s n (fun q => q == r)) n r
    let h := getF s (fSLC_RGN_HOLDERS r) - 2 ^ n
    let s := setF s (fSLC_RGN_HOLDERS r) h
    if h = 0 then { setReg (groomRegion s r) (offSLC_RGN r) (BitVec.ofNat 64 (2 * 2 ^ 62)) with todo := s.todo ++ [.region r] }
    else if getF s (fSLC_RGN_RESIDENT r) = n then
      match ((List.range 15).map (fun i => (n + 1 + i) % 16)).find? (fun b => h.testBit b) with
      | some b => modRgn (setF (restoreCtx s b r 0) (fSLC_RGN_RESIDENT r) b) r (fun g => { g with entered := s.now })
      | none => s
    else s

/-- R525: a channel leaves its slice: it is being groomed. -/
def channelLeaves (s : Dev) (c : Nat) : Dev := if s.todo.contains (.channel c) then s else { s with todo := s.todo ++ [.channel c] }

/-- R521: RESET of a STOPPED slice: STATE is GROOMING until it is over. -/
def resetSlice (s : Dev) (n : Nat) : Dev :=
  let s := setF (groomSlice s n) (fSLC_CTL_STATE n) 4
  showBounds { s with todo := s.todo ++ [.stop n] }

/-- R521: REMOVE of a STOPPED slice: STATE is GROOMING until it is over. -/
def removeSlice (s : Dev) (n : Nat) : Dev :=
  let s := groomSlice s n
  let s := (List.range 32).foldl (fun s r => regionLeaves s n r) s
  let s := (List.range 16).foldl (fun s c => if getF s (fCH_STATUS_OWNED c) = 1 ∧ getF s (fCH_STATUS_SLICE c) = n then channelLeaves s c else s) s
  let s := (List.range 8).foldl (fun s k => setF s (fSLC_PASID_VALID n k) 0) s
  let s := setReg (setReg s (offPW_E_JOB n) 0) (offPW_E_IDLE n) 0
  let s := { s with pw := { s.pw with eJob := tabSet (fun _ => 0) s.pw.eJob n 0, eIdle := tabSet (fun _ => 0) s.pw.eIdle n 0 } }
  let s := setF s (fSLC_CTL_STATE n) 4
  { s with todo := s.todo ++ [.free n] }

/-- R519, R521, R525: a task completes. A groom of a region that has been lost meanwhile shows nothing. -/
def endTask (s : Dev) : Task → Dev
  | .run n => runSlice s n
  | .stop n => if slState s n = 4 then setF s (fSLC_CTL_STATE n) 1 else s
  | .free n => showBounds (if slState s n = 4 then setF s (fSLC_CTL_STATE n) 0 else s)
  | .region r => if getF s (fSLC_RGN_STATE r) = 2 then setReg s (offSLC_RGN r) 0 else s
  | .channel c => groomChannel s c

/-- R675: with no command waiting, a nanosecond passes, and what was in progress completes in order (DESIGN CHOICE, logs 1 and 15). -/
def tick (s : Dev) : Dev := s.todo.foldl endTask (passTime { s with todo := [] })

/-! ## TLB_FLUSH (R514) -/

/-- R514: the slice's translations are dropped; the flush is in progress until every access translated through them is performed. -/
def flushTlb (s : Dev) (n : Nat) : Dev :=
  let s := modMs { s with nextKey := s.nextKey + 1 } (fun m =>
    { m with tlb := m.tlb.filter (fun t => t.1 != n), tlbWait := tabSet (fun _ => 0) m.tlbWait n s.nextKey })
  tryTlb (setF s (fSLC_CTL_BUSY_TLB n) 1) n

/-- R735: the slice's locked TDI leaves its trusted state. -/
def tdiLeaves (s : Dev) (n : Nat) : Dev :=
  if tdiLocked s n then { s with mg := { s.mg with tdi := tabSet (fun _ => 0) s.mg.tdi n 3 } } else s

/-- R517, R552: the effect of a write of SLC_n_CTL. -/
def slcCtlEff (port n : Nat) (data : Word) (s : Dev) : Dev :=
  let cmd := fld data 3 0
  let st := slState s n
  let refused := setF (setupError s port (offSLC_CTL n)) (fSLC_CTL_ERR n) 0x01
  let s1 := writeReg s (offSLC_CTL n) data
  -- R735: the TDI leaves first; R703: a slice being dumped takes none of these
  let s1 := if 2 ≤ cmd ∧ cmd ≤ 4 then tdiLeaves s1 n else s1
  let st := if (2 ≤ cmd ∧ cmd ≤ 4 ∧ dumping s n = true) ∨ starting s n = true then 7 else st
  match cmd with
  | 1 =>
    if st = 0 ∨ st = 1 then
      let s1 := readCtxTab s1 n
      match startCheck s1 n with
      | some e => setF s1 (fSLC_CTL_ERR n) e
      | none => startSlice s1 n
    else refused
  | 2 => if st = 2 then hobbleSlice s1 n else refused
  | 3 => if st = 1 then resetSlice s1 n else refused
  | 4 => if st = 1 then removeSlice s1 n else refused
  | 5 => if st = 1 ∨ st = 2 then flushTlb s1 n else refused
  | _ => s1

/-- R518, R520: the effect of a write of SLC_n_RGN. -/
def slcRgnEff (port n : Nat) (data : Word) (s : Dev) : Dev :=
  if slFixed s n then setupError s port (offSLC_RGNS n)
  else
    let old := bitsOf 32 (getF s (fSLC_RGNS_REGIONS n))
    let s := (old.filter (fun r => !data.getLsbD r)).foldl (fun s r => regionLeaves s n r) s
    showBounds (writeReg s (offSLC_RGNS n) data)

/-- R518, R524: the effect of a write of SLC_n_CHAN. -/
def slcChanEff (port n : Nat) (data : Word) (s : Dev) : Dev :=
  if slFixed s n then setupError s port (offSLC_CHAN n)
  else
    let gone := (bitsOf 16 (getF s (fSLC_CHAN_CHANNELS n))).filter (fun c => !data.getLsbD c && getF s (fCH_STATUS_OWNED c) == 1 && getF s (fCH_STATUS_SLICE c) == n)
    writeReg (gone.foldl channelLeaves s) (offSLC_CHAN n) data

/-- R518: the effect of a write of a register that is writable only while the slice is FREE or STOPPED. -/
def slcHeldEff (port n off : Nat) (data : Word) (s : Dev) : Dev :=
  if slFixed s n then setupError s port off else showBounds (writeReg s off data)

/-- R518: the effect of a write of SLC_n_CFG, whose PIN_KIB is fixed outside FREE and STOPPED. -/
def slcCfgEff (port n : Nat) (data : Word) (s : Dev) : Dev :=
  if (slFixed s n = true ∨ tdiLocked s n = true) ∧ fld data 44 32 ≠ getF s (fSLC_CFG_PIN_KIB n) then
    writeRegBy (setupError s port (offSLC_CFG n)) (offSLC_CFG n) data (fun f => f.lsb != 32)
  else writeReg s (offSLC_CFG n) data

/-! ## Page groom (R526 to R528, R564) -/

/-- R528: a frame that cannot be groomed. -/
def frameBad (s : Dev) (f : Nat) : Bool :=
  let pa := f * 2 ^ 16
  if isNear pa then
    (frameDies s f).any (fun d => !(getF s fMT_STATUS_STACK_OK).testBit (stackOf (d * 2 ^ 37 + pa % 2 ^ 37)))
  else if isFar pa then placeOf s pa != .tier || getF s (fMT_FAR_CAP_STATE (farPort pa)) != 1
  else true

/-- The depth and busy fields show the queue. -/
def showPg (s : Dev) : Dev := setF (setF s fSLC_PG_CMD_DEPTH s.pgq.length) fSLC_PG_CMD_BUSY (if s.pgq.isEmpty then 0 else 1)

/-- R526, R528, R564: the effect of a write of SLC_PG_CMD. -/
def pgCmdEff (port : Nat) (data : Word) (s : Dev) : Dev :=
  if data.getLsbD 0 = false then writeReg s offSLC_PG_CMD data
  else
    let f := getF s fSLC_PG_BASE_FRAME
    let n := fld data 47 32 + 1
    if 16 ≤ s.pgq.length then setF (setupError s port offSLC_PG_CMD) fSLC_PG_CMD_ERR 1
    else if (List.range n).any (fun i => frameBad s (f + i)) then setF (setupError s port offSLC_PG_CMD) fSLC_PG_CMD_ERR 2
    else
      let s := setF (writeReg s offSLC_PG_CMD data) fSLC_PG_CMD_ERR 0
      showPg { s with pgq := s.pgq ++ [(f, n)] }

/-- R526, R528, R310: the request at the front of the queue completes. -/
def doPageGroomDone (s : Dev) : Dev :=
  match s.pgq with
  | [] => s
  | (f, n) :: rest =>
    let inR (x : Nat) : Bool := decide (f ≤ x) && decide (x < f + n)
    let deadFrame := (List.range n).find? (fun i => frameBad s (f + i))
    let s := clearMap (zeroFrames { s with pgq := rest } inR) inR
    let s := showPg s
    match deadFrame with
    | none => s
    | some i =>
      let pa := (f + i) * 2 ^ 16
      let s := setF s fSLC_PG_CMD_ERR 3
      if isFar pa then destRecord s 0 { (tierUnit pa) with addr := some pa }
      else destRecord s 5 { (tierUnit (backingOf pa ((zonePolicy s pa).getD 0))) with addr := some pa }

/-! ## Time on a region -/

/-- R534: the residency quantum of a shared region's resident slice has expired while another holder waits. Quanta are paused
in a stopped module (R695). -/
def doQuantumExpiry (r : Nat) (s : Dev) : Dev :=
  if whoaStopped s then s
  else
    match residentOf s r with
    | none => s
    | some a =>
      if (getRgn s r).req.isSome || (getRgn s r).window.isSome then s
      else
        match nextHolder s a r with
        | none => s
        | some b =>
          let s := { s with now := max s.now ((getRgn s r).entered + 1000 * getF s (fSLC_CFG_QUANTUM_US a)) }
          trySwitch (askSwitch s r { slice := a, ctx := 0, enter := some b, since := s.now }) r

/-- R535: a command has not reached its safe points 100 µs after the request to stop. -/
def doPreemptGraceExpiry (key : Nat) (s : Dev) : Dev :=
  if whoaStopped s then s
  else
    match getCmd s key with
    | none => s
    | some c =>
      let late := s.cores.filter (fun e => (coreGroups e.2).any (fun g => g.cmd == key && !groupHalted g))
      match c.stopReq with
      | none => s
      | some t =>
        if late.isEmpty || c.status.isSome then s
        else
          let rs := (late.map (fun e => coreRegion e.1)).eraseDups
          let s := { s with now := max s.now (t + 100000) }
          rs.foldl pokeRegion (abortOrRequeue s key)

/-! ## Dirty logging (R548 to R550) -/

/-- The host address, port and PASID with which a staged word of a bitmap is written (R549): kind 0 A, 1 B, 2 frames. -/
def dlogTarget (s : Dev) (n kind : Nat) : Nat × Option Nat × Nat :=
  let base := if kind = 0 then getF s (fSLC_DLOG_A_BASE n) else if kind = 1 then getF s (fSLC_DLOG_B_BASE n) else getF s (fSLC_DLOG_D_BASE n)
  (getF s (fSLC_DLOG_CTL_DPORT n), some (getF s (fSLC_PASID_PASID n (getF s (fSLC_DLOG_CTL_PASX n)))), base * 4096)

/-- R550: one staged word of a bitmap is written to host memory. -/
def dlogWord (s : Dev) (n kind word : Nat) : Dev :=
  let mine := s.dlog.filter (fun e => e.1 == n && e.2.1 == kind && e.2.2 / 64 == word)
  match mine with
  | [] => s
  | _ =>
    let (p, pas, base) := dlogTarget s n kind
    if !portUp s p then s
    else
      let bits := mine.foldl (fun a e => Nat.lor a (2 ^ (e.2.2 % 64))) 0
      emit { s with dlog := s.dlog.filter (fun e => !(e.1 == n && e.2.1 == kind && e.2.2 / 64 == word)) } (.hostOr p pas (base + 8 * word) (BitVec.ofNat 64 bits))

/-- R549, R550, R560: the effect of a write of SLC_n_DLOG_CTL: an EN bit set while the port's AtomicOp requester is off is ignored
and logged; SYNC writes every staged bit. -/
def dlogCtlEff (port n : Nat) (data : Word) (s : Dev) : Dev :=
  let off := offSLC_DLOG_CTL n
  let p := if data.getLsbD 6 then 1 else 0
  let bad := (data.getLsbD 0 || data.getLsbD 1 || data.getLsbD 2) && !(getPort s p).atomicEn
  let s := if bad then setupError s port off else s
  let s := writeRegBy s off data (fun f => !(bad && decide (f.lsb < 3)))
  if data.getLsbD 4 then
    let words := ((s.dlog.filter (fun e => e.1 == n)).map (fun e => (e.2.1, e.2.2 / 64))).eraseDups
    let s := words.foldl (fun s w => dlogWord s n w.1 w.2) s
    setF s (fSLC_DLOG_CTL_BUSY n) (if s.dlog.any (fun e => e.1 == n) then 1 else 0)
  else s

/-- R550: a staged word is written within 20 µs; a SYNC in progress completes with the last of them. -/
def doDlogStageWrite (n kind word : Nat) (s : Dev) : Dev :=
  let s := dlogWord s n kind word
  if s.dlog.any (fun e => e.1 == n) then s else setF s (fSLC_DLOG_CTL_BUSY n) 0

/-! ## The commands -/

/-- A SLC_n_CTL word. -/
def slcWord (cmd cache : Nat) (hmode : Bool) : Word := BitVec.ofNat 64 (cmd + 512 * hmode.toNat + 1024 * cache)

/-- START (R519). -/
def execStart (port : Fin 2) (slice : Fin 16) (s : State) : Out' :=
  updM s (setupWr port (offSLC_CTL slice) (slcWord 1 0 false) (slcCtlEff port slice (slcWord 1 0 false)))
/-- HOBBLE (R522). -/
def execHobble (port : Fin 2) (slice : Fin 16) (cache : Fin 4) (save : Bool) (s : State) : Out' :=
  updM s (setupWr port (offSLC_CTL slice) (slcWord 2 cache save) (slcCtlEff port slice (slcWord 2 cache save)))
/-- HOBBLE_FORCE_ABORT (R522). -/
def execHobbleForceAbort (slice : Fin 16) (s : State) : Out' := updM s (doHobbleForceAbort slice)
/-- SLICE_RESET (R521). -/
def execSliceReset (port : Fin 2) (slice : Fin 16) (s : State) : Out' :=
  updM s (setupWr port (offSLC_CTL slice) (slcWord 3 0 false) (slcCtlEff port slice (slcWord 3 0 false)))
/-- REMOVE (R521). -/
def execRemove (port : Fin 2) (slice : Fin 16) (s : State) : Out' :=
  updM s (setupWr port (offSLC_CTL slice) (slcWord 4 0 false) (slcCtlEff port slice (slcWord 4 0 false)))
/-- TLB_FLUSH (R514). -/
def execTlbFlush (port : Fin 2) (slice : Fin 16) (s : State) : Out' :=
  updM s (setupWr port (offSLC_CTL slice) (slcWord 5 0 false) (slcCtlEff port slice (slcWord 5 0 false)))
/-- REGION_LEAVE (R520): SLC_n_RGN is written with the regions that stay. -/
def execRegionLeave (port : Fin 2) (slice : Fin 16) (regions : BitVec 32) (s : State) : Out' :=
  updM s (setupWr port (offSLC_RGNS slice) (BitVec.ofNat 64 regions.toNat) (slcRgnEff port slice (BitVec.ofNat 64 regions.toNat)))
/-- PAGE_GROOM (R526): frames minus one. -/
def execPageGroom (port : Fin 2) (nfm1 : BitVec 16) (s : State) : Out' :=
  upd s (setupWr port offSLC_PG_CMD (BitVec.ofNat 64 (nfm1.toNat * 2 ^ 32 + 1)) (pgCmdEff port (BitVec.ofNat 64 (nfm1.toNat * 2 ^ 32 + 1))))
/-- PAGE_GROOM_DONE (R526). -/
def execPageGroomDone (s : State) : Out' := updM s doPageGroomDone
/-- QUANTUM_EXPIRY (R534). -/
def execQuantumExpiry (region : Fin 32) (s : State) : Out' := updM s (doQuantumExpiry region)
/-- PREEMPT_GRACE_EXPIRY (R535). -/
def execPreemptGraceExpiry (key : Nat) (s : State) : Out' := updM s (doPreemptGraceExpiry key)
/-- DLOG_SYNC (R550): the written word with SYNC set. -/
def execDlogSync (port : Fin 2) (slice : Fin 16) (data : Word) (s : State) : Out' :=
  upd s (setupWr port (offSLC_DLOG_CTL slice) (data ||| 16) (dlogCtlEff port slice (data ||| 16)))
/-- DLOG_STAGE_WRITE (R550): bitmap 0 A, 1 B, 2 frames, and the word's number. -/
def execDlogStageWrite (slice : Fin 16) (map : Fin 3) (word : Nat) (s : State) : Out' := upd s (doDlogStageWrite slice map word)

end Sys2Proof.Machine
end

