-- ==== Sys2Proof/Machine/Kernel.lean ====
section
/-! DEFINITION. Sys2Proof/Machine/Kernel.lean: KERNEL commands (R480 to R482), the placing of blocks on cores (R144 to R151, R530,
R531), pre-emption within a slice (R539, R545) and MODEL_SWITCH (R540 to R542). -/

namespace Sys2Proof.Machine

open Sys2Proof

/-! ## KERNEL body fields (R480) -/

def kCODE (d : Block64) : Nat := fld d 191 128
def kARGS (d : Block64) : Nat := fld d 255 192
/-- Groups of a block, vector registers per thread, local memory in KiB, WDEXP. -/
def kG (d : Block64) : Nat := fld d 355 352 + 1
def kA (d : Block64) : Nat := 8 * (fld d 360 356 + 1)
def kLKB (d : Block64) : Nat := fld d 369 361
def kWDEXP (d : Block64) : Nat := fld d 375 371

/-- R151: blocks that an empty core holds. -/
def blocksPerCore (g a l : Nat) : Nat :=
  let b := min 8 (min (16 / g) (2048 / a / g))
  if 0 < l then min b (256 / l) else b

/-- The regions in which a KERNEL may run (R480). -/
def allowedRegions (s : Dev) (c : Cmd) : List Nat := (List.range 32).filter (kAllows s c)

/-- R481, R621: a KERNEL whose descriptor is invalid. -/
def kernelBad (s : Dev) (c : Cmd) : Bool :=
  let d := c.desc
  let b := blocksPerCore (kG d) (kA d) (kLKB d)
  let regions := allowedRegions s c
  kCODE d % 8 != 0 || decide (2 ^ 48 ≤ kCODE d) || kARGS d % 8 != 0 || decide (2 ^ 48 ≤ kARGS d) || kNblk d == 0
    || decide (256 < kLKB d) || (decide (1 ≤ kWDEXP d) && decide (kWDEXP d ≤ 15))
    || (if 0x10 ≤ c.tag then kMask d != 0 else Nat.land (kMask d) (getF s (fSLC_RGNS_REGIONS c.tag)) != kMask d)
    || b == 0 || regions.isEmpty || (kCoop d && decide (24 * b * regions.length < kNblk d))

/-! ## Cyclic windows (R543 to R547) -/

/-- The used entries of a channel's cyclic table: those before the first UNUSED one (R544). -/
def cycUsed (s : Dev) (c : Nat) : List Nat := (List.range 256).takeWhile (fun e => getF s (fSLC_CYC_E_KIND c e) != 0)

/-- Whether an entry names a submission ring. -/
def entryNames (s : Dev) (c e n : Nat) : Bool :=
  let r0 := getF s (fSLC_CYC_E_RING0 c e)
  decide (r0 ≤ n) && decide (n ≤ r0 + getF s (fSLC_CYC_E_RCNTM1 c e))

/-- R545: a window ring of a channel whose schedule runs. -/
def windowRing (s : Dev) (c n : Nat) : Bool :=
  getF s (fSLC_CYC_CFG_EN c) == 1 && (cycUsed s c).any (fun e => entryNames s c e n)

/-- The open window of a channel that names a ring. -/
def windowFor (s : Dev) (c n : Nat) : Option Nat :=
  match (getCh s c).cyc.opened with
  | some e => if entryNames s c e n then some e else none
  | none => none

/-- The kind of the window in which a command was dispatched (0 none). -/
def cmdWindowKind (s : Dev) (c : Cmd) : Nat :=
  match c.window with
  | some e => getF s (fSLC_CYC_E_KIND c.chan e)
  | none => 0

/-! ## Placing blocks -/

/-- PRIO of a command's ring. -/
def cmdPrio (s : Dev) (c : Cmd) : Nat := getF s (fCH_SQ_CFG_PRIO c.chan c.ring)

/-- R540: a MODEL_SWITCH of a slice holds a region. -/
def switchHolds (s : Dev) (tag r : Nat) : Bool :=
  s.cmds.any (fun c => c.tag == tag && dOpcode c.desc == 0x0C && c.status.isNone && (msSelects s c.tag c.desc).contains r)

/-- R539, R540, R545: commands of a command's slice and ring may be dispatched to a region now: no switch is asked of it, its floor
and window allow the command, and no MODEL_SWITCH holds it. -/
def regionOpen (s : Dev) (tag chan prio : Nat) (window : Option Nat) (r : Nat) : Bool :=
  let g := getRgn s r
  g.req.isNone && decide (g.floor.getD 0 ≤ prio) && (match g.window with
    | none => true
    | some w => w == chan && window.isSome) && !switchHolds s tag r

/-- R530, R583: a region takes blocks of a command: the slice is resident there (or it is the channel's Halter region) and the region
is powered. -/
def regionTakes (s : Dev) (c : Cmd) (r : Nat) : Bool :=
  kAllows s c r && (if 0x10 ≤ c.tag then getF s (fSLC_RGN_STATE r) != 3 else residentOf s r == some c.tag)
    && decide (getF s (fPW_RGN_STATE r) < 2) && regionOpen s c.tag c.chan (cmdPrio s c) c.window r

/-- The lowest KiB at which a core has room for a block's local memory (R146; the place is the model's choice, log 16). -/
def lmHole (x : Core) (l : Nat) : Option Nat :=
  if l = 0 then some 0
  else (List.range (257 - l)).find? (fun b => x.blocks.all (fun k => k.lmKiB == 0 || decide (b + l ≤ k.lmBase) || decide (k.lmBase + k.lmKiB ≤ b)))

/-- The free group slots of a core. -/
def freeSlots (x : Core) : List Nat := (List.range 16).filter (fun i => (tabGet (fun _ => none) x.groups i).isNone)

/-- R146: a block of a command fits on a core. -/
def coreFits (x : Core) (key : Nat) (d : Block64) : Bool :=
  decide (kG d ≤ (freeSlots x).length) && decide (x.blocks.length < 8)
    && decide ((x.blocks.map (fun b => b.groups * b.nv)).sum + kG d * kA d ≤ 2048)
    && decide ((key :: x.blocks.map (fun b => b.cmd)).eraseDups.length ≤ 4) && (lmHole x (kLKB d)).isSome

/-- R530: the lowest-numbered core that takes a block of a command. -/
def findCore (s : Dev) (c : Cmd) : Option Nat :=
  (List.range 32).findSome? (fun r => if regionTakes s c r then (regionCores r).find? (fun k => coreFits (getCore s k) c.key c.desc) else none)

/-- R149: a group as it starts. -/
def newGroup (c : Cmd) (block gidx : Nat) : Group :=
  let z : Tab Word := []
  let sr := tabSet (fun _ => 0) (tabSet (fun _ => 0) (tabSet (fun _ => 0) z 0 (BitVec.ofNat 64 (kARGS c.desc))) 1 (BitVec.ofNat 64 block)) 2 (BitVec.ofNat 64 gidx)
  { cmd := c.key, block := block, gidx := gidx, nv := kA c.desc, pc := BitVec.ofNat 64 (kCODE c.desc), live := BitVec.allOnes 32, act := BitVec.allOnes 32,
    v := [], vp := [], sr := sr, sp := [], p := [], pp := [], tok := [], stack := [], pend := none, arr := 0, hold := .run, busyV := [], busyS := [], lost := [], stored := 0 }

/-- R145, R149, R167: place the next block of a command on a core; the first group that the command ever starts there flash-invalidates the L1.
The groups take the lowest free slots (log 16). -/
def placeOn (s : Dev) (c : Cmd) (core : Nat) : Dev :=
  let x := getCore s core
  let slots := (freeSlots x).take (kG c.desc)
  let blk : Block := { cmd := c.key, index := c.nextBlock, groups := kG c.desc, nv := kA c.desc, lmKiB := kLKB c.desc, lmBase := (lmHole x (kLKB c.desc)).getD 0, slots := slots }
  let gs := (slots.zip (List.range slots.length)).foldl (fun t p => tabSet (fun _ => none) t p.1 (some (newGroup c c.nextBlock p.2))) x.groups
  let s := setCore s core { x with groups := gs, blocks := x.blocks ++ [blk] }
  let s := if c.cores.contains core then s else l1Flash s core
  modCmd { s with lastPlaced := tabSet (fun _ => 0) s.lastPlaced c.tag c.chan } c.key (fun c => { c with nextBlock := c.nextBlock + 1, cores := insSorted core c.cores })

/-- Place the next block of a command, where a core takes it. -/
def placeBlock (s : Dev) (key : Nat) : Option Dev :=
  match getCmd s key with
  | none => none
  | some c =>
    if c.status.isSome ∨ kNblk c.desc ≤ c.nextBlock then none
    else (findCore s c).map (fun k => placeOn s c k)

/-- R482: place every block of a cooperative command at once (fuel: blocks). -/
def placeWhole : Nat → Dev → Nat → Option Dev
  | 0, s, _ => some s
  | n + 1, s, key =>
    match placeBlock s key with
    | some s => placeWhole n s key
    | none => none

/-- R522: a slice places blocks while it runs, and while it Hobbles by letting its commands end. -/
def slicePlaces (s : Dev) (c : Cmd) : Bool :=
  decide (0x10 ≤ c.tag) || slState s c.tag == 2 || (slState s c.tag == 3 && !c.saved)

/-- R531: where a command stands among those ready for cores: windows, PRIO, channels in rotation. -/
def placeOrder (s : Dev) (c : Cmd) : Nat :=
  let last := tabGet (fun _ => 0) s.lastPlaced c.tag
  (if c.window.isSome then 0 else 8 * 16) + (7 - cmdPrio s c) * 16 + (c.chan + 15 - last) % 16

/-- The element of a list that comes first by a rank. -/
def firstBy {α : Type} (rank : α → Nat) (l : List α) : Option α :=
  l.foldl (fun a x => match a with
    | none => some x
    | some y => if rank x < rank y then some x else some y) none

/-- The KERNELs of a tag that wait for cores and that some core takes. -/
def readyKernels (s : Dev) (tag : Nat) : List Cmd :=
  s.cmds.filter (fun c => c.tag == tag && dOpcode c.desc == 1 && c.phase == .running && c.status.isNone && !kCoop c.desc
    && decide (c.nextBlock < kNblk c.desc) && slicePlaces s c && (findCore s c).isSome)

/-- R530, R531: place one block of a tag's KERNELs. -/
def placeNext (s : Dev) (tag : Nat) : Option Dev :=
  match firstBy (placeOrder s) (readyKernels s tag) with
  | some c => placeBlock s c.key
  | none => none

/-- Place blocks of a tag's KERNELs while any fits (fuel: block slots of the device). -/
def placeAll : Nat → Dev → Nat → Dev
  | 0, s, _ => s
  | n + 1, s, tag =>
    match placeNext s tag with
    | some s => placeAll n s tag
    | none => s

/-! ## Pre-emption (R539, R545) -/

/-- R539, R545: a command that no core takes pre-empts the slice's other work in each region that may run it and whose context 1 is
free; a PREEMPTIVE window's command does so whatever PRE_EN holds, and switches other holders out at once. -/
def preemptFor (s : Dev) (c : Cmd) : Dev :=
  let win := cmdWindowKind s c == 2
  if 0x10 ≤ c.tag then s
  else if !(win || (getF s (fSLC_CFG_PRE_EN c.tag) == 1 && decide (getF s (fSLC_CFG_PRE_PRIO c.tag) ≤ cmdPrio s c))) then s
  else
    (allowedRegions s c).foldl (fun s r =>
      if (getRgn s r).req.isSome || (getRgn s r).window.isSome then s
      else
        match residentOf s r with
        | none => s
        | some a =>
          if a = c.tag then
            if (findCtx s a r 1).isSome || (regionTab s r).all (fun e => e.2.blocks.all (fun b => b.cmd == c.key)) then s
            else
              let s := askSwitch s r { slice := a, ctx := 1, enter := none, since := s.now }
              trySwitch (modRgn s r (fun g => { g with floor := some (cmdPrio s c) })) r
          else if win then trySwitch (askSwitch s r { slice := a, ctx := 0, enter := some c.tag, since := s.now }) r
          else s) s

/-- R482: whether a cooperative command can be placed whole. -/
def coopFits (s : Dev) (c : Cmd) : Bool := (placeWhole (kNblk c.desc) s c.key).isSome

/-- R480 to R482, R530: a KERNEL is checked and its blocks are placed, as far as cores take them; one that no core takes may
pre-empt. -/
def doKernel (key : Nat) (s : Dev) : Dev :=
  if whoaStopped s then s
  else
    match getCmd s key with
    | none => s
    | some c =>
      if dOpcode c.desc ≠ 1 ∨ c.phase ≠ .dispatched ∨ c.status.isSome ∨ frozenSlice s c.tag = true then s
      else if kernelBad s c then failCmd s key 0x10
      else if kCoop c.desc then
        match placeWhole (kNblk c.desc) s key with
        | some s => modCmd s key (fun c => { c with phase := .running })
        | none => preemptFor s c
      else
        let s := placeAll 6144 (modCmd s key (fun c => { c with phase := .running })) c.tag
        match getCmd s key with
        | some c => if c.nextBlock = 0 then preemptFor s c else s
        | none => s

/-- The tag of an owner of cores: a slice, 16 the Halter channel CH0, 17 CH8; the Halter tags carry the ring's port too. -/
def ownerTags (owner : Nat) : List Nat := if owner < 16 then [owner] else if owner = 16 then [0x20, 0x21] else [0x22, 0x23]

/-- R530, R531: one waiting block of an owner's KERNELs is placed where a core has room. -/
def doBlockPlacement (owner : Nat) (s : Dev) : Dev :=
  if whoaStopped s then s
  else if (ownerTags owner).any (frozenSlice s) then s
  else
    match (ownerTags owner).findSome? (placeNext s) with
    | some s => s
    | none => s

/-! ## MODEL_SWITCH (R540 to R542) -/

def msNOSAVE (d : Block64) : Bool := bit d 96
def msOUT (d : Block64) : Nat := fld d 191 128
def msIN (d : Block64) : Nat := fld d 255 192

/-- R540: the slice is resident in a region, and none of its commands runs or is saved there. -/
def regionIdle (s : Dev) (tag r : Nat) : Bool :=
  residentOf s r == some tag && (regionTab s r).all (fun e => e.2.blocks.isEmpty) && (regionDma s tag r).isEmpty
    && !s.saved.any (fun x => x.slice == tag && x.region == r && !(cmdsOf x.cores).isEmpty)

/-- R486: a MODEL_SWITCH whose areas are misaligned or that names a region the slice does not own. -/
def msBad (s : Dev) (c : Cmd) : Bool :=
  msOUT c.desc % 4096 != 0 || msIN c.desc % 4096 != 0 || Nat.land (msMask c.desc) (getF s (fSLC_RGNS_REGIONS c.tag)) != msMask c.desc

/-- R541: the size of a model record, in bytes. -/
def recSize (pin : Nat) : Nat := ceilDiv (0x121000 + pin) 65536 * 65536

/-- R541: the sixteen bytes of a tile's state. The manual orders PATH, SCL, POISON, SA and SB without giving their places: one byte
each for the first three, then, from byte 8, SA and SB (DESIGN CHOICE, log 17). -/
def tileState (t : Tile) : Nat :=
  let sc := t.scl.getD (0, 0)
  t.int.toNat + 2 ^ 8 * t.scl.isSome.toNat + 2 ^ 16 * t.poison.toNat + 2 ^ 64 * sc.1.toNat + 2 ^ 96 * sc.2.toNat

/-- A tile's words as a number: word 128 * row + column at four times that byte (log 17). -/
def tileNat (t : Tile) : Nat := t.words.foldl (fun a e => a + e.2.toNat * 2 ^ (32 * e.1)) 0

/-- The tile of a state and words. -/
def tileOf (st w : Nat) (poison : Bool) : Tile :=
  { words := (List.range 16384).foldl (fun t i => tabSet (fun _ => 0) t i (BitVec.ofNat 32 (w / 2 ^ (32 * i)))) [], int := st.testBit 0,
    scl := if st.testBit 8 then some (BitVec.ofNat 32 (st / 2 ^ 64), BitVec.ofNat 32 (st / 2 ^ 96)) else none, poison := st.testBit 16 || poison }

/-- What writing or loading records gives. -/
structure MsRes where
  dev : Dev
  err : Option (Nat × Nat)
  lost : Bool
  poison : Bool

/-- Write bytes of a record; `x` is the entry point of the region's engine. -/
def msPut (x : Option Nat) (tag key : Nat) (a : MsRes) (p : Nat × List (Byte × Bool)) : MsRes :=
  if a.err.isSome then a
  else
    let (s, w) := writeBytesVa a.dev x tag key p.1 p.2
    { a with dev := s, err := if w.err.isSome then some (w.err.getD 0x02, w.bad) else none, lost := a.lost || w.lost }

/-- Bytes with no poison. -/
def cleanBytes (n v : Nat) : List (Byte × Bool) := (leBytes n v).map (fun b => (b, false))

/-- R541: the pieces of a cluster's model record at an address. -/
def recPieces (s : Dev) (cl pin area : Nat) : List (Nat × List (Byte × Bool)) :=
  let k := getCl s cl
  let tile (i : Nat) : Tile := tabGet (fun _ => Tile.init) (getCore s (4 * cl + i / 4)).tiles (i % 4)
  let head := k.actB.toNat + 2 * k.ctxA.valid.toNat + 4 * k.ctxB.valid.toNat + 2 ^ 16 * (pin / 1024)
  [(area, cleanBytes 64 head), (area + 0x40, cleanBytes 256 ((List.range 16).foldl (fun a i => a + tileState (tile i) * 2 ^ (128 * i)) 0)),
   (area + 0x1000, cleanBytes 65536 k.ctxA.image), (area + 0x11000, cleanBytes 65536 k.ctxB.image)]
    ++ (List.range 16).map (fun i => (area + 0x21000 + i * 65536, cleanBytes 65536 (tileNat (tile i))))
    ++ [(area + 0x121000, (List.range pin).map (fun i => (tabGet (fun _ => 0) s.ms.spad (cl * 0x800000 + i), s.ms.spadPoison.contains ((cl * 0x800000 + i) / 64))))]

/-- Read bytes of a record. -/
def msGet (x : Option Nat) (tag : Nat) (a : MsRes) (va n : Nat) : MsRes × List (Byte × Bool) :=
  if a.err.isSome then (a, [])
  else
    let (s, r) := readBytesVa a.dev x tag va n
    ({ a with dev := s, err := if r.err.isSome then some (r.err.getD 0x02, r.bad) else none, poison := a.poison || anyPoison r.bytes }, r.bytes)

/-- R540 to R542: load a cluster's model record. -/
def msLoad (tag cl pin area : Nat) (a : MsRes) : MsRes :=
  let e := some (cl / 6)
  let (a, h) := msGet e tag a area 64
  if a.err.isSome then a
  else if nField (accNat h) 31 16 ≠ pin / 1024 then { a with err := some (0x10, area) }
  else
    let head := accNat h
    let (a, st) := msGet e tag a (area + 0x40) 256
    let (a, c0) := msGet e tag a (area + 0x1000) 65536
    let (a, c1) := msGet e tag a (area + 0x11000) 65536
    let (a, ts) := (List.range 16).foldl (fun (x : MsRes × List (List (Byte × Bool))) i =>
      let (a, b) := msGet e tag x.1 (area + 0x21000 + i * 65536) 65536
      (a, x.2 ++ [b])) (a, [])
    let (a, sp) := msGet e tag a (area + 0x121000) pin
    if a.err.isSome then a
    else
      let want0 := head.testBit 1
      let want1 := head.testBit 2
      let ok0 := imageOk (accNat c0)
      let ok1 := imageOk (accNat c1)
      let s := modCl a.dev cl (fun k => { k with actB := head.testBit 0, ctxA := { image := accNat c0, valid := want0 && ok0 }, ctxB := { image := accNat c1, valid := want1 && ok1 } })
      let s := (List.range 16).foldl (fun s i =>
        let b := ts.getD i []
        modCore s (4 * cl + i / 4) (fun x => { x with tiles := tabSet (fun _ => Tile.init) x.tiles (i % 4) (tileOf (nField (accNat st) (128 * i + 127) (128 * i)) (accNat b) (anyPoison b)) })) s
      let s := spadWriteRun s cl 0 pin (accNat sp) (fun g => (List.range 64).any (fun i => (sp.getD (g + i) (0, false)).2))
      { a with dev := s, err := if (want0 && !ok0) || (want1 && !ok1) then some (0x0A, area) else none }

/-- R540: one cluster of a MODEL_SWITCH: save unless NOSAVE, then load. -/
def msCluster (c : Cmd) (pin : Nat) (a : MsRes) (p : Nat × Nat) : MsRes :=
  if a.err.isSome then a
  else
    let off := p.2 * recSize pin
    let a := if msNOSAVE c.desc then a else (recPieces a.dev p.1 pin (msOUT c.desc + off)).foldl (msPut (some (p.1 / 6)) c.tag c.key) a
    if a.err.isSome then a else msLoad c.tag p.1 pin (msIN c.desc + off) a

/-- R486, R540 to R542: a dispatched MODEL_SWITCH runs. -/
def doModelSwitch (key : Nat) (s : Dev) : Dev :=
  if whoaStopped s then s
  else
    match getCmd s key with
    | none => s
    | some c =>
      if dOpcode c.desc ≠ 0x0C ∨ c.phase ≠ .dispatched ∨ c.status.isSome ∨ frozenSlice s c.tag = true then s
      else if msBad s c then failCmd s key 0x10
      else if !(msSelects s c.tag c.desc).all (regionIdle s c.tag) then s
      else
        let pin := getF s (fSLC_CFG_PIN_KIB c.tag) * 1024
        let cls := (msSelects s c.tag c.desc).flatMap regionClusters
        let r := (cls.zip (List.range cls.length)).foldl (msCluster c pin) { dev := s, err := none, lost := false, poison := false }
        let s := launchFor 0x200 key (if r.poison then markPoison r.dev key else r.dev)
        let s := if r.lost then loseWrite s key 0x08 else s
        match r.err with
        | some (st, va) => endCmd s key st (some { cmdErr c with addr := some (failAddr s c.tag va).1, virt := (failAddr s c.tag va).2 })
        | none => finishCmd s key

/-! ## The commands -/

/-- KERNEL (R480). -/
def execKernel (key : Nat) (s : State) : Out' := upd s (doKernel key)
/-- BLOCK_PLACEMENT (R530): for a slice, or 16 and 17 for the Halter channels. -/
def execBlockPlacement (owner : Fin 18) (s : State) : Out' := upd s (doBlockPlacement owner)
/-- MODEL_SWITCH (R540). -/
def execModelSwitch (key : Nat) (s : State) : Out' := updM s (doModelSwitch key)

end Sys2Proof.Machine
end

