-- ==== Sys2Proof/Machine/Channels.lean ====
section
/-! DEFINITION. Sys2Proof/Machine/Channels.lean: command channels (R461 to R511, R621, R804): enabling and disabling rings, doorbells,
fetching and dispatching descriptors, timeouts, interrupt moderation and channel reset. -/

namespace Sys2Proof.Machine

open Sys2Proof

/-! ## Owners -/

/-- R621, R622: a channel serves its half's Halter region. -/
def halterChan (s : Dev) (c : Nat) : Bool :=
  (stage s == 1 || (stage s == 3 && getF s fSU_STATUS_CAUSE == 2)) && ((c == 0 && getF s fSU_STATUS_HALTER_N == 1) || (c == 8 && getF s fSU_STATUS_HALTER_O == 1))

/-- The tag of the commands of a ring: its channel's owner (R461), or the manager's Halter tag (R275, R621). -/
def ringTag (s : Dev) (c n : Nat) : Option Nat :=
  if halterChan s c then some (0x20 + 2 * chanHub c + portOf (getF s (fCH_SQ_CFG_PORT c n)))
  else if getF s (fCH_STATUS_OWNED c) = 1 then some (chanSlice s c)
  else none

/-- R502, R522, R659, R693, R700: a ring's channel fetches and dispatches. -/
def chanLive (s : Dev) (c n : Nat) : Bool :=
  getF s (fCH_CFG_ENABLE c) == 1 && getF s (fCH_RESET_BUSY c) == 0 && !whoaStopped s && !s.flt.stopped
    && (match ringTag s c n with
      | some t => decide (0x10 ≤ t) || (slState s t == 2 && !frozenSlice s t)
      | none => false)

/-- The PASID of a ring's accesses; those of a Halter channel carry none (R463, R621). -/
def ringPasid (s : Dev) (c n : Nat) : Option Nat := if halterChan s c then none else some (getF s (fCH_SQ_CFG_PASID c n))

/-! ## Enabling and disabling rings (R462, R506, R510, R804) -/

/-- R462: a PASID a ring of a channel may carry. -/
def pasidOk (s : Dev) (c p : Nat) : Bool :=
  halterChan s c || (getF s (fCH_STATUS_OWNED c) == 1 && (pasids s (chanSlice s c)).contains p)

/-- R463: a ring size. -/
def sizeOk (l : Nat) : Bool := decide (6 ≤ l) && decide (l ≤ 16)

/-- R804: whether a write would change fields of a ring's word other than ENABLE, bit 0. -/
def othersChange (s : Dev) (off : Nat) (data : Word) : Bool :=
  reg (writeReg s off data) off / 2 != reg s off / 2

/-- R506, R804: the effect of a write of CH_SQn_CFG. -/
def sqCfgEff (port c n : Nat) (data : Word) (s : Dev) : Dev :=
  let off := offCH_SQ_CFG c n
  let en := data.getLsbD 0
  if getF s (fCH_SQ_CFG_ENABLE c n) = 1 then
    let s := if othersChange s off data then setupError s port off else s
    if en then s
    else
      let s := modCh s c (fun ch => { ch with reads := ch.reads.filter (fun r => r.ring != n) })
      setF (setF (setF s (fCH_SQ_CFG_ENABLE c n) 0) (fCH_SQ_STATE_STATE c n) 0) (fCH_SQ_STATE_CAUSE c n) 0
  else
    let s1 := writeReg s off data
    let cq := getF s1 (fCH_SQ_CFG_CQ c n)
    if !en then s1
    else if sizeOk (getF s1 (fCH_SQ_CFG_LOG2SZ c n)) && (getF s1 (fCH_SQ_CFG_PORT c n) == 1 || getF s1 (fCH_SQ_CFG_PORT c n) == 2)
        && getF s1 (fCH_CQ_STATE_STATE c cq) == 1 && pasidOk s1 c (getF s1 (fCH_SQ_CFG_PASID c n)) then
      setSqr (setF (setF s1 (fCH_SQ_STATE_STATE c n) 1) (fCH_SQ_STATE_CAUSE c n) 0) c n { failed := false, aborting := false }
    else setupError (setF s1 (fCH_SQ_CFG_ENABLE c n) 0) port off

/-- R510: an enabled submission ring of the channel names a completion ring. -/
def cqNamed (s : Dev) (c n : Nat) : Bool :=
  (List.range 64).any (fun m => getF s (fCH_SQ_CFG_ENABLE c m) == 1 && getF s (fCH_SQ_CFG_CQ c m) == n)

/-- R510, R804: the effect of a write of CH_CQn_CFG. -/
def cqCfgEff (port c n : Nat) (data : Word) (s : Dev) : Dev :=
  let off := offCH_CQ_CFG c n
  let en := data.getLsbD 0
  if getF s (fCH_CQ_CFG_ENABLE c n) = 1 then
    let s1 := if othersChange s off data || (!en && cqNamed s c n) then setupError s port off else s
    if en || cqNamed s c n then s1
    else setF (setF (setF s1 (fCH_CQ_CFG_ENABLE c n) 0) (fCH_CQ_STATE_STATE c n) 0) (fCH_CQ_STATE_CAUSE c n) 0
  else
    let s1 := writeReg s off data
    if !en then s1
    else if sizeOk (getF s1 (fCH_CQ_CFG_LOG2SZ c n)) && (getF s1 (fCH_CQ_CFG_PORT c n) == 1 || getF s1 (fCH_CQ_CFG_PORT c n) == 2)
        && (getF s1 (fCH_CQ_CFG_VFV c n) == 0 || decide (getF s1 (fCH_CQ_CFG_VECTOR c n) < 64)) && pasidOk s1 c (getF s1 (fCH_CQ_CFG_PASID c n)) then
      setCqr (setF (setF s1 (fCH_CQ_STATE_STATE c n) 1) (fCH_CQ_STATE_CAUSE c n) 0) c n { count := 0, first := 0 }
    else setupError (setF s1 (fCH_CQ_CFG_ENABLE c n) 0) port off

/-- R804: the effect of a write of another register of a ring, whose fields are fixed while ENABLE is 1. -/
def ringRegEff (port : Nat) (enable : Fld) (off : Nat) (data : Word) (s : Dev) : Dev :=
  if getF s enable = 1 then setupError s port off else writeReg s off data

/-! ## Doorbells (R466 to R469) -/

/-- R469: a doorbell of a channel is dropped and counted. -/
def dropDoorbell (s : Dev) (c : Nat) : Dev := satF s (fCH_STATUS_DB_DROPS c) 1

/-- R468, R469: a well-formed doorbell of ring `r` (64 and up: a completion ring) with an index. -/
def ringDoorbell (s : Dev) (c r idx : Nat) : Dev :=
  if r < 64 then
    if getF s (fCH_SQ_STATE_STATE c r) ≠ 1 then dropDoorbell s c
    else if 2 ^ getF s (fCH_SQ_CFG_LOG2SZ c r) ≤ idx then setF (setF s (fCH_SQ_STATE_STATE c r) 2) (fCH_SQ_STATE_CAUSE c r) 3
    else setF s (fCH_SQ_STATE_TAIL c r) idx
  else
    let n := r - 64
    if getF s (fCH_CQ_STATE_STATE c n) ≠ 1 then dropDoorbell s c
    else if 2 ^ getF s (fCH_CQ_CFG_LOG2SZ c n) ≤ idx then setF (setF s (fCH_CQ_STATE_STATE c n) 2) (fCH_CQ_STATE_CAUSE c n) 3
    else setF s (fCH_CQ_STATE_HEAD c n) idx

/-- R455, R466: whether a page of BAR2 answers through a function: every page through PF0, those of slice n through VF n. -/
def pageAnswers (s : Dev) (port : Nat) (vf : Option (Fin 16)) (page : Nat) : Bool :=
  portUp s port && (match vf with
    | none => true
    | some n => (getPort s port).vfEn && getF s (fCH_STATUS_OWNED (page / 256)) == 1 && chanSlice s (page / 256) == n.val)

/-- R466 to R469: a write of BAR2 bytes. Writes elsewhere than a page's doorbell are dropped. -/
def doDoorbell (port : Nat) (vf : Option (Fin 16)) (page off len : Nat) (data : Word) (s : Dev) : Dev :=
  let c := page / 256
  let i := page % 256
  if !pageAnswers s port vf page ∨ 64 < i ∨ 8 ≤ off then s
  else
    let r := fld data 31 16
    if off ≠ 0 ∨ len ≠ 8 ∨ fld data 63 32 ≠ 0 ∨ 127 < r ∨ (i < 64 ∧ r % 64 ≠ i) then dropDoorbell s c
    else ringDoorbell s c r (fld data 15 0)

/-! ## Fetching (R465, R471, R474, R476) -/

/-- Entries of a ring, and of its channel, fetched or being fetched. -/
def ringHeld (ch : Channel) (n : Nat) : Nat :=
  (ch.fetched.filter (fun f => f.ring == n)).length + ((ch.reads.filter (fun r => r.ring == n)).map (fun r => r.count)).sum
def chanHeld (ch : Channel) : Nat := ch.fetched.length + (ch.reads.map (fun r => r.count)).sum

/-- R471: the next read of a ring: first entry and count. The entries of one read are consecutive in memory. -/
def nextRead (s : Dev) (c n : Nat) : Nat × Nat :=
  let ch := getCh s c
  let size := 2 ^ getF s (fCH_SQ_CFG_LOG2SZ c n)
  let out := ((ch.reads.filter (fun r => r.ring == n)).map (fun r => r.count)).sum
  let start := (getF s (fCH_SQ_STATE_HEAD c n) + out) % size
  let avail := (getF s (fCH_SQ_STATE_TAIL c n) + size - start) % size
  (start, min (min 8 (min avail (size - start))) (min (32 - ringHeld ch n) (512 - chanHeld ch)))

/-- The host page of an entry of a ring. -/
def ringPage (s : Dev) (c n idx : Nat) : Nat := (64 * getF s (fCH_SQ_BASE_ADDR c n) + 64 * idx) / 4096

/-- R455: the descriptor reads outstanding on a port; 768 non-posted requests may be. -/
def portReads (s : Dev) (p : Nat) : Nat :=
  ((List.range 16).map (fun c => ((getCh s c).reads.filter (fun r => !r.pri && portOf (getF s (fCH_SQ_CFG_PORT c r.ring)) == p)).length)).sum

/-- Keep a translation in a port's cache of 1,024 entries (R455). -/
def atcPut (s : Dev) (p : Nat) (k : Nat × Nat) : Dev :=
  modPort s p (fun x => if x.atc.contains k then x else { x with atc := (x.atc ++ [k]).drop (x.atc.length + 1 - 1024) })

/-- R471: a channel issues a descriptor read of a ring, which ATS translates. `mapped` says that the host maps the page; where it
does not, a page request goes out in its place and the read waits for it. -/
def doRingFetch (c n : Nat) (mapped : Bool) (s : Dev) : Dev :=
  let p := portOf (getF s (fCH_SQ_CFG_PORT c n))
  if !chanLive s c n ∨ getF s (fCH_SQ_STATE_STATE c n) ≠ 1 ∨ !portUp s p then s
  else
    let (start, k) := nextRead s c n
    if k = 0 then s
    else
      let key := (getF s (fCH_SQ_CFG_PASID c n), ringPage s c n start)
      let ats := (ringPasid s c n).isSome
      if !ats || mapped || (getPort s p).atc.contains key then
        if 768 ≤ portReads s p then s else
        let s := if ats then atcPut s p key else s
        emit (modCh s c (fun ch => { ch with reads := ch.reads ++ [{ ring := n, index := start, count := k, pri := false }] })) (.fetch p c n start k)
      else if 256 ≤ (getPort s p).pageReqs.length then s
      else
        let s := modCh s c (fun ch => { ch with reads := ch.reads ++ [{ ring := n, index := start, count := k, pri := true }] })
        if (getPort s p).pageReqs.contains key then s
        else emit (modPort s p (fun x => { x with pageReqs := x.pageReqs ++ [key] })) (.ats p 0 (key.1 + 2 ^ 20 * key.2))

/-- Drop the oldest outstanding read of a ring. -/
def dropRead (s : Dev) (c n : Nat) : Dev :=
  modCh s c (fun ch => match ch.reads.find? (fun r => r.ring == n) with
    | some r => { ch with reads := ch.reads.erase r }
    | none => ch)

/-- R465, R471, R474: the descriptors of a ring's oldest read arrive and are copied, and HEAD advances past them. -/
def doDescriptorArrival (c n : Nat) (descs : List Block64) (s : Dev) : Dev :=
  match (getCh s c).reads.find? (fun r => r.ring == n) with
  | none => s
  | some r =>
    if r.pri ∨ descs.length ≠ r.count ∨ whoaStopped s = true then s
    else
      let s := dropRead s c n
      if getF s (fCH_SQ_STATE_STATE c n) ≠ 1 then s
      else
        let size := 2 ^ getF s (fCH_SQ_CFG_LOG2SZ c n)
        let fs := (descs.zip (List.range r.count)).map (fun e => { ring := n, index := (r.index + e.2) % size, desc := e.1, requeued := false : Fetched })
        setF (modCh s c (fun ch => { ch with fetched := ch.fetched ++ fs })) (fCH_SQ_STATE_HEAD c n) ((r.index + r.count) % size)

/-- R476: a ring enters ERROR, with its error record. -/
def ringError (s : Dev) (c n cause : Nat) (completion : Bool) : Dev :=
  let s := if completion then setF (setF s (fCH_CQ_STATE_STATE c n) 2) (fCH_CQ_STATE_CAUSE c n) cause
    else setF (setF s (fCH_SQ_STATE_STATE c n) 2) (fCH_SQ_STATE_CAUSE c n) cause
  errRecord s { sev := 2, cause := 0x0014, die := 8 + chanHub c, unit := 0x0B, index := c, ring := if completion then 0xFFFF else c + 16 * n,
                slice := if getF s (fCH_STATUS_OWNED c) = 1 then chanSlice s c else 0xFF, hubO := decide (8 ≤ c), detail := cause + 256 * completion.toNat }

/-- R476: a read of a ring fails: the ring is in ERROR and fetches nothing more. -/
def fetchFails (s : Dev) (c n : Nat) : Dev :=
  if (getCh s c).reads.any (fun r => r.ring == n) then
    let s := modCh s c (fun ch => { ch with reads := ch.reads.filter (fun r => r.ring != n) })
    if getF s (fCH_SQ_STATE_STATE c n) = 1 then ringError s c n 1 false else s
  else s

/-- R476: a record or tail-word write of a completion ring fails. -/
def doRecordWriteFailure (c n : Nat) (s : Dev) : Dev :=
  if getF s (fCH_CQ_STATE_STATE c n) ≠ 1 then s else ringError s c n 4 true

/-! ## Descriptor checks (R473, R477 to R486, R621) -/

/-- R473: a reserved opcode, a set res bit, or a nonzero field the opcode does not use. -/
def descBad (d : Block64) : Bool :=
  let z (msb lsb : Nat) : Bool := fld d msb lsb == 0
  !z 15 10 || (match dOpcode d with
    | 1 => !(z 127 96 && z 383 376 && z 511 416)
    | 2 => mvFieldsBad d | 3 => mvFieldsBad d | 4 => mvFieldsBad d | 5 => mvFieldsBad d | 6 => mvFieldsBad d
    | 8 => !(z 127 98 && z 511 256) || fld d 97 96 == 3
    | 9 => !(z 127 98 && z 511 256) || decide (2 ≤ fld d 97 96)
    | 0x0A => !(z 127 100 && z 511 224) || (fld d 97 96 == 0 && !z 223 128)
    | 0x0B => !(z 127 96 && z 511 192)
    | 0x0C => !(z 127 97 && z 511 288)
    | _ => true)

/-- R621: the opcodes a Halter channel accepts. -/
def halterOpcode (d : Block64) : Bool :=
  [1, 2, 3, 8, 9, 0x0B].contains (dOpcode d) || (dOpcode d == 0x0A && fld d 97 96 == 0)

/-! ## Dispatching (R471 to R473, R487 to R490) -/

/-- R494: when a command's timeout expires: 100 µs units, or whole milliseconds while the channel's schedule runs. -/
def cmdDeadline (s : Dev) (c : Nat) (d : Block64) : Option Nat :=
  let t := if dTimeout d = 0 then getF s (fCH_CFG_DEF_TMO c) else dTimeout d
  if t = 0 then none
  else some (s.now + (if getF s (fSLC_CYC_CFG_EN c) = 1 then ceilDiv t 10 * 1000000 else t * 100000))

/-- The command a fetched descriptor becomes. -/
def newCmd (s : Dev) (c tag : Nat) (f : Fetched) : Cmd :=
  { key := s.nextKey, chan := c, ring := f.ring, index := f.index, desc := f.desc, tag := tag, cq := getF s (fCH_SQ_CFG_CQ c f.ring),
    tStart := timeBase s, t0 := s.now, deadline := cmdDeadline s c f.desc, phase := .dispatched, status := none, poisoned := false, flags := 0,
    nextBlock := 0, blocksDone := 0, lost := [], stopReq := none, saved := false, savedAt := 0, moved := false,
    energy := 0, window := windowFor s c f.ring, late := false, tiles := [], cores := [] }

/-- The state with a fetched descriptor taken off its channel and in flight. -/
def takeFetched (s : Dev) (c tag : Nat) (f : Fetched) : Dev :=
  let s1 := { s with cmds := s.cmds ++ [newCmd s c tag f], nextKey := s.nextKey + 1 }
  modCh s1 c (fun ch => { ch with fetched := ch.fetched.erase f, lastRing := f.ring, lastDone := if s.cmds.any (fun x => x.chan == c) then ch.lastDone else s.now })

/-- R464, R472: a completion ring has an entry that no in-flight command has reserved. -/
def cqRoom (s : Dev) (c q : Nat) : Bool :=
  let size := 2 ^ getF s (fCH_CQ_CFG_LOG2SZ c q)
  let used := (getF s (fCH_CQ_STATE_TAIL c q) + size - getF s (fCH_CQ_STATE_HEAD c q)) % size
  getF s (fCH_CQ_STATE_STATE c q) == 1 && decide (used + (s.cmds.filter (fun x => x.chan == c && x.cq == q)).length < size - 1)

/-- The ordering conditions of a descriptor (R477, R487 to R489, R540): a requeued run had its own met at its first dispatch. -/
def ordered (s : Dev) (c tag : Nat) (f : Fetched) : Bool :=
  let d := f.desc
  let ringBusy := s.cmds.any (fun x => x.chan == c && x.ring == f.ring)
  f.requeued || (
    !s.cmds.any (fun x => x.chan == c && x.ring == f.ring && dOpcode x.desc == 9)
      && !((dSerial d || dOpcode d == 8 || dOpcode d == 0x0A || dOpcode d == 0x0C) && ringBusy)
      && !(dOpcode d == 0x0A && bit d 98 && (s.cmds.any (fun x => x.chan == c) || (getCh s c).fetched.any (fun g => g.requeued)))
      && (dOpcode d != 0x0C || decide (16 ≤ tag) || descBad d || msBad s (newCmd s c tag f) || (msSelects s tag d).all (regionIdle s tag)))

/-- R249, R539, R540, R545: the queue of a data mover's engine, which holds what it executes too, has room, and a region's engine takes
commands of the ring now. -/
def moverOpen (s : Dev) (c tag : Nat) (f : Fetched) : Bool :=
  if isMover (dOpcode f.desc) then
    match engineOf s tag c f.desc with
    | some e => decide ((engineCmds s e).length < engineQueue e)
        && (decide (100 ≤ e) || decide (16 ≤ tag) || regionOpen s tag c (getF s (fCH_SQ_CFG_PRIO c f.ring)) (windowFor s c f.ring) e)
    | none => true
  else true

/-- The next descriptor of a ring, where every condition but room for a cooperative KERNEL holds (R472, R496, R545). -/
def ringHead (s : Dev) (c n : Nat) : Option (Nat × Fetched) :=
  match ringTag s c n, (getCh s c).fetched.find? (fun f => f.ring == n) with
  | some t, some f =>
    if chanLive s c n && portUp s (portOf (getF s (fCH_SQ_CFG_PORT c n))) && decide ((s.cmds.filter (fun x => x.chan == c)).length < getF s (fCH_CFG_INFLIGHT_MAX c))
        && cqRoom s c (getF s (fCH_SQ_CFG_CQ c n)) && ordered s c t f && moverOpen s c t f && (!windowRing s c n || (windowFor s c n).isSome) then
      some (t, f)
    else none
  | _, _ => none

/-- R482: a cooperative KERNEL that is valid and cannot be placed whole now. -/
def coopWaits (s : Dev) (c tag : Nat) (f : Fetched) : Bool :=
  let x := newCmd s c tag f
  dOpcode f.desc == 1 && kCoop f.desc && !descBad f.desc && !kernelBad s x && !(getSqr s c f.ring).aborting && !coopFits (takeFetched s c tag f) x

/-- R471, R545: the rank of a ring: window rings of an EXCLUSIVE or PREEMPTIVE window, then PRIO, then rotation. -/
def ringOrder (s : Dev) (c n : Nat) : Nat :=
  let w := match windowFor s c n with
    | some e => getF s (fSLC_CYC_E_KIND c e) != 3
    | none => false
  (if w then 0 else 512) + (7 - getF s (fCH_SQ_CFG_PRIO c n)) * 64 + (n + 63 - (getCh s c).lastRing) % 64

/-- R490: what the dispatch of a command does with ERRSTOP: true when the command ends with ABORTED without running. -/
def errStop (s : Dev) (c : Nat) (f : Fetched) : Dev × Bool :=
  let r := getSqr s c f.ring
  let fence := dOpcode f.desc == 0x0A
  if r.aborting then (if fence then setSqr s c f.ring { failed := false, aborting := false } else s, true)
  else if fence then
    let stop := bit f.desc 99 && r.failed && !descBad f.desc
    (setSqr s c f.ring { failed := false, aborting := stop }, stop)
  else (s, false)

/-- R472, R473, R490, R687: a descriptor is dispatched and checked by the common rules. -/
def dispatchNow (s : Dev) (c tag : Nat) (f : Fetched) : Dev :=
  let key := s.nextKey
  let s := syncInflight (takeFetched s c tag f) c
  let s := countHub s (chanHub c) 0xC6 1
  let s := { s with obs := { s.obs with chCount := tabMod (fun _ => 0) s.obs.chCount (2 * c) (fun n => n + 1) } }
  let s := trace s (chanHub c) { kind := 2, job := dJob f.desc, layer := dLayer f.desc, op := dOp f.desc, slice := tagByte tag, chan := c, status := 0, info := f.index, payload := fld f.desc 31 0 }
  let (s, stop) := errStop s c f
  if stop then endCmd s key 0x05 none
  else if descBad f.desc ∨ (0x10 ≤ tag ∧ halterOpcode f.desc = false) then failCmd s key 0x10
  else s

/-- R471, R472: a channel dispatches the next descriptor of the ring it serves first. A cooperative KERNEL that waits for cores may
pre-empt (R539). -/
def doDispatch (c : Nat) (s : Dev) : Dev :=
  -- R624 step 1: once the Halter work is complete, CH0 and CH8 dispatch nothing more
  if stage s == 1 && stepDone s 12 then s else
  let heads := (List.range 64).filterMap (fun n => ringHead s c n)
  let s := (heads.filter (fun h => coopWaits s c h.1 h.2)).foldl (fun s h => preemptFor s (newCmd s c h.1 h.2)) s
  match firstBy (fun h => ringOrder s c h.2.ring) (heads.filter (fun h => !coopWaits s c h.1 h.2)) with
  | some h => dispatchNow s c h.1 h.2
  | none => s

/-! ## Timeouts and messages (R494, R495) -/

/-- R494: a command's timeout expires. Timeouts are paused while the module is stopped, the slice frozen or the command saved. -/
def doCommandTimeout (key : Nat) (s : Dev) : Dev :=
  match getCmd s key with
  | none => s
  | some c =>
    match c.deadline with
    | none => s
    | some d =>
      if whoaStopped s || c.saved || frozenSlice s c.tag || c.status.isSome then s
      else failCmd { s with now := max s.now d } key 0x03

/-- R495: MOD_US after the first record since its last message, a completion ring sends its message. -/
def doModUsExpiry (c n : Nat) (s : Dev) : Dev :=
  let r := getCqr s c n
  if r.count = 0 ∨ getF s (fCH_CQ_CFG_MOD_US c n) = 0 ∨ getF s (fCH_CQ_CFG_IRQ_EN c n) = 0 ∨ getF s (fCH_CQ_STATE_STATE c n) ≠ 1 ∨ whoaStopped s = true then s
  else cqMessage { s with now := max s.now (r.first + 1000 * getF s (fCH_CQ_CFG_MOD_US c n)) } c n

/-! ## Channel reset (R504, R631) -/

/-- R589: a channel's window has ended: the one record of its reserve that could not be granted in full, with the worst tick's watts. -/
def reserveShort (s : Dev) (c : Nat) : Dev :=
  let mine := s.pw.shortNoted.filter (fun e => e.1 == c)
  let s := { s with pw := { s.pw with shortNoted := s.pw.shortNoted.filter (fun e => e.1 != c) } }
  mine.foldl (fun s e => errRecord s { sev := 2, cause := 0x0013, die := 8 + chanHub c, unit := 0x0B, index := c, slice := chanSlice s c, hubO := decide (8 ≤ c), detail := e.2.2 }) s

/-- R545, R631: a channel's cyclic schedule stops: its windows hold no region. -/
def stopCyclic (s : Dev) (c : Nat) : Dev :=
  let s := reserveShort s c
  let s := if s.pins.syncOut && getF s fSU_SYNCIO_FCHAN == c then setF { s with pins := { s.pins with syncOut := false } } fSU_PINS_SYNC 0 else s
  let s := modCh (setF s (fSLC_CYC_CFG_EN c) 0) c (fun ch => { ch with cyc := CycRun.init })
  (List.range 32).foldl (fun s r => if (getRgn s r).window = some c then pokeRegion (modRgn s r (fun g => { g with window := none })) r else s) s

/-- R504, R631: the effect of a write of CH_RESET. -/
def chResetEff (c : Nat) (data : Word) (s : Dev) : Dev :=
  if data.getLsbD 0 = false then s
  else
    let s := setReg (stopCyclic (setF s (fCH_RESET_BUSY c) 1) c) (offSLC_CYC_STAT c) 0
    let s := ((s.cmds.filter (fun x => x.chan == c)).map (fun x => x.key)).foldl (fun s k => failCmd s k 0x05) s
    (List.range 32).foldl pokeRegion (tryChanReset s c)

/-! ## The commands -/

/-- DOORBELL (R468): a write of `len` bytes at an offset of a BAR2 page, through PF0 or a VF. -/
def execDoorbell (port : Fin 2) (vf : Option (Fin 16)) (page : Fin 4096) (off : Fin 4096) (len : Fin 65) (data : Word) (s : State) : Out' :=
  upd s (doDoorbell port vf page off len data)
/-- RING_FETCH (R471). -/
def execRingFetch (chan : Fin 16) (ring : Fin 64) (mapped : Bool) (s : State) : Out' := upd s (doRingFetch chan ring mapped)
/-- DESCRIPTOR_ARRIVAL (R474). -/
def execDescriptorArrival (chan : Fin 16) (ring : Fin 64) (descs : List Block64) (s : State) : Out' := upd s (doDescriptorArrival chan ring descs)
/-- FETCH_FAILURE (R476). -/
def execFetchFailure (chan : Fin 16) (ring : Fin 64) (s : State) : Out' := upd s (fun d => fetchFails d chan ring)
/-- DISPATCH (R472). -/
def execDispatch (chan : Fin 16) (s : State) : Out' := upd s (doDispatch chan)
/-- COMMAND_TIMEOUT (R494). -/
def execCommandTimeout (key : Nat) (s : State) : Out' := upd s (doCommandTimeout key)
/-- MOD_US_EXPIRY (R495). -/
def execModUsExpiry (chan : Fin 16) (cq : Fin 64) (s : State) : Out' := upd s (doModUsExpiry chan cq)
/-- RECORD_WRITE_FAILURE (R476). -/
def execRecordWriteFailure (chan : Fin 16) (cq : Fin 64) (s : State) : Out' := upd s (doRecordWriteFailure chan cq)
/-- DL_DOWN (R496). -/
def execDlDown (port : Fin 2) (s : State) : Out' := upd s (fun d => linkDown d port)
/-- SQ_ENABLE (R506): CH_SQn_CFG written with ENABLE set. -/
def execSqEnable (port : Fin 2) (chan : Fin 16) (ring : Fin 64) (data : Word) (s : State) : Out' :=
  upd s (setupWr port (offCH_SQ_CFG chan ring) (data ||| 1) (sqCfgEff port chan ring (data ||| 1)))
/-- SQ_DISABLE (R506): CH_SQn_CFG written with ENABLE clear. -/
def execSqDisable (port : Fin 2) (chan : Fin 16) (ring : Fin 64) (data : Word) (s : State) : Out' :=
  upd s (setupWr port (offCH_SQ_CFG chan ring) (putFld data 0 0 0) (sqCfgEff port chan ring (putFld data 0 0 0)))
/-- CQ_ENABLE (R510): CH_CQn_CFG written with ENABLE set. -/
def execCqEnable (port : Fin 2) (chan : Fin 16) (ring : Fin 64) (data : Word) (s : State) : Out' :=
  upd s (setupWr port (offCH_CQ_CFG chan ring) (data ||| 1) (cqCfgEff port chan ring (data ||| 1)))
/-- CQ_DISABLE (R510): CH_CQn_CFG written with ENABLE clear. -/
def execCqDisable (port : Fin 2) (chan : Fin 16) (ring : Fin 64) (data : Word) (s : State) : Out' :=
  upd s (setupWr port (offCH_CQ_CFG chan ring) (putFld data 0 0 0) (cqCfgEff port chan ring (putFld data 0 0 0)))
/-- CHANNEL_RESET (R504): CH_RESET written with GO set. -/
def execChannelReset (port : Fin 2) (chan : Fin 16) (s : State) : Out' :=
  upd s (setupWr port (offCH_RESET chan) 1 (chResetEff chan 1))

end Sys2Proof.Machine
end

