-- ==== Sys2Proof/Machine/ChanOps.lean ====
section
/-! DEFINITION. Sys2Proof/Machine/ChanOps.lean: the commands a channel carries out itself (R483 to R490, R621): SIGNAL, WAIT, FENCE and
MARK. -/

namespace Sys2Proof.Machine

open Sys2Proof

/-- A dispatched command of an opcode runs, where nothing stops the channel. -/
def runCmd (s : Dev) (key opcode : Nat) (p : CmdPhase) (f : Cmd → Dev) : Dev :=
  if whoaStopped s then s
  else
    match getCmd s key with
    | none => s
    | some c => if dOpcode c.desc ≠ opcode ∨ c.phase ≠ p ∨ c.status.isSome ∨ frozenSlice s c.tag = true then s else f c

/-- A command fails on an address. -/
def chanAddrFail (s : Dev) (c : Cmd) (status va : Nat) : Dev :=
  endCmd s c.key status (some { cmdErr c with addr := some (failAddr s c.tag va).1, virt := (failAddr s c.tag va).2 })

/-! ## SIGNAL (R483, R487) -/

def sgADDR (d : Block64) : Nat := fld d 191 128
def sgVALUE (d : Block64) : Nat := fld d 255 192
/-- SOP of a SIGNAL; COND of a WAIT. -/
def sgOP (d : Block64) : Nat := fld d 97 96

/-- R487: the new word. -/
def signalWord (sop old v : Nat) : Nat :=
  if sop = 0 then v else if sop = 1 then (old + v) % 2 ^ 64 else max old v

/-- R487: the update of a line's word. -/
def signalLine (sop off v : Nat) (d : LineData) : LineData := putNat d off 8 (signalWord sop (lineNat d off 8) v)

/-- The end of a SIGNAL whose update has been sent. -/
def signalDone (s : Dev) (c : Cmd) (w : WrRes) (va : Nat) : Dev :=
  if w.err.isSome then chanAddrFail s c (w.err.getD 0x02) va
  else finishCmd (if w.lost then loseWrite s c.key 0x08 else s) c.key

/-- R487, R621: a SIGNAL updates its word. -/
def signalAt (c : Cmd) (s : Dev) : Dev :=
  let va := sgADDR c.desc
  let sop := sgOP c.desc
  let v := sgVALUE c.desc
  if va % 8 ≠ 0 then failCmd s c.key 0x10
  else
    match translate s c.tag va true with
    | (s, .ok pa attr) =>
      let off := pa % 512
      let mask := 255 * 2 ^ off
      match placeOf s pa with
      | .tier =>
        let (s, _, _, w) := cohRmw s c.tag pa attr { kind := .op false, need := BitVec.ofNat 8 (maskSectors mask), mask := mask, poison := 0, thr := noThread, f := signalLine sop off v }
        signalDone (if w.err.isNone && !w.lost then dlogStage s c.tag .tier pa else s) c w va
      | .spad cl o =>
        if dieLost s (cl / 24) then signalDone s c { err := none, lost := true } va
        else if spadOwner s c.tag cl then
          let (s, _, _) := spadRmw s cl o mask 0 noThread (signalLine sop (o % 512) v)
          signalDone s c { err := none, lost := false } va
        else chanAddrFail s c 0x02 va
      | .host _ _ =>
        if 0x20 ≤ c.tag ∨ sop ≠ 0 then chanAddrFail s c 0x02 va
        else
          let (s, w) := writePa s none c.tag pa attr (BitVec.ofNat 4096 (v * 2 ^ (8 * off))) mask 0 noThread c.key
          signalDone s c w va
      | .peer =>
        if sop = 2 then chanAddrFail s c 0x02 va
        else if sop = 0 then
          let (s, w) := writePa s none c.tag pa attr (BitVec.ofNat 4096 (v * 2 ^ (8 * off))) mask 0 noThread c.key
          signalDone (launch (0x800 + c.chan) s) c w va
        else if peerUse s (peerMod pa) = .dead then signalDone s c { err := none, lost := true } va
        else if peerUse s (peerMod pa) ≠ .flow then chanAddrFail (peerRecord s (peerMod pa) c.tag (cmdErr c)) c 0x02 va
        else
          let q : PeerReq := { id := s.nextKey, kind := 1, tag := c.tag, cmd := c.key, pa := pa / 512 * 512, dt := 5, data := BitVec.ofNat 4096 (v * 2 ^ (8 * off)), mask := BitVec.ofNat 512 mask, poison := false, who := none, eng := none, framed := false }
          signalDone (launch (0x800 + c.chan) { s with peerOut := s.peerOut ++ [q], nextKey := s.nextKey + 1 }) c { err := none, lost := false } va
      | .bad => chanAddrFail s c 0x02 va
    | (s, _) => chanAddrFail s c 0x02 va

/-- R487: a dispatched SIGNAL. -/
def doSignal (key : Nat) (s : Dev) : Dev := runCmd s key 8 .dispatched (fun c => signalAt c s)

/-! ## WAIT (R488) -/

/-- R488: whether a read meets COND. -/
def waitMet (d : Block64) (v : Nat) : Bool := if sgOP d = 0 then decide (sgVALUE d ≤ v) else v == sgVALUE d

/-- R488, R621: a WAIT reads its word at its point of coherence and completes when COND is met. -/
def waitRead (c : Cmd) (s : Dev) : Dev :=
  let va := sgADDR c.desc
  if va % 8 ≠ 0 then failCmd s c.key 0x10
  else
    match translate s c.tag va false with
    | (s, .ok pa attr) =>
      let here := match placeOf s pa with
        | .tier => decide (c.tag < 0x10)
        | .spad _ _ => decide (0x20 ≤ c.tag)
        | _ => false
      if !here then chanAddrFail s c 0x02 va
      else
        let (s, r) := readPa s none c.tag pa 8 attr
        if r.err.isSome then chanAddrFail s c (r.err.getD 0x02) va
        else
          let s := if anyPoison r.bytes then markPoison s c.key else s
          if waitMet c.desc (accNat r.bytes) then finishCmd s c.key else modCmd s c.key (fun c => { c with phase := .running })
    | (s, _) => chanAddrFail s c 0x02 va

/-- R488: a dispatched WAIT reads its word; a WAIT that waits reads it again. -/
def doWait (key : Nat) (s : Dev) : Dev := runCmd s key 9 .dispatched (fun c => waitRead c s)
def doWaitReread (key : Nat) (s : Dev) : Dev := runCmd s key 9 .running (fun c => waitRead c s)

/-! ## FENCE (R484, R489, R296, R297) -/

def fnROP (d : Block64) : Nat := fld d 97 96
def fnADDR (d : Block64) : Nat := fld d 191 128
def fnLINES (d : Block64) : Nat := fld d 223 192

/-- R484: a FENCE whose range is invalid. -/
def fenceBad (d : Block64) : Bool :=
  fnROP d != 0 && (fnADDR d % 512 != 0 || fnLINES d == 0 || decide (16384 < fnLINES d))

/-- The range operation of a ROP code. -/
def ropOf (r : Nat) : RangeOp := if r = 1 then .flush else if r = 2 then .inval else .flushInv

/-- R297: a tenant's range operation over lines of virtual addresses, 64 KiB page by page (fuel: pages): it skips lines tagged 0x11
and answers the first address whose page is not mapped. -/
def fenceRange (op : RangeOp) (owner tag : Nat) : Nat → Dev → Nat → Nat → Dev × Option Nat
  | 0, s, _, _ => (s, none)
  | fuel + 1, s, va, n =>
    if n = 0 then (s, none)
    else
      let k := min n (128 - va / 512 % 128)
      match translate s tag va false with
      | (s, .ok pa _) =>
        let l0 := pa / 512
        let s := if placeOf s pa = .tier then rangeLines op owner s (fun l => decide (l0 ≤ l.line) && decide (l.line < l0 + k) && l.tag != 0x11) else s
        fenceRange op owner tag fuel s (va + 512 * k) (n - k)
      | (s, _) => (s, some va)

/-- R306, R489: a dispatched FENCE performs its range operation, and completes with it, once no home holds it at a pinned line. -/
def doChanFence (key : Nat) (s : Dev) : Dev :=
  runCmd s key 0x0A .dispatched (fun c =>
    if fenceBad c.desc then failCmd s key 0x10
    else if fnROP c.desc = 0 then finishCmd s key
    else
      match fenceRange (ropOf (fnROP c.desc)) (key + 1) c.tag 130 s (fnADDR c.desc) (fnLINES c.desc) with
      | (s, some va) => chanAddrFail s c 0x02 va
      | (s, none) => finishCmd s key)

/-! ## MARK (R485) -/

/-- R485, R687: a dispatched MARK writes its trace record, of its dispatch time, and completes. -/
def doMark (key : Nat) (s : Dev) : Dev :=
  runCmd s key 0x0B .dispatched (fun c =>
    finishCmd (traceAt s (chanHub c.chan) { kind := 1, job := dJob c.desc, layer := dLayer c.desc, op := dOp c.desc, slice := tagByte c.tag, chan := c.chan, status := 0, info := c.index, payload := fld c.desc 191 128 } c.tStart) key)

/-! ## The commands -/

/-- SIGNAL (R487). -/
def execSignal (key : Nat) (s : State) : Out' := updM s (doSignal key)
/-- WAIT (R488). -/
def execWait (key : Nat) (s : State) : Out' := updM s (doWait key)
/-- WAIT_REREAD (R488). -/
def execWaitReread (key : Nat) (s : State) : Out' := updM s (doWaitReread key)
/-- FENCE (R489). -/
def execFence (key : Nat) (s : State) : Out' := updM s (doChanFence key)
/-- MARK (R485). -/
def execMark (key : Nat) (s : State) : Out' := upd s (doMark key)

end Sys2Proof.Machine
end

