-- ==== Sys2Proof/Machine/Control.lean ====
section
/-! DEFINITION. Sys2Proof/Machine/Control.lean: the control instructions of opcode group 0x0 (R158, R801), divergence and
reconvergence. -/

namespace Sys2Proof.Machine

open Sys2Proof

/-- R801: T1, T2 and TOK are as the control-field table allows: `true` where a field may be nonzero. -/
def ctlLegal (iw : IWord) (t1 t2 : Bool) : Bool :=
  cTOK iw == 0 && (t1 || cT1 iw == 0) && (t2 || cT2 iw == 0)

/-- A branch target: a signed offset in instruction words from the instruction's address (R169). -/
def target (g : Group) (t : Nat) : Word := g.pc + BitVec.ofNat 64 (wrapNat 64 (8 * sextNat 24 t))

/-- R158: the capacity of the reconvergence stack. -/
def stackCap : Nat := 32

/-- R158 pop_next: pop entries until one has live lanes. -/
def popNext (live : BitVec 32) : List StackEntry → Option (BitVec 32 × Word × List StackEntry)
  | [] => none
  | e :: t => if e.mask &&& live = 0 then popNext live t else some (e.mask &&& live, e.pc, t)

/-- R158 pop_to_loop: pop to the topmost LOOP entry. -/
def popToLoop (live : BitVec 32) : List StackEntry → Option (BitVec 32 × Word × List StackEntry)
  | [] => none
  | e :: t =>
    if e.kind = .loop then
      if e.mask &&& live = 0 then popNext live t else some (e.mask &&& live, e.pc, t)
    else popToLoop live t

/-- Remove lanes from every entry above the topmost LOOP. -/
def maskToLoop (b : BitVec 32) : List StackEntry → List StackEntry
  | [] => []
  | e :: t => if e.kind = .loop then e :: t else { e with mask := e.mask &&& ~~~b } :: maskToLoop b t

/-- The condition of BRA, SPLIT and BREAK reads poison in an active lane (R206). -/
def condPoison (s : Dev) (iw : IWord) (g : Group) : Dev := if predPoisonAny g iw then markPoison s g.cmd else s

/-- Take the result of a pop, or STACK_FAULT. -/
def applyPop (s : Dev) (iw : IWord) (g : Group) (r : Option (BitVec 32 × Word × List StackEntry)) : Dev :=
  match r with
  | none => raiseExc s iw.core iw.slot 0x07
  | some (act, pc, st) => putGroup s iw { g with act := act, pc := pc, stack := st }

/-- R801 NOP. -/
def doNop (iw : IWord) (s : Dev) : Dev :=
  issue s iw 4 [] [] (fun s g => if ctlLegal iw false false then skip s iw g else illegal s iw)

/-- R158 BRA. -/
def doBra (iw : IWord) (s : Dev) : Dev :=
  issue s iw 4 [] [] (fun s g =>
    if !ctlLegal iw true false then illegal s iw
    else
      let t := g.act &&& predMask g iw
      if t ≠ 0 ∧ t ≠ g.act then raiseExc s iw.core iw.slot 0x05
      else putGroup (condPoison s iw g) iw { g with pc := if t = 0 then g.pc + 8 else target g (cT1 iw) })

/-- R158 SPLIT: the pushes must fit. -/
def doSplit (iw : IWord) (s : Dev) : Dev :=
  issue s iw 4 [] [] (fun s g =>
    if !ctlLegal iw true true then illegal s iw
    else
      let t := g.act &&& predMask g iw
      let f := g.act &&& ~~~(predMask g iw)
      let need := if t ≠ 0 ∧ f ≠ 0 then 2 else 1
      if stackCap < g.stack.length + need then raiseExc s iw.core iw.slot 0x06
      else
        let join : StackEntry := { kind := .join, pc := target g (cT2 iw), mask := g.act }
        let s := condPoison s iw g
        if t = 0 then putGroup s iw { g with stack := join :: g.stack, act := f, pc := target g (cT1 iw) }
        else
          let st := if f ≠ 0 then { kind := .els, pc := target g (cT1 iw), mask := f } :: join :: g.stack else join :: g.stack
          putGroup s iw { g with stack := st, act := t, pc := g.pc + 8 })

/-- R158 JOIN. -/
def doJoin (iw : IWord) (s : Dev) : Dev :=
  issue s iw 4 [] [] (fun s g =>
    if !ctlLegal iw false false then illegal s iw
    else if !execOnce g iw then skip s iw g
    else applyPop s iw g (popNext g.live g.stack))

/-- R158 LOOP. -/
def doLoop (iw : IWord) (s : Dev) : Dev :=
  issue s iw 4 [] [] (fun s g =>
    if !ctlLegal iw true false then illegal s iw
    else if !execOnce g iw then skip s iw g
    else if stackCap ≤ g.stack.length then raiseExc s iw.core iw.slot 0x06
    else putGroup s iw { g with stack := { kind := .loop, pc := target g (cT1 iw), mask := g.act } :: g.stack, pc := g.pc + 8 })

/-- R158 BREAK. -/
def doBreak (iw : IWord) (s : Dev) : Dev :=
  issue s iw 4 [] [] (fun s g =>
    if !ctlLegal iw false false then illegal s iw
    else if !(g.stack.any (fun e => e.kind == .loop)) then raiseExc s iw.core iw.slot 0x07
    else
      let b := g.act &&& predMask g iw
      let st := maskToLoop b g.stack
      let act := g.act &&& ~~~b
      if act ≠ 0 then putGroup (condPoison s iw g) iw { g with stack := st, act := act, pc := g.pc + 8 }
      else
        match popToLoop g.live st with
        | none => raiseExc s iw.core iw.slot 0x07
        | some r => applyPop (condPoison s iw g) iw g (some r))

/-- R158, R195 EXIT: the active lanes retire; a group with no live lane ends once its tokens are zero; a pending barrier
that only retired lanes were missing from is arrived at. -/
def doExit (iw : IWord) (s : Dev) : Dev :=
  issue s iw 4 [] [] (fun s g =>
    if !ctlLegal iw false false then illegal s iw
    else if !execOnce g iw then skip s iw g
    else
      let live := g.live &&& ~~~g.act
      if live = 0 then
        let s := putGroup s iw { g with live := 0, act := 0, hold := .exited, stack := [], pend := none, arr := 0 }
        pokeCore (blockEnd s iw.core iw.slot) iw.core
      else
        match g.pend with
        | some (scope, bid) =>
          if g.arr &&& live = live then
            match releaseWait s iw.core iw.slot scope g with
            | .waiting => sealFor s iw.core
            | .lost st => storeLostAt s iw.core g.cmd st
            | .done =>
              if markedPending s iw.core iw.slot then s
              else safePoint (putGroup s iw { g with live := live, act := 0, hold := .barrier scope bid s.now true }) iw
          else
            match popNext live g.stack with
            | none => raiseExc s iw.core iw.slot 0x07
            | some r => safePoint (applyPop s iw { g with live := live } (some r)) iw
        | none =>
          match popNext live g.stack with
          | none => raiseExc s iw.core iw.slot 0x07
          | some r => safePoint (applyPop s iw { g with live := live } (some r)) iw)

/-- R123, R198, R532 WAIT: every token that T2[15:0] selects is zero. A mask of all sixteen is a safe point. -/
def doTokenWait (iw : IWord) (s : Dev) : Dev :=
  issue s iw 4 [] [] (fun s g =>
    if !ctlLegal iw false true || decide (2 ^ 16 ≤ cT2 iw) then illegal s iw
    else if !execOnce g iw then skip s iw g
    else if (bitsOf 16 (cT2 iw)).any (fun k => tabGet (fun _ => 0) g.tok k != 0) then s
    else
      let s := skip s iw g
      if cT2 iw = 0xFFFF then safePoint s iw else s)

/-- R205, R692 TRAP: the TRAP exception, or a Whoa stop while debug is authorised. -/
def doTrap (iw : IWord) (s : Dev) : Dev :=
  issue s iw 4 [] [] (fun s g =>
    if !ctlLegal iw false false then illegal s iw
    else if !execOnce g iw then skip s iw g
    else if debugOn s then whoaStop (skip s iw g) 2
    else raiseExc s iw.core iw.slot 0x0A)

/-- NOP (R801). -/
def execNop (iw : IWord) (s : State) : Out' := upd s (doNop iw)
/-- BRA (R158). -/
def execBra (iw : IWord) (s : State) : Out' := upd s (doBra iw)
/-- SPLIT (R158). -/
def execSplit (iw : IWord) (s : State) : Out' := upd s (doSplit iw)
/-- JOIN (R158). -/
def execJoin (iw : IWord) (s : State) : Out' := upd s (doJoin iw)
/-- LOOP (R158). -/
def execLoop (iw : IWord) (s : State) : Out' := upd s (doLoop iw)
/-- BREAK (R158). -/
def execBreakI (iw : IWord) (s : State) : Out' := upd s (doBreak iw)
/-- EXIT (R158). -/
def execExit (iw : IWord) (s : State) : Out' := upd s (doExit iw)
/-- TOKEN_WAIT (R123). -/
def execTokenWait (iw : IWord) (s : State) : Out' := upd s (doTokenWait iw)
/-- TRAP (R205). -/
def execTrap (iw : IWord) (s : State) : Out' := upd s (doTrap iw)

end Sys2Proof.Machine
end

