-- ==== Sys2Proof/Machine/Cyclic.lean ====
section
/-! DEFINITION. Sys2Proof/Machine/Cyclic.lean: cyclic schedules (R543 to R547, R566 to R568) and the frame-start output (R783). -/

namespace Sys2Proof.Machine

open Sys2Proof

/-! ## The position of a table on the time base (R543) -/

/-- Let the time base reach a value, where it has not passed it; a slew, which is at most 100 ppm (R677), pauses on the way. -/
def advanceTo (s : Dev) (t : Nat) : Dev :=
  let later := s.now + (t - (timeBase s).toNat)
  { (settleSlew s later (fun x => x)) with now := later }

/-- FRAME_US and OFFSET_US of a channel's table, in nanoseconds. -/
def cycFrame (s : Dev) (c : Nat) : Nat := 1000 * getF s (fSLC_CYC_CFG_FRAME_US c)
def cycOffset (s : Dev) (c : Nat) : Nat := 1000 * getF s (fSLC_CYC_CFG_OFFSET_US c)

/-- The time base at the start of frame k. -/
def frameStart (s : Dev) (c k : Nat) : Nat := k * cycFrame s c + cycOffset s c

/-- Start and end of an entry's window within a frame, in nanoseconds. -/
def entStart (s : Dev) (c e : Nat) : Nat := 1000 * getF s (fSLC_CYC_E_START_US c e)
def entEnd (s : Dev) (c e : Nat) : Nat := entStart s c e + 1000 * getF s (fSLC_CYC_E_LEN_US c e)

/-- R543, R695: a table stands at the frame position that the time base gives: the entries whose start has passed are behind it. -/
def cycPlace (s : Dev) (c : Nat) : CycRun :=
  let t := (timeBase s).toNat
  let used := cycUsed s c
  if cycFrame s c = 0 ∨ t < cycOffset s c then { CycRun.init with next := used.length }
  else
    let k := (t - cycOffset s c) / cycFrame s c
    let pos := t - frameStart s c k
    { CycRun.init with frame := k + 1, next := (used.takeWhile (fun e => decide (entStart s c e ≤ pos))).length }

/-! ## Enabling (R544) -/

/-- The lead of a window: SLC_n_SWITCH, in nanoseconds. -/
def leadNs (s : Dev) (c : Nat) : Nat := 1000 * getF s (fSLC_SWITCH_SWITCH_US (chanSlice s c))

/-- R544: the lead of an EXCLUSIVE window begins after the window before it ended, across the frame boundary for the first. -/
def leadOk (s : Dev) (c : Nat) (used : List Nat) (e : Nat) : Bool :=
  if getF s (fSLC_CYC_E_KIND c e) ≠ 1 then true
  else
    let before := if e = 0 then (entEnd s c (used.length - 1) : Int) - cycFrame s c else (entEnd s c (e - 1) : Int)
    decide (before + leadNs s c ≤ entStart s c e)

/-- R544: whether a table may be enabled as it stands. -/
def cycOk (s : Dev) (c : Nat) : Bool :=
  let used := cycUsed s c
  let f := getF s (fSLC_CYC_CFG_FRAME_US c)
  getF s (fCH_STATUS_OWNED c) == 1 && decide (100 ≤ f) && decide (f ≤ 1000000) && decide (getF s (fSLC_CYC_CFG_OFFSET_US c) < f)
    && used.all (fun e => getF s (fSLC_CYC_E_LEN_US c e) != 0 && decide (entEnd s c e ≤ 1000 * f)
        && decide (getF s (fSLC_CYC_E_RING0 c e) + getF s (fSLC_CYC_E_RCNTM1 c e) ≤ 63)
        && (e == 0 || decide (entEnd s c (e - 1) ≤ entStart s c e)) && leadOk s c used e)

/-- R544, R566: the effect of a write of SLC_CYCc_CFG. -/
def cycCfgEff (port c : Nat) (data : Word) (s : Dev) : Dev :=
  let off := offSLC_CYC_CFG c
  let s1 := writeReg s off data
  if data.getLsbD 63 = false then writeReg (stopCyclic s c) off data
  else if cycOk s1 c then
    let s2 := stopCyclic s c
    let s3 := writeReg s2 off data
    let s4 := if getF s (fSLC_CYC_CFG_EN c) = 0 then setF s3 (fSLC_CYC_STAT_FRAMES c) 0 else s3
    modCh s4 c (fun ch => { ch with cyc := cycPlace s4 c })
  else if getF s (fSLC_CYC_CFG_EN c) = 1 then setupError s port off
  else setupError (setF s1 (fSLC_CYC_CFG_EN c) 0) port off

/-- R544: entries may be written only while EN is 0. -/
def cycEntryEff (port c off : Nat) (data : Word) (s : Dev) : Dev :=
  if getF s (fSLC_CYC_CFG_EN c) = 1 then setupError s port off else writeReg s off data

/-! ## Frames and windows -/

/-- A channel's table runs. -/
def cycRuns (s : Dev) (c : Nat) : Bool := getF s (fSLC_CYC_CFG_EN c) == 1 && !whoaStopped s

/-- R543, R567, R783: the next frame begins, at its time, once the windows of the frame before it are over. -/
def doFrameStart (c : Nat) (s : Dev) : Dev :=
  let r := (getCh s c).cyc
  if !cycRuns s c || r.opened.isSome || decide (r.next < (cycUsed s c).length) then s
  else
    let s := satF (advanceTo s (frameStart s c r.frame)) (fSLC_CYC_STAT_FRAMES c) 1
    let s := modCh s c (fun ch => { ch with cyc := { r with frame := r.frame + 1, next := 0 } })
    if getF s fSU_SYNCIO_MODE = 3 ∧ getF s fSU_SYNCIO_FCHAN = c then setF { s with pins := { s.pins with syncOut := true, syncAt := s.now } } fSU_PINS_SYNC 1 else s

/-- R545, R547: a channel's EXCLUSIVE window takes a region: another holder is switched out, the slice's own other work is saved to
context 1. A region that another channel's window holds is left. -/
def leadRegion (s : Dev) (c r : Nat) : Dev :=
  let n := chanSlice s c
  let g := getRgn s r
  if g.window.isSome && g.window != some c then s
  else
    let s := modRgn s r (fun g => { g with window := some c })
    match residentOf s r with
    | none => s
    | some a =>
      if a ≠ n then trySwitch (askSwitch s r { slice := a, ctx := 0, enter := some n, since := s.now }) r
      else if (regionTab s r).all (fun e => e.2.blocks.isEmpty) && (regionDma s n r).isEmpty then s
      else trySwitch (askSwitch s r { slice := n, ctx := if (findCtx s n r 1).isSome then 0 else 1, enter := none, since := s.now }) r

/-- The regions of a channel's slice. -/
def chanRegions (s : Dev) (c : Nat) : List Nat := bitsOf 32 (getF s (fSLC_RGNS_REGIONS (chanSlice s c)))

/-- The entry whose lead begins next, and the number of its frame: the next of the present frame, else the first of the following one. -/
def leadEntry (s : Dev) (c : Nat) : Option (Nat × Nat) :=
  let r := (getCh s c).cyc
  let used := cycUsed s c
  if r.next < used.length ∧ 0 < r.frame then some (r.next, r.frame - 1) else if used.isEmpty then none else some (0, r.frame)

/-- R545: the lead of the next window begins, where it is EXCLUSIVE: every region of the slice is cleared. -/
def doWindowLead (c : Nat) (s : Dev) : Dev :=
  let r := (getCh s c).cyc
  match leadEntry s c with
  | none => s
  | some (e, k) =>
    if !cycRuns s c || r.opened.isSome || r.lead.isSome || getF s (fSLC_CYC_E_KIND c e) != 1 then s
    else
      let s := advanceTo s (frameStart s c k + entStart s c e - leadNs s c)
      let s := modCh s c (fun ch => { ch with cyc := { r with lead := some e } })
      (chanRegions s c).foldl (fun s q => leadRegion s c q) s

/-- R547: an EXCLUSIVE window has a region at its start. -/
def windowHas (s : Dev) (c r : Nat) : Bool :=
  let g := getRgn s r
  g.window == some c && g.req.isNone && residentOf s r == some (chanSlice s c)

/-- R545, R547: the next window of the frame opens. -/
def doWindowOpen (c : Nat) (s : Dev) : Dev :=
  let r := (getCh s c).cyc
  if !cycRuns s c || r.opened.isSome || r.frame == 0 then s
  else
    match (cycUsed s c).drop r.next with
    | [] => s
    | e :: _ =>
      let excl := getF s (fSLC_CYC_E_KIND c e) = 1
      let s := advanceTo s (frameStart s c (r.frame - 1) + entStart s c e)
      let s := modCh s c (fun ch => { ch with cyc := { r with next := e + 1, lead := none, opened := some e } })
      if excl then
        let s := if r.lead = some e then s else (chanRegions s c).foldl (fun s q => leadRegion s c q) s
        if (chanRegions s c).all (windowHas s c) then s
        else
          errRecord (satF s (fSLC_CYC_STAT_LATE_STARTS c) 1)
            { sev := 2, cause := 0x0012, die := 8 + chanHub c, unit := 0x0B, index := c, slice := chanSlice s c, hubO := decide (8 ≤ c), detail := e }
      else s

/-- R547: a region that an EXCLUSIVE window gave up goes to the lowest-numbered channel whose open or leading EXCLUSIVE window waits
for it. -/
def passRegion (s : Dev) (r : Nat) : Dev :=
  match (List.range 16).find? (fun c => getF s (fSLC_CYC_CFG_EN c) == 1 && (chanRegions s c).contains r
      && (match (getCh s c).cyc.opened, (getCh s c).cyc.lead with
        | some e, _ => getF s (fSLC_CYC_E_KIND c e) == 1
        | none, l => l.isSome)) with
  | some c => leadRegion s c r
  | none => s

/-- R546: saved work of a region resumes after its window: the state saved to context 0 by the window, then, once that is done,
context 1. -/
def freeRegion (s : Dev) (c r : Nat) : Dev :=
  if (getRgn s r).window ≠ some c then s
  else
    let s := passRegion (modRgn s r (fun g => { g with window := none })) r
    if (getRgn s r).window.isSome then s
    else
      let n := chanSlice s c
      let idle := (regionTab s r).all (fun e => e.2.blocks.isEmpty) && (getRgn s r).req.isNone && residentOf s r == some n
      pokeRegion (if idle && (findCtx s n r 0).isSome then restoreCtx s n r 0 else s) r

/-- R546: a command of a window ring that has not completed when its window ends. -/
def windowOverrun (s : Dev) (late : Bool) (x : Cmd) : Dev :=
  let s := satF s (fSLC_CYC_STAT_OVERRUNS x.chan) 1
  if late then modCmd s x.key (fun c => { c with late := true, window := none }) else failCmd s x.key 0x0B

/-- R546: the open window ends. -/
def doWindowClose (c : Nat) (s : Dev) : Dev :=
  let r := (getCh s c).cyc
  if !cycRuns s c then s
  else
    match r.opened with
    | none => s
    | some e =>
      let s := advanceTo s (frameStart s c (r.frame - 1) + entEnd s c e)
      let s := modCh s c (fun ch => { ch with cyc := { r with opened := none } })
      let s := (s.cmds.filter (fun x => x.chan == c && x.window == some e && x.status.isNone)).foldl (fun s x => windowOverrun s (getF s (fSLC_CYC_E_OVR c e) == 1) x) s
      (chanRegions s c).foldl (fun s q => freeRegion s c q) (reserveShort s c)

/-- R783: PW_US after a frame start, SYNC_IO is driven low. -/
def doFrameOutPulseEnd (s : Dev) : Dev :=
  if s.pins.syncOut then setF { s with now := max s.now (s.pins.syncAt + 1000 * getF s fSU_SYNCIO_PW_US), pins := { s.pins with syncOut := false } } fSU_PINS_SYNC 0 else s

/-! ## The commands -/

/-- CYCLIC_ENABLE (R544): SLC_CYCc_CFG written with EN set. -/
def execCyclicEnable (port : Fin 2) (chan : Fin 16) (data : Word) (s : State) : Out' :=
  upd s (setupWr port (offSLC_CYC_CFG chan) (data ||| BitVec.ofNat 64 (2 ^ 63)) (cycCfgEff port chan (data ||| BitVec.ofNat 64 (2 ^ 63))))
/-- FRAME_START (R543). -/
def execFrameStart (chan : Fin 16) (s : State) : Out' := upd s (doFrameStart chan)
/-- WINDOW_LEAD (R545). -/
def execWindowLead (chan : Fin 16) (s : State) : Out' := upd s (doWindowLead chan)
/-- WINDOW_OPEN (R545). -/
def execWindowOpen (chan : Fin 16) (s : State) : Out' := upd s (doWindowOpen chan)
/-- WINDOW_CLOSE (R546). -/
def execWindowClose (chan : Fin 16) (s : State) : Out' := upd s (doWindowClose chan)
/-- FRAME_OUT_PULSE_END (R783). -/
def execFrameOutPulseEnd (s : State) : Out' := upd s doFrameOutPulseEnd

end Sys2Proof.Machine
end

