-- ==== Sys2Proof/Machine/Matrix.lean ====
section
/-! DEFINITION. Sys2Proof/Machine/Matrix.lean: the matrix units (R101 to R143): MMA, ALOAD and DRAIN at issue, the two lanes,
and what each operation does to its accumulator tile, the scratchpad and the fabric when it completes. -/

namespace Sys2Proof.Machine

open Sys2Proof

/-- R111: the bits of the control word that an operation uses. -/
def xcUsed (op : Nat) : Nat := if op = 1 then 0x77F else if op = 2 then 0x3F else 0x7F07F

/-- R111: every res field and every unused field is zero. -/
def xcResZero (op : Nat) (w : Word) : Bool := Nat.land w.toNat (2 ^ 64 - 1 - xcUsed op) == 0

/-! ## Validation (R116, R117) -/

/-- R102: K of a pair of operand formats, from the wider one. -/
def pairK (a b : NumFmt) : Nat := classK (max (fmtBits a) (fmtBits b))

/-- R81: the integer path. -/
def intPath (a b : NumFmt) : Bool := !fmtIsFloat a && !fmtIsFloat b

/-- R84, R116: PASS and IACC against the operand formats. -/
def passOk (ctrl : Word) (a b : NumFmt) : Bool :=
  (if a = .fp32 ∨ b = .fp32 then a == b && xcPASS ctrl != 0 else xcPASS ctrl == 0) && (!xcIACC ctrl || intPath a b)

/-- R116: whether one descriptor is valid in a format of `w` bits with EXT_X at most `lim`. -/
def mxDescOk (d0 d1 : Word) (w lim : Nat) : Bool := descResZero d0 d1 && decide (dEXTX d1 ≤ lim) && descShapeOk d0 d1 w

/-- R116: whether an operation is valid. `odd` says that SD2 names an odd register. -/
def mxValid (ctrl a0 a1 b0 b1 : Word) (odd : Bool) : Bool :=
  xcResZero (xcOP ctrl) ctrl &&
    (match xcOP ctrl, fmtOfCode (dFMT a0) with
     | 1, some fa =>
       match fmtOfCode (dFMT b0) with
       | some fb =>
         !odd && fmtOperand fa && fmtOperand fb && passOk ctrl fa fb && dEXTX a1 == dEXTX b1
           && mxDescOk a0 a1 (fmtBits fa) (pairK fa fb - 1) && mxDescOk b0 b1 (fmtBits fb) (pairK fa fb - 1)
       | none => false
     | 2, some f => (f == .fp32 || f == .int32) && !dREUSE a0 && mxDescOk a0 a1 32 127
     | 3, some f =>
       fmtOutput f && (!xcDEST ctrl || f == .fp32 || f == .int32) && xcRND ctrl != 3 && !dREUSE a0 && mxDescOk a0 a1 (fmtBits f) 127
     | _, _ => false)

/-! ## What an MMA computes -/

/-- R101, R103: the value at position `k` of line `i` of an operand: +0 above its K extent. -/
def mmaVal (data : Nat) (d0 d1 : Word) (f : NumFmt) (i k : Nat) : Nat :=
  if dEXTX d1 < k then 0
  else if dMAJOR d0 then elemAt data (dSTRIDE d0) (fmtBits f) k i else elemAt data (dSTRIDE d0) (fmtBits f) i k

/-- R78: both chunks of one output element. -/
def mmaElem (o : MxOp) (fa fb : NumFmt) (acc i j : Nat) : Nat × ArithFlags :=
  let n := pairK fa fb / 2
  let pair (k : Nat) : Nat × Nat := (mmaVal o.dataA o.a0 o.a1 fa i k, mmaVal o.dataB o.b0 o.b1 fb j k)
  if intPath fa fb then
    let ch (base : Nat) := (List.range n).map (fun k => let p := pair (base + k); (decodeInt fa p.1, decodeInt fb p.2))
    let (x, f1) := intChunk acc (ch 0) (xcIACC o.ctrl)
    let (y, f2) := intChunk x (ch n) (xcIACC o.ctrl)
    (y, f1 ||| f2)
  else
    let ch (base : Nat) := (List.range n).map (fun k => let p := pair (base + k); (decodeVal fa p.1, decodeVal fb p.2))
    let (x, f1) := fpChunk acc (ch 0) (xcPASS o.ctrl)
    let (y, f2) := fpChunk x (ch n) (xcPASS o.ctrl)
    (y, f1 ||| f2)

/-- R72: an operand holds a reserved T2 code inside its extents. -/
def hasT2R (data : Nat) (d0 d1 : Word) (f : NumFmt) : Bool :=
  f == .t2 && (List.range (dEXTMN d1 + 1)).any (fun i => (List.range (dEXTX d1 + 1)).any (fun k => mmaVal data d0 d1 f i k == 2))

/-- R101 to R106: the tile an MMA leaves, with the flags it sets. -/
def mmaTile (o : MxOp) (t : Tile) : Tile × ArithFlags :=
  let fa := (fmtOfCode (dFMT o.a0)).getD .fp32
  let fb := (fmtOfCode (dFMT o.b0)).getD .fp32
  let base : Tab (BitVec 32) := if xcZERO o.ctrl then [] else t.words
  let (ws, fl) := (List.range (dEXTMN o.a1 + 1)).foldl (fun (acc : Tab (BitVec 32) × ArithFlags) i =>
    (List.range (dEXTMN o.b1 + 1)).foldl (fun (acc : Tab (BitVec 32) × ArithFlags) j =>
      let (x, f) := mmaElem o fa fb (tabGet (fun _ => 0) base (128 * i + j)).toNat i j
      (tabSet (fun _ => 0) acc.1 (128 * i + j) (BitVec.ofNat 32 x), acc.2 ||| f)) acc) (base, 0)
  let t2 := hasT2R o.dataA o.a0 o.a1 fa || hasT2R o.dataB o.b0 o.b1 fb
  let scales := (BitVec.ofNat 32 (dSCALE o.a1), BitVec.ofNat 32 (dSCALE o.b1))
  ({ words := ws, int := intPath fa fb,
     scl := if xcZERO o.ctrl then some scales else some (t.scl.getD scales),
     poison := (!xcZERO o.ctrl && t.poison) || o.pzA || o.pzB || o.opPoison }, if t2 then fl ||| flagT2R else fl)

/-! ## Faults at issue -/

/-- R117: the descriptor whose span, which the operation reads or writes, reaches beyond the scratchpad. A DRAIN to the fabric reads and
writes none. -/
def mxBeyond (ctrl a0 a1 b0 b1 : Word) : Option Word :=
  if xcOP ctrl = 3 ∧ xcDEST ctrl = true then none
  else if spanBeyond a0 a1 (codeBits (dFMT a0)) then some a0
  else if xcOP ctrl = 1 ∧ spanBeyond b0 b1 (codeBits (dFMT b0)) = true then some b0
  else none

/-- R138: the descriptor an error record of an invalid operation names: operand B's where the first one is valid by itself. -/
def mxBadDesc (ctrl a0 a1 b0 : Word) : Word :=
  match xcOP ctrl, fmtOfCode (dFMT a0) with
  | 1, some fa => if xcResZero 1 ctrl && fmtOperand fa && mxDescOk a0 a1 (fmtBits fa) (classK (fmtBits fa) - 1) then b0 else a0
  | _, _ => a0

/-- R139: the operations of a command that are executing complete: an MMA sets its flags, a DRAIN to the scratchpad writes its output. Their
tiles are returned to their initial state as the command stops (R143). -/
def lanesFinish (s : Dev) (key core : Nat) : Dev :=
  let c := getCore s core
  let mine (o : MxOp) : Bool := o.cmd == key
  let mma (s : Dev) (o : MxOp) : Dev := if mine o then orFlags s key (mmaTile o (getTile c (xcTILE o.ctrl))).2 else s
  let s := c.arrayLane.toList.foldl mma s
  c.xferLane.toList.foldl (fun s o =>
    if !mine o || xcOP o.ctrl != 3 || xcDEST o.ctrl then s
    else modCore (drainWrite (orFlags s key (drainFlags (getTile c (xcTILE o.ctrl)) o (cmdSeed s key))) core o) core (fun c => { c with xferLane := none })) s

/-- R138, R139: an outcome of the fault table: the command's status, with a record at the core's matrix unit that holds the address
of the descriptor's OFFSET. -/
def mxFail (s : Dev) (core key status : Nat) (d0 : Word) : Dev :=
  endCmd ((s.cores.map (fun e => e.1)).foldl (fun s k => lanesFinish s key k) s) key status
    (some { coreErr core with cause := 0x0011, unit := 0x01, addr := some (spadBase (coreCluster core) + dOFFSET d0) })

/-! ## Issue (R118, R119, R122) -/

/-- The interval of a descriptor's span in its cluster's window. -/
def spadReq (cl : Nat) (d0 d1 : Word) (w part : Nat) (dst : Bool) : TrkReq :=
  { kind := .spad, lo := spadBase cl + dOFFSET d0, hi := spadBase cl + dOFFSET d0 + dSpan d0 d1 w, va := none, part := part, dst := dst }

/-- R122: the range-tracker entries of an operation. -/
def mxRanges (core : Nat) (ctrl a0 a1 b0 b1 : Word) (ra rb : Bool) : List TrkReq :=
  let cl := coreCluster core
  match xcOP ctrl with
  | 1 => (if ra then [] else [spadReq cl a0 a1 (codeBits (dFMT a0)) 0 false]) ++ (if rb then [] else [spadReq cl b0 b1 (codeBits (dFMT b0)) 1 false])
  | 2 => [spadReq cl a0 a1 32 0 false]
  | _ => if xcDEST ctrl then [] else [spadReq cl a0 a1 (codeBits (dFMT a0)) 0 true]

/-- R136: a DRAIN to the scratchpad invalidates the held copies of which its runs write a byte. -/
def drainInval (s : Dev) (core : Nat) (a0 a1 : Word) : Dev :=
  (List.range (dOuter a0 a1)).foldl (fun s o =>
    heldInval s core (dOFFSET a0 + o * dSTRIDE a0) (dOFFSET a0 + o * dSTRIDE a0 + dRun a0 a1 (codeBits (dFMT a0)))) s

/-- R143: a command has named an accumulator tile. -/
def nameTile (s : Dev) (core key : Nat) (ctrl : Word) : Dev :=
  modCmd s key (fun c => { c with tiles := if c.tiles.contains (8 * core + xcTILE ctrl) then c.tiles else c.tiles ++ [8 * core + xcTILE ctrl] })

/-- The registers an MX names, by its operation (R110). -/
def mxUses (op : Nat) (iw : IWord) : List Nat :=
  [xSC iw, xSD1 iw, xSD1 iw + 1] ++ (if op = 1 then [xSD2 iw, xSD2 iw + 1] else if op = 3 then [xSD2 iw] else [])

/-- R118: an MX whose control word selects `op`. -/
def doMx (op : Nat) (iw : IWord) (s : Dev) : Dev :=
  issue s iw 3 [] (mxUses op iw) (fun s g =>
    if xRES iw != 0 || xSD1 iw % 2 != 0 then illegal s iw
    else if !execOnce g iw then skip s iw g
    else
      let ctrl := getS g (xSC iw)
      let a0 := getS g (xSD1 iw)
      let a1 := getS g (xSD1 iw + 1)
      let b0 := getS g (xSD2 iw)
      let b1 := getS g (xSD2 iw + 1)
      let fail (status : Nat) (d0 : Word) : Dev := mxFail (nameTile s iw.core g.cmd ctrl) iw.core g.cmd status d0
      if xcOP ctrl = 0 ∨ 3 < xcOP ctrl then fail 0x10 a0
      else if xcOP ctrl ≠ op then s
      else if !mxValid ctrl a0 a1 b0 b1 (xSD2 iw % 2 == 1) then fail 0x10 (mxBadDesc ctrl a0 a1 b0)
      else if (mxBeyond ctrl a0 a1 b0 b1).isSome then fail 0x02 ((mxBeyond ctrl a0 a1 b0 b1).getD a0)
      else
        let c := getCore s iw.core
        let ra := op == 1 && reuseMatch c true a0 a1
        let rb := op == 1 && reuseMatch c false b0 b1
        let qs := mxRanges iw.core ctrl a0 a1 b0 b1 ra rb
        if 8 ≤ c.mq.length ∨ tokCount g (xTOK iw) = 255 then s
        else if !asyncReady s iw.core qs then asyncHold s iw.core qs
        else
          let p := asyPoison g iw (mxUses op iw)
          let o : MxOp :=
            { id := s.nextKey, slot := iw.slot, cmd := g.cmd, tok := xTOK iw, ctrl := ctrl, a0 := a0, a1 := a1, b0 := b0, b1 := b1, origin := b0,
              reuseA := ra, reuseB := rb, dataA := 0, dataB := 0, pzA := false, pzB := false, staleA := false, staleB := false, opPoison := p }
          let s := trkTake s iw.core o.id g.cmd qs
          let s := if op = 3 ∧ xcDEST ctrl = false then drainInval s iw.core a0 a1 else s
          let s := modCore s iw.core (fun c => { c with mq := c.mq ++ [o] })
          let s := modCmd (nameTile s iw.core g.cmd ctrl) g.cmd (fun c => { c with poisoned := c.poisoned || p })
          putGroup { s with nextKey := s.nextKey + 1 } iw (tokRaise g.next (xTOK iw)))

/-! ## Lanes (R120, R121, R131) -/

/-- R236: whether a port is a drain input of an image: some entry has it in DRB. -/
def drainInput (image port : Nat) : Bool :=
  (List.range (nField image 55 48)).any (fun e => (image / 2 ^ (8 * (0x100 + 64 * e + 5))).testBit port)

/-- R131: whether a port is bound as a drain input of a cluster's active context. -/
def drainBound (c : Cluster) (port : Nat) : Bool := (actCtx c).valid && drainInput (actCtx c).image port

/-- R130: the beats of one outer line. -/
def lineBeats (op : MxOp) (outer : Nat) (last poison : Bool) (ws : List Nat) : List Beat :=
  (List.range (ceilDiv ws.length 16)).map (fun i =>
    let w := (ws.drop (16 * i)).take 16
    { op := op.id, cmd := op.cmd, outer := outer, inner := 16 * i, count := w.length, last := last && ceilDiv ws.length 16 == i + 1,
      poison := poison, words := w.map (fun x => BitVec.ofNat 32 x), lanePoison := w.map (fun _ => poison) })

/-- The operations of a lane that have left the queue: the array lane's with both its operand stages (R126), or the transfer lane's. -/
def laneOps (c : Core) (array : Bool) : List MxOp := if array then c.arrayLane.toList ++ c.arrayNext.toList else c.xferLane.toList

/-- R120, R121, R126: the operation that may leave the queue: the oldest of a lane with room, an operand stage for an MMA, with no older
operation on its tile in the other lane. `older` are the queued operations before it. -/
def nextStart (c : Core) (older : List MxOp) : List MxOp → Option MxOp
  | [] => none
  | o :: t =>
    let array := xcOP o.ctrl == 1
    let lane (x : MxOp) : Bool := xcOP x.ctrl == 1
    let room := decide ((laneOps c array).length < (if array then 2 else 1))
    let other := laneOps c (!array) ++ older.filter (fun x => lane x != array)
    if room && !(older.any (fun x => lane x == array)) && !(other.any (fun x => xcTILE x.ctrl == xcTILE o.ctrl)) then some o
    else nextStart c (older ++ [o]) t

/-- R101, R126, R135: an MMA's operands enter an operand stage, its range-tracker entries are released, and the sides hold them. -/
def startMma (s : Dev) (core : Nat) (o : MxOp) : Dev :=
  let c := getCore s core
  let cl := coreCluster core
  let get (reuse : Bool) (h : Option Held) (d0 d1 : Word) : Nat × Bool :=
    match reuse, h with
    | true, some x => (x.data, x.poison)
    | _, _ => tileData s cl d0 d1 (codeBits (dFMT d0))
  let (da, pa) := get o.reuseA c.heldA o.a0 o.a1
  let (db, pb) := get o.reuseB c.heldB o.b0 o.b1
  let s := trkRelease s core o.id (fun _ => true)
  let o' : MxOp := { o with dataA := da, dataB := db, pzA := pa, pzB := pb }
  modCore s core (fun c => { c with
    arrayLane := if c.arrayLane.isNone then some o' else c.arrayLane,
    arrayNext := if c.arrayLane.isNone then c.arrayNext else some o',
    heldA := some { d0 := o.a0, d1 := o.a1, data := da, poison := pa, valid := !o.staleA },
    heldB := some { d0 := o.b0, d1 := o.b1, data := db, poison := pb, valid := !o.staleB } })

/-- R130: a DRAIN to the fabric presents its beats to its port. -/
def startFabDrain (s : Dev) (core : Nat) (o : MxOp) : Dev :=
  let t := getTile (getCore s core) (xcTILE o.ctrl)
  let seed := cmdSeed s o.cmd
  let n := dOuter o.a0 o.a1
  let beats := (List.range n).flatMap (fun k =>
    lineBeats o k (k + 1 == n) (t.poison || o.opPoison) ((drainLine t (outFmt o) o seed k).map (fun x => x.1)))
  modCl s (coreCluster core) (fun c => { c with drainBeats := tabMod (fun _ => []) c.drainBeats (xcPORT o.ctrl) (fun l => l ++ beats) })

/-- R121, R131: a queued operation of a core starts in its lane. -/
def doLaneStart (core : Nat) (s : Dev) : Dev :=
  if whoaStopped s then s
  else
    match nextStart (getCore s core) [] (getCore s core).mq with
    | none => s
    | some o =>
      let s := modCore s core (fun c => { c with mq := c.mq.filter (fun x => x.id != o.id) })
      if xcOP o.ctrl = 1 then startMma s core o
      else if xcOP o.ctrl = 3 ∧ xcDEST o.ctrl = true ∧ drainBound (getCl s (coreCluster core)) (xcPORT o.ctrl) = false then
        mxFail s core o.cmd 0x0A o.a0
      else
        let s := modCore s core (fun c => { c with xferLane := some o })
        if xcOP o.ctrl = 3 ∧ xcDEST o.ctrl = true then startFabDrain s core o else s

/-! ## Completion (R124) -/

/-- R86, R125: array cycles of an MMA. -/
def mmaCycles (ctrl : Word) : Nat := if xcPASS ctrl = 2 then 1536 else if xcPASS ctrl = 3 then 2048 else 512

/-- An operation leaves its lane: its entries are released and its token falls. -/
def mxDone (s : Dev) (core : Nat) (o : MxOp) : Dev :=
  let s := trkRelease s core o.id (fun _ => true)
  pokeCore (tokenDone s core o.slot o.tok o.cmd) core

/-- R124, R141: the MMA in the array lane completes. -/
def doMmaComplete (core : Nat) (s : Dev) : Dev :=
  if whoaStopped s then s
  else
    match (getCore s core).arrayLane with
    | none => s
    | some o =>
      let (t, fl) := mmaTile o (getTile (getCore s core) (xcTILE o.ctrl))
      let s := setTile (modCore s core (fun c => { c with arrayLane := c.arrayNext, arrayNext := none })) core (xcTILE o.ctrl) t
      let s := countCore s core 0x05 (mmaCycles o.ctrl)
      let s := orFlags s o.cmd fl
      let s := if o.pzA || o.pzB || o.opPoison then markPoison s o.cmd else s
      mxDone s core o

/-- R106, R132: the tile an ALOAD leaves. -/
def aloadTile (s : Dev) (core : Nat) (o : MxOp) : Tile :=
  let (data, pz) := tileData s (coreCluster core) o.a0 o.a1 32
  let ws := (List.range (dEXTMN o.a1 + 1)).foldl (fun (t : Tab (BitVec 32)) r =>
    (List.range (dEXTX o.a1 + 1)).foldl (fun t c =>
      let e := if dMAJOR o.a0 then elemAt data (dSTRIDE o.a0) 32 c r else elemAt data (dSTRIDE o.a0) 32 r c
      tabSet (fun _ => 0) t (128 * r + c) (BitVec.ofNat 32 e)) t) []
  { words := ws, int := dFMT o.a0 == 6, scl := none, poison := pz || o.opPoison }

/-- R124: the ALOAD in the transfer lane completes. -/
def doAloadComplete (core : Nat) (s : Dev) : Dev :=
  if whoaStopped s then s
  else
    match (getCore s core).xferLane with
    | none => s
    | some o =>
      if xcOP o.ctrl ≠ 2 then s
      else
        let t := aloadTile s core o
        let s := setTile (modCore s core (fun c => { c with xferLane := none })) core (xcTILE o.ctrl) t
        let s := if t.poison then markPoison s o.cmd else s
        mxDone s core o

/-- R124: whether a fabric port has taken every beat of a DRAIN. -/
def beatsTaken (c : Cluster) (o : MxOp) : Bool := !((tabGet (fun _ => []) c.drainBeats (xcPORT o.ctrl)).any (fun b => b.op == o.id))

/-- R124, R140, R141: the DRAIN in the transfer lane completes: its output is written, or the fabric has accepted its last
beat; CLEAR returns the tile to its initial state. -/
def doDrainComplete (core : Nat) (s : Dev) : Dev :=
  if whoaStopped s then s
  else
    match (getCore s core).xferLane with
    | none => s
    | some o =>
      if xcOP o.ctrl ≠ 3 ∨ (xcDEST o.ctrl = true ∧ beatsTaken (getCl s (coreCluster core)) o = false) then s
      else
        let t := getTile (getCore s core) (xcTILE o.ctrl)
        let s := orFlags s o.cmd (drainFlags t o (cmdSeed s o.cmd))
        let s := if xcDEST o.ctrl then s else drainWrite s core o
        let s := if t.poison || o.opPoison then markPoison s o.cmd else s
        let s := modCore s core (fun c => { c with xferLane := none })
        let s := if xcZERO o.ctrl then setTile s core (xcTILE o.ctrl) Tile.init else s
        mxDone s core o

/-- MMA (R101, R118). -/
def execMma (iw : IWord) (s : State) : Out' := upd s (doMx 1 iw)
/-- ALOAD (R132, R118). -/
def execAload (iw : IWord) (s : State) : Out' := upd s (doMx 2 iw)
/-- DRAIN (R128, R118). -/
def execDrain (iw : IWord) (s : State) : Out' := upd s (doMx 3 iw)
/-- MATRIX_LANE_START (R121). -/
def execMatrixLaneStart (core : Fin 768) (s : State) : Out' := upd s (doLaneStart core)
/-- MMA_COMPLETE (R124). -/
def execMmaComplete (core : Fin 768) (s : State) : Out' := upd s (doMmaComplete core)
/-- ALOAD_COMPLETE (R124). -/
def execAloadComplete (core : Fin 768) (s : State) : Out' := upd s (doAloadComplete core)
/-- DRAIN_COMPLETE (R124). -/
def execDrainComplete (core : Fin 768) (s : State) : Out' := upd s (doDrainComplete core)

end Sys2Proof.Machine
end

