-- ==== Sys2Proof/Machine/Fabric.lean ====
section
/-! DEFINITION. Sys2Proof/Machine/Fabric.lean: the function fabric (R199 to R242): FLOAD, FSWAP and FRUN at issue, the cluster
fabric queue, contexts, and runs with their stream ports. -/

namespace Sys2Proof.Machine

open Sys2Proof

/-! ## The queue -/

/-- The error-record fields of a cluster's fabric (R239). -/
def fabErr (core : Nat) : ErrRec := { coreErr core with cause := 0x0011, unit := 0x02, core := 0xFF }

/-- R239: an outcome of the fabric-fault table. -/
def fabFail (s : Dev) (o : FabOp) (status : Nat) (addr : Option Nat) : Dev :=
  match addr with
  | none => endCmd s o.cmd status (some (fabErr o.core))
  | some va => endCmd s o.cmd status (some { fabErr o.core with addr := some (failAddr s (cmdTag s o.cmd) va).1, virt := (failAddr s (cmdTag s o.cmd) va).2 })

/-- Update the shadow context. -/
def modShadow (c : Cluster) (f : FabCtx → FabCtx) : Cluster := if c.actB then { c with ctxA := f c.ctxA } else { c with ctxB := f c.ctxB }

/-- R232: the FLOAD that may take effect: the oldest one with no FSWAP before it. -/
def nextFload (q : List FabOp) : Option FabOp := (q.takeWhile (fun o => o.kind != .fswap)).find? (fun o => o.kind == .fload)

/-- R232: a FLOAD takes effect: the shadow context is invalid from then on. -/
def fabPoke (s : Dev) (cl : Nat) : Dev :=
  modCl s cl (fun c =>
    match nextFload c.fabQ with
    | some o =>
      if o.loaded then c
      else { modShadow c (fun x => { x with valid := false }) with fabQ := updFirst (fun x => x.id == o.id) (fun x => { x with loaded := true }) c.fabQ }
    | none => c)

/-- An operation leaves the queue: entries released, token lowered. -/
def fabDone (s : Dev) (cl : Nat) (o : FabOp) : Dev :=
  let s := modCl s cl (fun c => { c with fabQ := c.fabQ.filter (fun x => x.id != o.id) })
  let s := trkRelease s o.core o.id (fun _ => true)
  fabPoke (pokeCore (tokenDone s o.core o.slot o.tok o.cmd) o.core) cl

/-- R201: an operation enters its cluster's queue of 16. -/
def fabIssue (s : Dev) (iw : IWord) (g : Group) (kind : FabKind) (arg0 arg1 origin : Word) (uses : List Nat) (qs : List TrkReq) : Dev :=
  let cl := coreCluster iw.core
  if 16 ≤ (getCl s cl).fabQ.length ∨ tokCount g (xTOK iw) = 255 then s
  else if !asyncReady s iw.core qs then asyncHold s iw.core qs
  else
    let p := asyPoison g iw uses
    let o : FabOp := { id := s.nextKey, core := iw.core, slot := iw.slot, cmd := g.cmd, tok := xTOK iw, kind := kind, arg0 := arg0, arg1 := arg1, origin := origin, poison := p, loaded := false }
    let s := trkTake s iw.core o.id g.cmd qs
    let s := modCl s cl (fun c => { c with fabQ := c.fabQ ++ [o] })
    let s := if p then markPoison s g.cmd else s
    let s := putGroup { s with nextKey := s.nextKey + 1 } iw (tokRaise g.next (xTOK iw))
    fabPoke s cl

/-- R198, R232 FLOAD. Only word 0 of SD1's pair is an operand, so the poison of the other register is not looked at (DEDUCED, log 89). -/
def doFload (iw : IWord) (s : Dev) : Dev :=
  issue s iw 3 [] [xSD1 iw, xSD1 iw + 1] (fun s g =>
    if xRES iw != 0 || xSC iw != 0 || xSD2 iw != 0 || xSD1 iw % 2 != 0 then illegal s iw
    else if !execOnce g iw then skip s iw g
    else
      let a := getS g (xSD1 iw)
      fabIssue s iw g .fload a 0 0 [xSD1 iw] [{ kind := .virt, lo := a.toNat, hi := a.toNat + 0x10000, va := none, part := 0, dst := false }])

/-- R198, R202 FSWAP. -/
def doFswap (iw : IWord) (s : Dev) : Dev :=
  issue s iw 3 [] [] (fun s g =>
    if xRES iw != 0 || xSC iw != 0 || xSD1 iw != 0 || xSD2 iw != 0 then illegal s iw
    else if !execOnce g iw then skip s iw g
    else fabIssue s iw g .fswap 0 0 0 [] [])

/-! ## Port tables (R200, R231) -/

/-- ENTRY, OUTMASK and INMASK of a run word. -/
def rENTRY (w : Word) : Nat := fld w 23 16
def rOUTMASK (w : Word) : Nat := fld w 15 8
def rINMASK (w : Word) : Nat := fld w 7 0

/-- The sixteen entries of a port table at a scratchpad offset. -/
def portTable (s : Dev) (cl off : Nat) : List (Word × Word) :=
  (List.range 16).map (fun n => (BitVec.ofNat 64 (spadNum s cl (off + 16 * n) 8), BitVec.ofNat 64 (spadNum s cl (off + 16 * n + 8) 8)))

/-- The selected ports, as table entries: input ports, then 8 plus the output ports. -/
def selPorts (w : Word) : List Nat := bitsOf 8 (rINMASK w) ++ (bitsOf 8 (rOUTMASK w)).map (fun n => 8 + n)

/-- R262: the entries of an FRUN: one per selected port whose span lies in the scratchpad. -/
def frunRanges (s : Dev) (core : Nat) (w off : Word) : List TrkReq :=
  let cl := coreCluster core
  if spadSize < off.toNat + 256 then []
  else
    let t := portTable s cl off.toNat
    (selPorts w).filterMap (fun n =>
      let (d0, d1) := ptEntry t n
      let b := codeBits (dFMT d0)
      if b = 0 ∨ spanBeyond d0 d1 b then none else some (spadReq cl d0 d1 b n (decide (8 ≤ n))))

/-- R198, R200 FRUN. -/
def doFrun (iw : IWord) (s : Dev) : Dev :=
  issue s iw 3 [] [xSC iw, xSD1 iw, xSD2 iw] (fun s g =>
    if xRES iw != 0 then illegal s iw
    else if !execOnce g iw then skip s iw g
    else
      let w := getS g (xSC iw)
      let off := getS g (xSD1 iw)
      fabIssue s iw g .frun w off (getS g (xSD2 iw)) [xSC iw, xSD1 iw, xSD2 iw] (frunRanges s iw.core w off))

/-! ## FLOAD's validation and FSWAP's effect -/

/-- R232, R233: the image of the FLOAD in effect is read and validated. -/
def doFloadValidated (cl : Nat) (s : Dev) : Dev :=
  if whoaStopped s then s
  else
    match nextFload (getCl s cl).fabQ with
    | none => s
    | some o =>
      let tag := cmdTag s o.cmd
      let va := o.arg0.toNat
      let read (s : Dev) (n : Nat) : Dev × AccRes :=
        let (s, r) := readBytesVa s (coreEntry o.core) tag va n
        (launchFor (0x400 + o.core) o.cmd s, r)
      if va % 64 ≠ 0 then fabPoke (fabFail s o 0x02 (some va)) cl
      else
        match read s 64 with
        | (s, h) =>
          if h.err.isSome then fabPoke (fabFail s o (h.err.getD 0x02) (some h.bad)) cl
          else
            let size := accNat ((h.bytes.drop 8).take 4)
            let n := if size % 64 = 0 ∧ 0x2900 ≤ size ∧ size ≤ 0x10000 then size else 64
            match read s n with
            | (s, r) =>
              if r.err.isSome then fabPoke (fabFail s o (r.err.getD 0x02) (some r.bad)) cl
              else
                let img := accNat r.bytes
                let ok := imageOk img
                let s := modCl s cl (fun c => modShadow c (fun _ => { image := img, valid := ok }))
                let s := if anyPoison r.bytes then markPoison s o.cmd else s
                if ok then fabDone s cl o else fabPoke (fabFail s o 0x0A (some va)) cl

/-- R235: whether a DRAIN is sending to the fabric of a cluster. -/
def drainSending (s : Dev) (cl : Nat) : Bool :=
  (List.range 4).any (fun i => match (getCore s (4 * cl + i)).xferLane with
    | some o => xcOP o.ctrl == 3 && xcDEST o.ctrl
    | none => false)

/-- R202, R235: the FSWAP at the head of the queue exchanges the contexts. -/
def doFswapEffect (cl : Nat) (s : Dev) : Dev :=
  if whoaStopped s then s
  else
    match (getCl s cl).fabQ with
    | [] => s
    | o :: _ =>
      if o.kind ≠ .fswap ∨ drainSending s cl then s
      else fabDone (modCl s cl (fun c => { c with actB := !c.actB })) cl o

/-! ## Runs: start (R209, R234) -/

/-- R231: whether a port-table entry is valid. -/
def portOk (d0 d1 : Word) (input : Bool) : Bool :=
  match fmtOfCode (dFMT d0) with
  | none => false
  | some f =>
    descResZero d0 d1 && !dREUSE d0 && (input || fmtOutput f) && dOFFSET d0 % 32 == 0 && dSTRIDE d0 % 32 == 0
      && (dOuter d0 d1 == 1 || (input && dSTRIDE d0 == 0) || decide (dRun d0 d1 (fmtBits f) ≤ dSTRIDE d0))

/-- R202, R234: the outcome of an FRUN's checks, in the order the rule gives; `none` when it may run. Nonzero res bits of the run word take
DESCRIPTOR_INVALID, and a port table beyond the scratchpad ACCESS_FAULT (DEDUCED, log 89). -/
def frunCheck (s : Dev) (cl : Nat) (o : FabOp) : Option Nat :=
  let x := actCtx (getCl s cl)
  let e := rENTRY o.arg0
  let img := x.image
  if !x.valid || decide (iNENT img ≤ e) then some 0x0A
  else if rINMASK o.arg0 ≠ Nat.land (eINB img e) (255 - eDRB img e) ∨ rOUTMASK o.arg0 ≠ eOUTB img e then some 0x0A
  else if (bitsOf 8 (rINMASK o.arg0)).any (drainInput img) then some 0x0A
  else if fld o.arg0 63 24 ≠ 0 ∨ o.arg1.toNat % 64 ≠ 0 then some 0x10
  else if spadSize < o.arg1.toNat + 256 then some 0x02
  else
    let t := portTable s cl o.arg1.toNat
    if (selPorts o.arg0).any (fun n => !portOk (ptEntry t n).1 (ptEntry t n).2 (decide (n < 8))) then some 0x10
    else if (selPorts o.arg0).any (fun n => spanBeyond (ptEntry t n).1 (ptEntry t n).2 (codeBits (dFMT (ptEntry t n).1))) then some 0x02
    else none

/-- R209, R220, R223: a run as it starts: the array is clear. -/
def freshRun (s : Dev) (cl : Nat) (o : FabOp) : FabRun :=
  let img := (actCtx (getCl s cl)).image
  let e := rENTRY o.arg0
  { op := o, ptab := portTable s cl o.arg1.toNat, entry := e, iter := 0, tail := if eINB img e = 0 then some (eNITER img e + eLAT img e) else none,
    pes := [], xl := [], ins := [], outs := [] }

/-- R234: the FRUN at the head of the queue is checked and starts. -/
def doFrunStart (cl : Nat) (s : Dev) : Dev :=
  if whoaStopped s then s
  else
    match (getCl s cl).fabQ, (getCl s cl).run with
    | o :: _, none =>
      if o.kind ≠ .frun then s
      else
        match frunCheck s cl o with
        | some st => fabPoke (fabFail s o st none) cl
        | none => modCl s cl (fun c => { c with run := some (freshRun s cl o) })
    | _, _ => s

/-! ## Input ports (R217, R218) -/

/-- The run-time state of an input port. -/
def getIn (r : FabRun) (p : Nat) : InPort := tabGet (fun _ => { ready := [], cur := none, doneLast := false, next := 0 }) r.ins p
def setIn (r : FabRun) (p : Nat) (x : InPort) : FabRun :=
  { r with ins := tabSet (fun _ => { ready := [], cur := none, doneLast := false, next := 0 }) r.ins p x }

/-- R74, R217: an element as an input port delivers it, with its flags: a decode sets none but T2R. A NaN or infinity of a narrow format is
the FP32 NaN or infinity (DEDUCED, log 85). -/
def inElem (f : NumFmt) (bits : Nat) : Nat × ArithFlags :=
  match f with
  | .fp32 => (bits, 0)
  | .int32 => (bits, 0)
  | .int8 => (wrapNat 32 (sextNat 8 bits), 0)
  | .int4 => (wrapNat 32 (sextNat 4 bits), 0)
  | .t2 => (wrapNat 32 (decodeInt .t2 bits), if bits = 2 then flagT2R else 0)
  | f => ((convertBits f .fp32 .rne false 0 bits).1, 0)

/-- Beats of a line, and of a tile. -/
def lineBeatCount (d0 d1 : Word) : Nat := ceilDiv (dInner d0 d1) 16
def tileBeatCount (d0 d1 : Word) : Nat := dOuter d0 d1 * lineBeatCount d0 d1

/-- R217: beat `k` of a scratchpad port's tile. -/
def spadBeat (s : Dev) (cl : Nat) (d0 d1 : Word) (k : Nat) : Beat × ArithFlags :=
  let f := (fmtOfCode (dFMT d0)).getD .fp32
  let w := fmtBits f
  let per := lineBeatCount d0 d1
  let o := k / per
  let n0 := 16 * (k % per)
  let cnt := min 16 (dInner d0 d1 - n0)
  let off := dOFFSET d0 + o * dSTRIDE d0
  let line := spadNum s cl off (dRun d0 d1 w)
  let els := (List.range cnt).map (fun i => inElem f (line / 2 ^ ((n0 + i) * w) % 2 ^ w))
  let pz := (List.range cnt).map (fun i => spadRunPoison s cl (off + (n0 + i) * w / 8) 1)
  ({ op := 0, cmd := 0, outer := o, inner := n0, count := cnt, last := k + 1 == tileBeatCount d0 d1, poison := false,
     words := els.map (fun x => BitVec.ofNat 32 x.1), lanePoison := pz }, els.foldl (fun a x => a ||| x.2) 0)

/-- R218, R219: the META word of a beat for a lane; `line` is the line length. A beat carries poison where any of its elements does (DEDUCED,
log 89). -/
def metaWord (b : Option Beat) (line lane : Nat) : Nat :=
  match b with
  | none => 2 ^ 5
  | some b =>
    (b.outer % 2 ^ 16) * 2 ^ 16 + (b.poison || b.lanePoison.any (fun x => x)).toNat * 2 ^ 4 + b.last.toNat * 2 ^ 3
      + (b.inner + b.count == line).toNat * 2 ^ 2 + (b.inner == 0).toNat * 2 + (decide (lane < b.count)).toNat

/-- R216, R240: the IN word of a beat for a lane, with its poison. -/
def inWord (b : Option Beat) (lane : Nat) : Nat × Bool :=
  match b with
  | none => (0, false)
  | some b => ((b.words.getD lane 0).toNat, b.poison || b.lanePoison.getD lane false)

/-! ## The array (R213, R214, R220) -/

def getPe (r : FabRun) (row col : Nat) : Pe := tabGet (fun _ => Pe.init) r.pes (16 * row + col)

/-- The o register of a neighbour; outside the array it reads as zero. -/
def neighbour (r : FabRun) (inside : Bool) (row col : Nat) : Nat × Bool :=
  if inside then ((getPe r row col).o.toNat, (getPe r row col).op) else (0, false)

/-- R213: the value a source code selects, with its poison. -/
def peSource (r : FabRun) (img row col w code : Nat) : Nat × Bool :=
  let pe := getPe r row col
  let port := sIPORT w
  let lane := if (eINCFG img r.entry port).testBit 0 then col else row
  if code < 8 then ((tabGet (fun _ => 0) pe.r code).toNat, tabGet (fun _ => false) pe.rp code)
  else if code = 8 then neighbour r (decide (0 < row)) (row - 1) col
  else if code = 9 then neighbour r (decide (col < 15)) row (col + 1)
  else if code = 0x0A then neighbour r (decide (row < 15)) (row + 1) col
  else if code = 0x0B then neighbour r (decide (0 < col)) row (col - 1)
  else if code < 0x10 then let x := tabGet (fun _ => ((0 : BitVec 32), false)) r.xl (4 * row + (code - 0x0C)); (x.1.toNat, x.2)
  else if code < 0x14 then let x := tabGet (fun _ => ((0 : BitVec 32), false)) r.xl (64 + 4 * col + (code - 0x10)); (x.1.toNat, x.2)
  else if code = 0x14 then inWord (getIn r port).cur lane
  else if code = 0x15 then
    let d := ptEntry r.ptab port
    (metaWord (getIn r port).cur (if (eDRB img r.entry).testBit port then eLLEN img r.entry port else dInner d.1 d.2) lane, false)
  else if code = 0x16 then (imgN img (0x500 + 4 * sCIDX w) 4, false)
  else if code = 0x18 then (pe.o.toNat, pe.op)
  else if code = 0x19 then (row, false)
  else if code = 0x1A then (col, false)
  else if code = 0x1B then (r.iter % 2 ^ 32, false)
  else (0, false)

/-- What the slots of one cycle produce: registers, express lanes, output lanes, flags, and whether a result is poisoned. -/
structure CycleRes where
  pes : Tab Pe
  xl : Tab (BitVec 32 × Bool)
  out : List (Nat × Nat × Nat × Bool)
  fl : ArithFlags
  poison : Bool
deriving DecidableEq, Repr

/-- R210, R214: one PE executes a slot: sources are read from `r`, results go to `a`. -/
def peCycle (r : FabRun) (img row col w : Nat) (a : CycleRes) : CycleRes :=
  if sOPC w = 0 then a
  else
    let n := (opcSources (sOPC w)).getD 0
    let src (i : Nat) : Nat × Bool := if i < n then peSource r img row col w (sSRC w i) else (0, false)
    let (va, pa) := src 0
    let (vb, pb) := src 1
    let (vc, pc) := src 2
    let (x, fl) := peOp img w va vb vc
    let p := pa || pb || pc || r.op.poison
    let v := BitVec.ofNat 32 x
    let pe := getPe r row col
    let pe := if sHOLD w then pe else { pe with o := v, op := p }
    let pe := if sWR w then { pe with r := tabSet (fun _ => 0) pe.r (sRD w) v, rp := tabSet (fun _ => false) pe.rp (sRD w) p } else pe
    { pes := tabSet (fun _ => Pe.init) a.pes (16 * row + col) pe,
      xl := if sXEN w then tabSet (fun _ => ((0 : BitVec 32), false)) a.xl (xlKey row col w) (v, p) else a.xl,
      out := if sOUT w then a.out ++ [(sOPORT w, outLane img r.entry row col w % 16, x % 2 ^ 32, p)] else a.out,
      fl := a.fl ||| fl, poison := a.poison || p }

/-- R220: one cycle of an iteration: every PE executes the same slot number. -/
def fabCycle (img : Nat) (a : FabRun × CycleRes) (slot : Nat) : FabRun × CycleRes :=
  let r := a.1
  let c := (List.range 256).foldl (fun c k => peCycle r img (k / 16) (k % 16) (slotW img (k / 16) (k % 16) slot) c) { a.2 with pes := r.pes, xl := r.xl }
  ({ r with pes := c.pes, xl := c.xl }, c)

/-! ## Iterations (R220 to R223) -/

/-- R220: whether a port takes a beat in the next iteration. -/
def mustTake (r : FabRun) (img p : Nat) : Bool :=
  let cfg := eINCFG img r.entry p
  r.iter == 0 || !cfg.testBit 1 ||
    (let a := getIn r (nField cfg 4 2)
     !a.doneLast && (match a.ready with
       | b :: _ => b.inner == 0
       | [] => false))

/-- R220: no port that must take a beat lacks one. -/
def canIterate (r : FabRun) (img : Nat) : Bool :=
  (bitsOf 8 (eINB img r.entry)).all (fun p => !mustTake r img p || (getIn r p).doneLast || !(getIn r p).ready.isEmpty)

/-- A port takes its next beat, or an empty one once it has delivered its LAST. -/
def takeBeat (x : InPort) : InPort :=
  if x.doneLast then { x with cur := none }
  else
    match x.ready with
    | b :: t => { x with ready := t, cur := some b, doneLast := b.last }
    | [] => x

/-- Elements an output port's tile holds. -/
def outCap (r : FabRun) (p : Nat) : Nat := let d := ptEntry r.ptab (8 + p); dOuter d.1 d.2 * dInner d.1 d.2

/-- R221: an element as an output port writes it, with its flags; `e` is its number. -/
def outElem (r : FabRun) (img p : Nat) (seed : Word) (e x : Nat) : Nat × ArithFlags :=
  let d := ptEntry r.ptab (8 + p)
  let f := (fmtOfCode (dFMT d.1)).getD .fp32
  let cfg := eOUTCFG img r.entry p
  let sat := cfg.testBit 3
  if !fmtIsFloat f then intConvert f sat (sextNat 32 x)
  else
    let E := dInner d.1 d.2
    let (i, j) := tileRC d.1 (e / E) (e % E)
    let rw := srBits seed ((oSTREAM r.op.origin + p) % 2 ^ 16) (srIndex (oROW0 r.op.origin + i) (oCOL0 r.op.origin + j))
    convertBits .fp32 f ((rndOfCode (nField cfg 2 1)).getD .rne) sat rw x

/-- R220, R222: append one iteration's lanes to an output port, in ascending lane order: the elements, their flags, and whether
the tile overran. -/
def appendPort (img : Nat) (seed : Word) (out : List (Nat × Nat × Nat × Bool)) (a : FabRun × ArithFlags × Bool) (p : Nat) : FabRun × ArithFlags × Bool :=
  (List.range 16).foldl (fun a lane =>
    match out.find? (fun x => x.1 == p && x.2.1 == lane) with
    | none => a
    | some x =>
      let (r, fl, ovr) := a
      let o := getOut r p
      if outCap r p ≤ o.n then (r, fl, true)
      else
        let (v, f) := outElem r img p seed o.n x.2.2.1
        (setOut r p { n := o.n + 1, held := o.held ++ [(v, x.2.2.2)] }, fl ||| f, ovr)) a

/-- The result of one iteration. -/
structure IterRes where
  r : FabRun
  fl : ArithFlags
  poison : Bool
  ovr : Bool
deriving DecidableEq, Repr

/-- R220, R223: one iteration. -/
def iterate (img : Nat) (seed : Word) (r : FabRun) : IterRes :=
  let ports := bitsOf 8 (eINB img r.entry)
  let taking := ports.filter (mustTake r img)
  let r1 := taking.foldl (fun r p => setIn r p (takeBeat (getIn r p))) r
  let beatPz := taking.any (fun p => match (getIn r1 p).cur with
    | some b => b.poison || b.lanePoison.any (fun x => x)
    | none => false)
  let (r2, c) := ((List.range (eII img r.entry)).map (fun j => eSBASE img r.entry + j)).foldl (fabCycle img)
    (r1, { pes := [], xl := [], out := [], fl := 0, poison := false })
  let (r3, fl, ovr) := (List.range 8).foldl (appendPort img seed c.out) (r2, c.fl, false)
  let done := ports.all (fun p => (eINCFG img r.entry p).testBit 1 || (getIn r3 p).doneLast)
  let tail := match r3.tail with
    | some n => some (n - 1)
    | none => if done && !ports.isEmpty then some (eLAT img r.entry) else none
  { r := { r3 with iter := r3.iter + 1, tail := tail }, fl := fl, poison := beatPz || c.poison, ovr := ovr }

/-- Iterate while no port stalls the fabric and the inputs have not ended (fuel: beats ready). -/
def pumpRun (img : Nat) (seed : Word) : Nat → IterRes → IterRes
  | 0, a => a
  | n + 1, a =>
    if a.ovr || a.r.tail.isSome || !canIterate a.r img then a
    else
      let b := iterate img seed a.r
      pumpRun img seed n { b with fl := a.fl ||| b.fl, poison := a.poison || b.poison }

/-- The last iterations of a run, after its inputs have ended. -/
def tailRun (img : Nat) (seed : Word) : Nat → IterRes → IterRes
  | 0, a => a
  | n + 1, a =>
    if a.ovr then a
    else
      let b := iterate img seed a.r
      tailRun img seed n { b with fl := a.fl ||| b.fl, poison := a.poison || b.poison }

/-- Account for iterations: flags and poison of the command, counts, and tracker entries of inputs that have delivered LAST. The output ports
write, so that each has room for the next iteration (log 88). -/
def noteRun (s : Dev) (cl : Nat) (before : Nat) (all : Bool) (a : IterRes) : Dev :=
  let s := if a.fl = 0 then s else orFlags s a.r.op.cmd a.fl
  let bad := (List.range 8).any (fun p => (getOut a.r p).held.any (fun x => x.2))
  let s := if a.poison || bad then markPoison s a.r.op.cmd else s
  let s := countRegion s (cl / 6) 0x46 (a.r.iter - before)
  let (s, run) := writeOuts s cl all a.r
  let s := trkRelease s a.r.op.core a.r.op.id (fun t => decide (t.part < 8) && (getIn a.r t.part).doneLast)
  modCl s cl (fun c => { c with run := some run })

/-- R222, R241: a run whose output overran: what was appended has been written, and the command ends with ACCESS_FAULT. -/
def overrun (s : Dev) (cl : Nat) (o : FabOp) : Dev := fabPoke (fabFail (modCl s cl (fun c => { c with run := none })) o 0x02 none) cl

/-- R239: an error in a fabric's storage as a run reads it: in a context, which a double-bit error makes invalid, and that of the active one
ends the run; in a processing element's register, whose value a double-bit error poisons; or in the scratchpad. -/
def meetFab (cl : Nat) (e : Option (SramPlace × Bool)) (s : Dev) : Dev :=
  match e with
  | none => s
  | some (.scratch g, double) => sramSpad s cl g double
  | some (.element pe reg, double) =>
    let bad (p : Pe) : Pe := if reg.val = 8 then { p with op := true } else { p with rp := tabSet (fun _ => false) p.rp reg true }
    let s := if double then modCl s cl (fun c => { c with run := c.run.map (fun r => { r with pes := tabMod (fun _ => Pe.init) r.pes pe bad }) }) else s
    sramRec s { fabErr (4 * cl) with core := 0xFF } double
  | some (.context, false) => sramRec s (fabErr (4 * cl)) false
  | some (.context, true) =>
    let s := modCl s cl (fun c => if c.actB then { c with ctxB := { c.ctxB with valid := false } } else { c with ctxA := { c.ctxA with valid := false } })
    match (getCl s cl).run with
    | some r => fabPoke (fabFail s r.op 0x0A none) cl
    | none => s
  | some _ => s

/-- R236: whether an input port of a run still accepts beats. -/
def portOpen (x : InPort) : Bool := !x.doneLast && x.ready.isEmpty

/-- R220, R236: the next beat arrives at an input port, and the fabric iterates until a port lacks one. -/
def doFabricBeat (cl port : Nat) (s : Dev) : Dev :=
  if whoaStopped s then s
  else
    match (getCl s cl).run with
    | none => s
    | some r =>
      let img := (actCtx (getCl s cl)).image
      let x := getIn r port
      if !(eINB img r.entry).testBit port || !portOpen x || r.tail.isSome then s
      else
        let go (s : Dev) (r : FabRun) (fl : ArithFlags) : Dev :=
          let a := pumpRun img (cmdSeed s r.op.cmd) 2 { r := r, fl := fl, poison := false, ovr := false }
          let s := noteRun s cl r.iter a.ovr a
          if a.ovr then overrun s cl a.r.op else s
        if (eDRB img r.entry).testBit port then
          match tabGet (fun _ => []) (getCl s cl).drainBeats port with
          | [] => s
          | b :: rest =>
            let s := modCl s cl (fun c => { c with drainBeats := tabSet (fun _ => []) c.drainBeats port rest })
            go s (setIn r port { x with ready := [b] }) 0
        else
          let d := ptEntry r.ptab port
          let (b, fl) := spadBeat s cl d.1 d.2 x.next
          go s (setIn r port { x with ready := [b], next := x.next + 1 }) fl

/-- R223, R224: a run whose inputs have ended executes its last iterations, writes its outputs and completes. -/
def doRunEnd (cl : Nat) (s : Dev) : Dev :=
  if whoaStopped s then s
  else
    match (getCl s cl).run with
    | none => s
    | some r =>
      match r.tail with
      | none => s
      | some n =>
        let img := (actCtx (getCl s cl)).image
        let a := tailRun img (cmdSeed s r.op.cmd) n { r := r, fl := 0, poison := false, ovr := false }
        let s := noteRun s cl r.iter true a
        if a.ovr then overrun s cl a.r.op
        else fabDone (modCl s cl (fun c => { c with run := none })) cl r.op

/-- FLOAD (R232). -/
def execFload (iw : IWord) (s : State) : Out' := upd s (doFload iw)
/-- FLOAD_VALIDATED (R233). -/
def execFloadValidated (cl : Fin 192) (s : State) : Out' := updM s (doFloadValidated cl)
/-- FSWAP (R235). -/
def execFswap (iw : IWord) (s : State) : Out' := upd s (doFswap iw)
/-- FSWAP_EFFECT (R235). -/
def execFswapEffect (cl : Fin 192) (s : State) : Out' := upd s (doFswapEffect cl)
/-- FRUN (R200). -/
def execFrun (iw : IWord) (s : State) : Out' := upd s (doFrun iw)
/-- FRUN_START (R234). -/
def execFrunStart (cl : Fin 192) (s : State) (sram : Option (SramPlace × Bool) := none) : Out' := upd s (fun d => doFrunStart cl (meetFab cl sram d))
/-- FABRIC_BEAT (R220). -/
def execFabricBeat (cl : Fin 192) (port : Fin 8) (s : State) (sram : Option (SramPlace × Bool) := none) : Out' :=
  upd s (fun d => doFabricBeat cl port (meetFab cl sram d))
/-- RUN_END (R223). -/
def execRunEnd (cl : Fin 192) (s : State) (sram : Option (SramPlace × Bool) := none) : Out' := upd s (fun d => doRunEnd cl (meetFab cl sram d))

end Sys2Proof.Machine
end

