-- ==== Sys2Proof/Machine/HostPorts.lean ====
section
/-! DEFINITION. Sys2Proof/Machine/HostPorts.lean: what arrives on a host port beside set-up writes and doorbells (R455 to R457, R476,
R495, R522): accesses through BAR4, ATS and PRI messages, configuration writes, and completion timeouts. -/

namespace Sys2Proof.Machine

open Sys2Proof

/-! ## BAR4 (R62, R64, R285, R357, R400) -/

/-- R576: a BAR4 access to the window of a POWER_GATED region wakes the region. -/
def wakeWindow (s : Dev) (pa : Nat) : Dev :=
  match placeOf s pa with
  | .spad cl _ => wakeRegion s (cl / 6)
  | _ => s

/-- R62: a BAR4 access that the memory system refuses: no effect but its error record. -/
def bar4Error (s : Dev) (port pa : Nat) : Dev :=
  errRecord s { sev := 2, cause := 0x0011, addr := some pa, die := 8 + port, unit := 0x0A, index := port, slice := 0x10, hubO := port == 1 }

/-- R357, R400: a host write reaches the homes of its lines with the manager's tag. -/
def bar4Write (port pa : Nat) (data : List Byte) (s : Dev) : Dev :=
  let (s, w) := writeBytesVa (wakeWindow s pa) none 0x10 0 pa (data.map (fun b => (b, false)))
  let s := countHub s port 0xC1 data.length
  if w.err.isSome then bar4Error s port pa else launch (0x200 + port) s

/-- R285, R400: a host read is served at the homes of its lines; a refused one returns no data (log 18). -/
def bar4Read (port pa n : Nat) (s : Dev) : Dev :=
  let (s, r) := readBytesVa (wakeWindow s pa) none 0x10 pa n
  let s := launch (0x200 + port) s
  if r.err.isSome then emit (bar4Error s port pa) (.readData port [] false)
  else emit s (.readData port (r.bytes.map (fun b => b.1)) (anyPoison r.bytes))

/-- R695: BAR4 requests of a stopped module are held until resume. -/
def doBar4Write (port pa : Nat) (data : List Byte) (s : Dev) : Dev :=
  if !portUp s port then s
  else if whoaStopped s then { s with obs := { s.obs with heldBar4 := s.obs.heldBar4 ++ [(port, pa, some data, data.length)] } }
  else bar4Write port pa data s
def doBar4Read (port pa n : Nat) (s : Dev) : Dev :=
  if !portUp s port then s
  else if whoaStopped s then { s with obs := { s.obs with heldBar4 := s.obs.heldBar4 ++ [(port, pa, none, n)] } }
  else bar4Read port pa n s

/-! ## ATS and PRI (R455, R476) -/

/-- R455: the host invalidates translations of a PASID: entries whose page lies in the range leave the port's cache, and the
invalidation is completed. -/
def doAtsInvalidation (port pasid page n : Nat) (s : Dev) : Dev :=
  if !portUp s port then s
  else
    emit (modPort s port (fun x => { x with atc := x.atc.filter (fun e => !(e.1 == pasid && decide (page ≤ e.2) && decide (e.2 < page + n))) })) (.ats port 1 pasid)

/-- The reads of a port's rings that wait for a page request: channel, ring. -/
def priWaiters (s : Dev) (port : Nat) (k : Nat × Nat) : List (Nat × FetchRead) :=
  (List.range 16).flatMap (fun c => ((getCh s c).reads.filter (fun r => r.pri && portOf (getF s (fCH_SQ_CFG_PORT c r.ring)) == port
    && getF s (fCH_SQ_CFG_PASID c r.ring) == k.1 && ringPage s c r.ring r.index == k.2)).map (fun r => (c, r)))

/-- R476: the host answers a page request: the reads that waited for it are issued, or their rings fail. -/
def doPageRequestResponse (port pasid page : Nat) (ok : Bool) (s : Dev) : Dev :=
  let k := (pasid, page)
  if !(getPort s port).pageReqs.contains k then s
  else
    let w := priWaiters s port k
    let s := modPort s port (fun x => { x with pageReqs := x.pageReqs.filter (fun e => e != k) })
    if ok then
      w.foldl (fun s e => emit (modCh s e.1 (fun ch => { ch with reads := updFirst (fun r => r == e.2) (fun r => { r with pri := false }) ch.reads }))
        (.fetch port e.1 e.2.ring e.2.index e.2.count)) (atcPut s port k)
    else w.foldl (fun s e => fetchFails s e.1 e.2.ring) s

/-! ## Completion timeouts -/

/-- R476, R522: a read on a host port reaches the port's completion timeout. A ring's fetch fails; a core's load ends with poison, whose
value the manual leaves open (log 19). -/
def doHostCompletionTimeout (r : HostRead) (s : Dev) : Dev :=
  match r with
  | .fetch c n => fetchFails s c n
  | .load core id =>
    match (getCore s core).reqs.find? (fun q => q.id == id) with
    | none => s
    | some q =>
      match placeOf s (q.line * 512) with
      | .host _ _ =>
        if q.served then s
        else
          let d := (List.range 8).foldl (fun d i => putSector d i (Config.poisonData (s.free + i))) (0 : LineData)
          answerRead { s with free := s.free + 8 } core q { data := d, poison := q.sectors, err := none }
      | _ => s

/-! ## Configuration space and MSI-X (R455, R456, R495) -/

/-- R455, R456: a configuration write acts on its port alone. -/
def doConfigurationWrite (port : Nat) (w : CfgWrite) (s : Dev) : Dev :=
  if !portUp s port then s
  else
    modPort s port (fun x => match w with
      | .msixEnable fn on => { x with msixEn := putBit x.msixEn fn on }
      | .maskVector vf v => { x with msixOff := if x.msixOff.contains (vecKey (vf.map Fin.val) v) then x.msixOff else x.msixOff ++ [vecKey (vf.map Fin.val) v] }
      | .vfEnable on => { x with vfEn := on }
      | .atomicEnable on => { x with atomicEn := on })

/-- R495: a vector is unmasked: a pending message is sent. -/
def doMsixVectorUnmask (port : Nat) (vf : Option (Fin 16)) (v : Nat) (s : Dev) : Dev :=
  let k := vecKey (vf.map Fin.val) v
  if !portUp s port ∨ !(getPort s port).msixOff.contains k then s
  else
    let pend := (getPort s port).pendingVec.contains k
    let s := modPort s port (fun x => { x with msixOff := x.msixOff.filter (fun e => e != k), pendingVec := x.pendingVec.filter (fun e => e != k) })
    if pend then sendMsix s port (vf.map Fin.val) v else s

/-! ## The commands -/

/-- BAR4_WRITE (R357): a host's write of bytes at a device physical address, and what storage shows. -/
def execBar4Write (port : Fin 2) (addr : Nat) (data : List Byte) (s : State) (flaw : Flaw := .none) : Out' := updM s (withFlaw flaw (doBar4Write port addr data))
/-- BAR4_READ (R285). -/
def execBar4Read (port : Fin 2) (addr len : Nat) (s : State) (flaw : Flaw := .none) : Out' := updM s (withFlaw flaw (doBar4Read port addr len))
/-- ATS_INVALIDATION (R455): a PASID, first host page and number of pages. -/
def execAtsInvalidation (port : Fin 2) (pasid page count : Nat) (s : State) : Out' := upd s (doAtsInvalidation port pasid page count)
/-- PAGE_REQUEST_RESPONSE (R476). -/
def execPageRequestResponse (port : Fin 2) (pasid page : Nat) (ok : Bool) (s : State) : Out' := upd s (doPageRequestResponse port pasid page ok)
/-- HOST_COMPLETION_TIMEOUT (R522). -/
def execHostCompletionTimeout (r : HostRead) (s : State) : Out' := updM s (doHostCompletionTimeout r)
/-- CONFIGURATION_WRITE (R456). -/
def execConfigurationWrite (port : Fin 2) (w : CfgWrite) (s : State) : Out' := upd s (doConfigurationWrite port w)
/-- MSIX_VECTOR_UNMASK (R495). -/
def execMsixVectorUnmask (port : Fin 2) (vf : Option (Fin 16)) (v : Fin 2048) (s : State) : Out' := upd s (doMsixVectorUnmask port vf v)

end Sys2Proof.Machine
end

