-- ==== Sys2Proof/Machine/Links.lean ====
section
/-! DEFINITION. Sys2Proof/Machine/Links.lean: the die links and the bays (R419 to R454, R599): training, lane repair, bay
admission, binding and bay requests. -/

namespace Sys2Proof.Machine

open Sys2Proof

/-! ## Start-up bookkeeping that the links share with the other Halter steps (R619) -/

/-- A link is UP or FAILED. -/
def linkSettled (s : Dev) (l : Nat) : Bool := decide (2 ≤ getF s (fDL_LINK_STATE l))

/-- A link is UP. -/
def linkUp (s : Dev) (l : Nat) : Bool := getF s (fDL_LINK_STATE l) == 2

/-- R427: the hub reaches its Halter region's die: by its own link, or by the route over its other link. -/
def halterReach (s : Dev) (hub : Nat) : Bool :=
  if hub = 0 then linkUp s 0 || (linkUp s 1 && linkUp s 4) else linkUp s 12 || (linkUp s 13 && linkUp s 11)

/-- R622: a hub has lost every route to its Halter region. -/
def halterGone (s : Dev) (hub : Nat) : Bool :=
  !halterReach s hub && (if hub = 0 then linkSettled s 0 && linkSettled s 1 && linkSettled s 4 else linkSettled s 12 && linkSettled s 13 && linkSettled s 11)

/-- R619, R624: Halter steps 4 and 9 are reached when the regions they name have been tested, or can't be; once steps 5 to 10 are complete,
Saddled step 1 begins. -/
def halterWork (s : Dev) : Dev :=
  let past (r : Nat) : Bool := s.su.tested.getLsbD r || dieLost s (r / 4)
  let s := if (past 0 || halterGone s 0) && (past 16 || halterGone s 1) then noteStep s 4 else s
  let s := if (List.range 32).all (fun r => r == 0 || r == 16 || past r) then noteStep s 9 else s
  if s.su.begun && stage s == 1 && [5, 6, 7, 8, 9, 10].all (stepDone s) then noteStep s 12 else s

/-- R426, R427, R619: Halter step 3 is reached when links 0 and 12 have settled and, where one has failed, the hub's other route has too; step 6, and step 10, which measures the timestamp
offsets, when every link that trains has. -/
def linkSteps (s : Dev) : Dev :=
  let way (h : Nat) : Bool := halterReach s h || halterGone s h
  let s := if linkSettled s 0 && linkSettled s 12 && way 0 && way 1 then noteStep s 3 else s
  halterWork <| if (List.range 14).all (linkSettled s) && [0, 1].all (fun b => getF s (fDL_BAY_STATUS_STATE b) != 2 || linkSettled s (14 + b)) then noteStep (noteStep s 6) 10 else s

/-- R622: a half whose hub has lost every route to its Halter region has none. -/
def halterShow (s : Dev) : Dev :=
  let s := if halterGone s 0 then setF s fSU_STATUS_HALTER_N 0 else s
  if halterGone s 1 then setF s fSU_STATUS_HALTER_O 0 else s

/-- R623: a compute die is lost before Saddled: no drop (R635). -/
def dieLostEarly (s : Dev) (d : Nat) : Dev :=
  if dieLost s d then s
  else
    let s := (dieLinks d).foldl failLink s
    let s := setF s fFLT_HEALTH_DIES_LOST (Nat.lor (getF s fFLT_HEALTH_DIES_LOST) (2 ^ d))
    let s := setF s fSU_STATUS_DIES_OK (Nat.land (getF s fSU_STATUS_DIES_OK) (255 - 2 ^ d))
    let s := setF s fMT_STATUS_STACK_OK (Nat.land (getF s fMT_STATUS_STACK_OK) (65535 - 3 * 2 ^ (2 * d)))
    let s := (List.range 4).foldl (fun s i => setReg s (offSLC_RGN (4 * d + i)) (BitVec.ofNat 64 (3 * 2 ^ 62))) s
    showTap (noteReplace (errRecord s { sev := 3, cause := 0x0062, die := d, replace := true }) 1)

/-! ## Bays that fail (R431, R443) -/

/-- R443: a bay enters FAILED: its rights end, and a BAY_FAILED record is produced. -/
def bayFails (s : Dev) (b : Nat) : Dev :=
  if getF s (fDL_BAY_STATUS_STATE b) ≠ 2 then s
  else
    let s := showRights (setF s (fDL_BAY_STATUS_STATE b) 3) b
    let s := setF s fFLT_HEALTH_HUBS_BAYS (Nat.lor (getF s fFLT_HEALTH_HUBS_BAYS) (2 ^ (2 + b)))
    showTap (noteReplace (errRecord s { sev := 2, cause := 0x0024, die := 10 + b, unit := 0x0D, index := b, replace := true, hubO := b == 1 }) 6)

/-- R431: a link is FAILED. A bay's link fails its bay; a link of the package drops the domain, but not before Saddled (R635). -/
def linkFails (s : Dev) (l : Nat) : Dev :=
  if 14 ≤ l then bayFails (failLink s l) (l - 14)
  else if stage s = 2 then domainDrop s { Drop.none with kind := 3, link := some l }
  else
    let n := getF s (fDL_LINK_MODULES l)
    let s := failLink s l
    let s := noteReplace (errRecord s { sev := 3, cause := 0x0022, unit := 0x09, index := l, replace := true, detail := n }) 3
    let (a, b) := linkEnds l
    let s := [a, b].foldl (fun s d => if d < 8 ∧ (dieLinks d).all (fun x => getF s (fDL_LINK_STATE x) == 3) = true then dieLostEarly s d else s) s
    halterShow s

/-! ## Training (R422 to R428) -/

/-- RATE codes a die advertises (R422): compute dies, hubs, and a bay by its descriptor. -/
def advRates (s : Dev) (d : Nat) : List Nat :=
  if d < 8 then [1, 2, 3, 4, 5]
  else if d < 10 then [1, 2, 3]
  else
    let w := reg s (offDL_BAY_DESC (d - 10) 1)
    [1, 2, 3].filter (fun c => w.getLsbD (40 + (c - 1)))

/-- The UCIe version a die advertises, 2 or 3. -/
def advVersion (s : Dev) (d : Nat) : Nat :=
  if d < 8 then 3 else if d < 10 then 2 else if fld (reg s (offDL_BAY_DESC (d - 10) 1)) 39 32 < 0x30 then 2 else 3

/-- R424: the allowed rates of a link, highest first. -/
def allowedRates (l : Nat) : List Nat := if 14 ≤ l then [3, 1] else if l = 0 ∨ l = 1 ∨ l = 12 ∨ l = 13 then [3, 2, 1] else [5, 4, 3]

/-- Modules of a link (R420). -/
def linkModules (l : Nat) : Nat := if 14 ≤ l then 4 else 12

/-- R423: the rate a link trains at. -/
def trainRate (s : Dev) (l : Nat) (t : LinkTrain) : Option Nat :=
  let (a, b) := linkEnds l
  let top := if min (advVersion s a) (advVersion s b) = 3 then 5 else 3
  (allowedRates l).find? (fun r => (advRates s a).contains r && (advRates s b).contains r && decide (r ≤ top) && t.rates.getLsbD (r - 1))

/-- R423 to R428: a link of Halter trains. A bay's link trains only where the bay is ADMITTED (R434). -/
def doLinkTraining (l : Nat) (t : LinkTrain) (s : Dev) : Dev :=
  if !s.su.begun || linkSettled s l || (decide (14 ≤ l) && getF s (fDL_BAY_STATUS_STATE (l - 14)) != 2) then s
  else
    let rev := l == 6 || l == 7
    match (if t.reversed && !rev then none else trainRate s l t) with
    | none => linkSteps (linkFails s l)
    | some r =>
      let (a, b) := linkEnds l
      let gen := if min (advVersion s a) (advVersion s b) = 3 then 2 else 1
      let feats := decide (a < 8) && decide (b < 8)
      let s := setReg s (offDL_LINK l) (BitVec.ofNat 64 (2 * 2 ^ 62 + gen * 2 ^ 60 + r * 2 ^ 56 + rev.toNat * 2 ^ 55 + feats.toNat * 2 ^ 49 + feats.toNat * 2 ^ 48
        + getF s (fDL_LINK_REPAIRS l) * 2 ^ 40 + (2 ^ linkModules l - 1)))
      let s := if some r = (allowedRates l).head? then s
        else noteReplace (errRecord s { sev := 0, cause := 0x0021, unit := 0x09, index := l, replace := true, detail := r }) 4
      linkSteps s

/-! ## Lane repair (R429 to R431) -/

/-- R431: fewer modules are in service than the link needs. -/
def linkShort (s : Dev) (l : Nat) : Bool :=
  let n := (bitsOf 12 (getF s (fDL_LINK_MODULES l))).length
  if 14 ≤ l then decide (n < getF s fDL_CFG_BAY_MIN_MOD) else decide (n < getF s fDL_CFG_MIN_MOD)

/-- R429, R431: steps 2 to 4 on one module. The link fails where the modules left while it is out of the stripe are too few
(DEDUCED, log 40). -/
def repairModule (s : Dev) (l m : Nat) (r : ModTrain) : Dev :=
  let mods := Nat.land (getF s (fDL_LINK_MODULES l)) (4095 - 2 ^ m)
  let x8 := Nat.land (getF s (fDL_LINK_X8 l)) (4095 - 2 ^ m)
  let s := setF (setF s (fDL_LINK_MODULES l) mods) (fDL_LINK_X8 l) x8
  if linkShort s l then linkFails s l
  else if r = .off then s
  else
    let s := setF (setF s (fDL_LINK_MODULES l) (mods + 2 ^ m)) (fDL_LINK_X8 l) (if r = .x8 then x8 + 2 ^ m else x8)
    errRecord (satF s (fDL_LINK_REPAIRS l) 1) { sev := 0, cause := 0x0020, unit := 0x09, index := l, detail := m + (if r = .x8 then 16 else 0) }

/-- R421, R429: a module of an UP link meets its trigger: CRC errors above the threshold, or a failed lane. Its unacknowledged flits are
sent again on other modules; a flit undelivered after eight attempts fails the link. -/
def doLaneRepair (l m : Nat) (c : RepairCause) (resends : Nat) (undelivered : Bool) (r : ModTrain) (s : Dev) : Dev :=
  if !linkUp s l || !(getF s (fDL_LINK_MODULES l)).testBit m then s
  else
    let s := match c with
      | .crc n => satF s (fDL_LINK_ERR_CRC l) n.toNat
      | .lane => s
    let acts := match c with
      | .crc n => decide (getF s fDL_CFG_REPAIR_THR < n.toNat)
      | .lane => true
    if !acts then s
    else
      let s := satF s (fDL_LINK_ERR_RESENDS l) resends
      if undelivered then linkFails s l else repairModule s l m r

/-- R451: the effect of a write of DL_LINKn_CTL; `r` is how a module that retrains comes out. -/
def linkCtlEff (port l : Nat) (data : Word) (r : ModTrain) (s : Dev) : Dev :=
  let s := writeReg s (offDL_LINK_CTL l) data
  let m := fld data 19 16
  if data.getLsbD 0 then
    if linkUp s l && decide (m < linkModules l) then repairModule s l m r else setupError s port (offDL_LINK_CTL l)
  else s

/-- How a module retrains where no event says it (log 26). -/
def freeTrain (s : Dev) : ModTrain := match Config.modTrain s.free with
  | 0 => .x16
  | 1 => .x8
  | _ => .off

/-! ## Admission (R434 to R437) -/

/-- Bytes `[o, o + n)` of a descriptor as a number. -/
def descNat (d : BitVec 4096) (o n : Nat) : Nat := nField d.toNat (8 * (o + n) - 1) (8 * o)

/-- R437: the refusal cause of a descriptor, or none; `list` is the digest of the running firmware's revocation list. -/
def bayCause (d : BitVec 4096) (list : Nat) : Option Nat :=
  if descNat d 0 4 ≠ 0x4E594142 ∨ descNat d 4 2 ≠ 1 ∨ descNat d 0x12 2 ≠ 0 ∨ descNat d 0x160 160 ≠ 0
      ∨ 15 < descNat d 0x10 1 ∨ descNat d 0x11 1 < 2 ∨ 32 < descNat d 0x11 1 ∨ 16 ≤ descNat d 0x14 4 then some 1
  else if Config.ecdsaOk 4 (Config.sha384 256 (descNat d 0 256)) (descNat d 0x100 96) = false ∨ descNat d 0x18 4 = 0
      ∨ Config.bayRevoked list (descNat d 0x18 4) = true then some 2
  else if descNat d 0x0F 1 = 0 ∨ 20 < descNat d 0x0F 1 then some 3
  else if descNat d 0x0C 1 < 0x20 ∨ (descNat d 0x0D 1).testBit 2 = false ∨ descNat d 0x0E 1 ≠ 4 then some 4
  else none

/-- R454: the descriptor's words as read. -/
def showDesc (s : Dev) (b : Nat) (d : BitVec 4096) : Dev :=
  (List.range 64).foldl (fun s w => setReg s (offDL_BAY_DESC b w) (BitVec.ofNat 64 (d.toNat / 2 ^ (64 * w)))) s

/-- A bay is refused, with its record; on a VT-8850-L1B it requests replacement (R660). -/
def bayRefused (s : Dev) (b cause : Nat) : Dev :=
  let lb := getF s fID_PART_PART == 2
  let s := setF (setF s (fDL_BAY_STATUS_STATE b) 1) (fDL_BAY_STATUS_CAUSE b) cause
  let s := errRecord s { sev := 2, cause := 0x0023, die := 10 + b, unit := 0x0D, index := b, replace := lb, hubO := b == 1, detail := cause }
  if lb then noteReplace s 6 else s

/-- R434: at Stand the hub's Bridle reads a bay's descriptor; `none` is no answer within 100 ms, as an empty position gives
(R4, R499). -/
def doBayAdmission (b : Nat) (desc : Option (BitVec 4096)) (list : Nat) (s : Dev) : Dev :=
  if !s.su.powered || s.su.begun || stage s != 0 then s
  else
    let s := { s with bays := tabSet (fun _ => BayRun.init) s.bays b BayRun.init }
    match (if (getF s fID_PART_BAYS).testBit b then desc else none) with
    | none => if getF s fID_PART_PART = 2 then bayRefused s b 5 else setReg s (offDL_BAY_STATUS b) 0
    | some d =>
      let s := setF (showDesc s b d) (fDL_BAY_STATUS_RIGHTS_REQ b) (descNat d 0x14 4 % 16)
      match bayCause d list with
      | some c => bayRefused s b c
      | none =>
        { (setF (setF s (fDL_BAY_STATUS_STATE b) 2) (fDL_BAY_STATUS_CAUSE b) 0) with bays := tabSet (fun _ => BayRun.init) s.bays b { admitted := true, lastBound := none } }

/-! ## Binding (R442, R453) -/

/-- R442, R453: the effect of a write of DL_BAYb_CTL. -/
def bayCtlEff (port b : Nat) (data : Word) (s : Dev) : Dev :=
  let off := offDL_BAY_CTL b
  let was := getF s (fDL_BAY_CTL_BIND b)
  let run := tabGet (fun _ => BayRun.init) s.bays b
  let slice := if was = 0 then fld data 19 16 else getF s (fDL_BAY_CTL_SLICE b)
  if data.getLsbD 8 && was == 0 && (match run.lastBound with
      | some n => n != slice
      | none => false) then setupError s port off
  else
    let s := writeRegBy s off data (fun f => !(was == 1 && f.lsb == 16))
    let last := if data.getLsbD 8 then some slice else if data.getLsbD 0 then none else run.lastBound
    showRights { s with bays := tabSet (fun _ => BayRun.init) s.bays b { run with lastBound := last } } b

/-! ## Requests (R438 to R441) -/

/-- R440: an error response, with a record that names the bound slice. -/
def bayError (s : Dev) (b slice : Nat) (va : Option Nat) : Dev :=
  emit (errRecord s { sev := 2, cause := 0x0011, addr := va.map (fun a => (failAddr s slice a).1), virt := (va.map (fun a => (failAddr s slice a).2)).getD false, die := 10 + b, unit := 0x0D, index := b, slice := slice, hubO := b == 1 })
    (.bay b true [] false)

/-- Where a bay's request may land (R439): memory and the slice's scratchpad windows, and the host window of its port with HOST. -/
def bayTarget (s : Dev) (b n rights : Nat) (pa : Nat) (attr : PageAttr) (red : Bool) : Bool :=
  !deadPlace s pa attr && (match placeOf s pa with
    | .tier => true
    | .spad cl _ => spadOwner s n cl
    | .host p _ => p == b && rights.testBit 3 && !red
    | _ => false)

/-- R438, R439: a request of an ADMITTED bay whose link is UP is performed within its rights. -/
def bayServe (b n rights : Nat) (q : BayReq) (s : Dev) : Dev :=
  match q with
  | .read va len =>
    if !rights.testBit 0 || len.val == 0 || decide (64 < va % 64 + len.val) then bayError s b n (some va)
    else
      match translate s n va false with
      | (s, .ok pa attr) =>
        if !bayTarget s b n rights pa attr false then bayError s b n (some va)
        else
          let (s, r) := readPa s none n pa len.val attr
          if r.err.isSome then bayError s b n (some va) else emit s (.bay b false (r.bytes.map (fun x => x.1)) (anyPoison r.bytes))
      | (s, _) => bayError s b n (some va)
  | .write va data mask =>
    if !rights.testBit 1 || mask == 0 || va % 64 != 0 then bayError s b n (some va)
    else
      match translate s n va true with
      | (s, .ok pa attr) =>
        if !bayTarget s b n rights pa attr false then bayError s b n (some va)
        else
          let i := pa % 512 / 64
          let (s, w) := writePa s none n pa attr (putSector 0 i data) (mask.toNat * 2 ^ (64 * i)) 0 noThread 0
          if w.err.isSome || w.lost then bayError s b n (some va) else emit s (.bay b false [] false)
      | (s, _) => bayError s b n (some va)
  | .red va dt data mask =>
    let es := redBytes dt.val
    let sel := (List.range (64 / es)).filter (fun k => nField mask.toNat (es * k + es - 1) (es * k) == 2 ^ es - 1)
    let whole := decide (sel.length * es = (bitsOf 64 mask.toNat).length)
    if !rights.testBit 2 || mask == 0 || va % 64 != 0 || decide (6 ≤ dt.val) || !whole then bayError s b n (some va)
    else
      match translate s n va true with
      | (s, .ok pa attr) =>
        if !bayTarget s b n rights pa attr true then bayError s b n (some va)
        else
          let base := pa % 512 / 64 * 64
          let ops := sel.map (fun k => (base + es * k, nField data.toNat (8 * (es * k + es) - 1) (8 * es * k)))
          match placeOf s pa with
          | .spad cl o =>
            let (s, _, _) := spadRmw s cl o (redMask dt.val ops) 0 noThread (redLine 0 dt.val ops)
            emit s (.bay b false [] false)
          | _ =>
            let (s, _, w) := applyReduce s none n pa attr 0 dt.val ops false
            if w.err.isSome || w.lost then bayError s b n (some va) else emit s (.bay b false [] false)
      | (s, _) => bayError s b n (some va)

/-- R439, R442: a bay's request arrives. A bay that is not bound, or whose slice is being quiesced, gets an error response. -/
def doBayRequest (b : Nat) (q : BayReq) (s : Dev) : Dev :=
  if whoaStopped s || getF s (fDL_BAY_STATUS_STATE b) != 2 || !linkUp s (14 + b) then s
  else
    let n := getF s (fDL_BAY_CTL_SLICE b)
    if getF s (fDL_BAY_CTL_BIND b) = 0 then bayError s b 0xFF none
    else if getF s (fSLC_CTL_STATE n) ≠ 2 then emit s (.bay b true [] false)
    else bayServe b n (getF s (fDL_BAY_STATUS_RIGHTS b)) q s

/-! ## The commands -/

/-- LINK_TRAINING (R423). -/
def execLinkTraining (link : Fin 16) (found : LinkTrain) (s : State) : Out' := updM s (doLinkTraining link found)
/-- LANE_REPAIR (R429). -/
def execLaneRepair (link : Fin 16) (module : Fin 12) (cause : RepairCause) (resends : BitVec 32) (undelivered : Bool) (result : ModTrain) (s : State) : Out' :=
  updM s (doLaneRepair link module cause resends.toNat undelivered result)
/-- RETRAIN (R451). -/
def execRetrain (port : Fin 2) (link : Fin 16) (module : Fin 16) (result : ModTrain) (s : State) : Out' :=
  let data : Word := BitVec.ofNat 64 (1 + 2 ^ 16 * module.val)
  updM s (setupWr port (offDL_LINK_CTL link) data (linkCtlEff port link data result))
/-- BAY_ADMISSION (R434): against the revocation list of the running firmware. -/
def execBayAdmission (bay : Fin 2) (desc : Option (BitVec 4096)) (s : State) : Out' :=
  upd s (doBayAdmission bay desc (if s.sec.run = 2 then s.sec.bankB else s.sec.bankA).listDigest)
/-- BAY_RESET (R442): a write of DL_BAYb_CTL with BAY_RESET set. -/
def execBayReset (port : Fin 2) (bay : Fin 2) (data : Word) (s : State) : Out' :=
  let w := data ||| 1
  upd s (setupWr port (offDL_BAY_CTL bay) w (bayCtlEff port bay w))
/-- BIND (R442): a write of DL_BAYb_CTL with BAY_RESET clear. -/
def execBind (port : Fin 2) (bay : Fin 2) (data : Word) (s : State) : Out' :=
  let w := putFld data 0 0 0
  upd s (setupWr port (offDL_BAY_CTL bay) w (bayCtlEff port bay w))
/-- BAY_REQUEST (R439). -/
def execBayRequest (bay : Fin 2) (req : BayReq) (s : State) : Out' := updM s (doBayRequest bay req)
/-- BAY_OVER_POWER (R599). -/
def execBayOverPower (bay : Fin 2) (s : State) : Out' := updM s (fun d => bayFails d bay)

end Sys2Proof.Machine
end

