-- ==== Sys2Proof/Machine/Plane.lean ====
section
/-! DEFINITION. Sys2Proof/Machine/Plane.lean: what the planes share: PLDM events (R724, R781), the data plane going off (R571, R596, R598,
R791), and what each reset clears (R629 to R632). -/

namespace Sys2Proof.Machine

open Sys2Proof

/-! ## Sensors and events (R594, R724, R726, R781) -/

/-- R594: the band of a temperature: 0 below the throttle point, 1 from it, 2 from the limit, 3 from the trip point. -/
def tempBand (stack : Bool) (t : Nat) : Nat :=
  let (a, b, c) := if stack then (92, 95, 105) else (100, 105, 115)
  if c ≤ t then 3 else if b ≤ t then 2 else if a ≤ t then 1 else 0

/-- The hottest junction of a die: compute dies 0 to 7, HN 8, HO 9. -/
def dieTemp (s : Dev) (d : Nat) : Nat :=
  if d < 8 then (List.range 4).foldl (fun m i => max m (getF s (fPW_RGN_TEMP (4 * d + i)))) 0 else tabGet (fun _ => 0) s.mg.hubTemp (d - 8)

/-- A die in SELF_REFRESH or off, a trip, a leak: the data plane's state as PLDM shows it: 0 Running, 1 Curb, 2 Brake, 3 Throttle, 4 Tripped
(state numbers by the model, log 27). -/
def planeState (s : Dev) : Nat :=
  if s.pw.off ≠ .on then 4 else if getF s fPW_STATUS_CURB = 1 then 1 else if getF s fPW_STATUS_BRAKE = 1 then 2
  else if getF s fPW_STATUS_THROTTLE = 1 then 3 else 0

/-- R724: the sensors that send events, with the state or band of each. -/
def sensorStates (s : Dev) : List (Nat × Nat) :=
  (List.range 10).map (fun d => (0x10 + d, tempBand false (dieTemp s d))) ++ (List.range 16).map (fun k => (0x20 + k, tempBand true (getF s (fMT_STACK_TEMP k))))
    ++ [(0x40, getF s fFLT_HEALTH_STATE), (0x41, stage s), (0x42, getF s fSU_PINS_LEAK), (0x43, planeState s)]

/-- A management message of a kind: 1 PlatformEventMessage, 2 power-down request; a response carries 0x100 and its row's own code. -/
def mgmtOut (s : Dev) (kind : Nat) (data : List Nat) : Dev := emit s (.mgmt kind data)

/-- R724, R781: the primary Bridle queues an event for every sensor whose state or band has changed, sends it where a receiver is set, and
asserts ALERT_N. -/
def pushEvents (s : Dev) : Dev :=
  if !s.bridle.up then s
  else
    (sensorStates s).foldl (fun s e =>
      if tabGet (fun _ => 0) s.mg.last e.1 = e.2 then s
      else
        let s := { s with mg := { s.mg with last := tabSet (fun _ => 0) s.mg.last e.1 e.2, events := s.mg.events ++ [e] } }
        let s := setF s fSU_PINS_ALERT 1
        if s.mg.receiver.isSome then mgmtOut s 1 [e.1, e.2] else s) s

/-- The sensors of a sampling instant. -/
def setTemps (s : Dev) (t : Temps) : Dev :=
  let s := (List.range 32).foldl (fun s r => setF s (fPW_RGN_TEMP r) ((t.regions.map Fin.val).getD r 0)) s
  let s := (List.range 16).foldl (fun s k => setF s (fMT_STACK_TEMP k) ((t.stackT.map Fin.val).getD k 0)) s
  { s with mg := { s.mg with hubTemp := [0, 1].foldl (fun m h => tabSet (fun _ => 0) m h ((t.hubs.map Fin.val).getD h 0)) s.mg.hubTemp } }

/-! ## The data plane without power -/

/-- What the data and control planes hold beyond registers is gone; far-tier bytes stay where `far` says so, and what repairs and retired
frames have recorded. -/
def clearPlanes (s : Dev) (far : Bool) : Dev :=
  let m := s.ms
  let keep (b : Nat) : Bool := far && isFar b
  let s := { (settleSlew s s.now (fun _ => 0)) with
    ms := { MemSys.init with tier := m.tier.filter (fun e => keep e.1), tierPoison := m.tierPoison.filter (fun x => keep (x * 64)), rowSpare := m.rowSpare, badFrames := m.badFrames },
    cores := [], clusters := [], saved := [], rgn := [], todo := [], pgq := [], chans := [], cmds := [], lastPlaced := [], leaseEnd := 0, leaseFresh := false, selfTest := 0, dlog := [], peerOut := [],
    obs := { ObsState.init with stopIn := s.obs.stopIn }, pins := { s.pins with syncOut := false, syncAt := 0, fperst := 0xF }, tandem := Tandem.init,
    flt := { s.flt with coal := [], stopped := false },
    pw := { s.pw with hist := [], missedClamp := false, filler := 0, cap := [], shortNoted := [], ratios := [], cut := [], kNum := 1, kDen := 1, eJob := [], eIdle := [], tail := 0, sleeping := 0 },
    su := { s.su with begun := false, steps := [], tested := 0, farDone := 0, testAsk := 0, testPass := 0, testFail := 0, mbx := none },
    mg := { s.mg with tdi := [] } }
  setF s fSU_PINS_STOP s.obs.stopIn.toNat

/-- R571, R596, R598, R791: the data plane and the control plane stop with no promise about their state. The registers stand until the next
Stand resets them; nothing answers. -/
def planeOff (s : Dev) (why : PowerOff) : Dev :=
  let s := clearPlanes s false
  let s := { s with ports := s.ports.map (fun e => (e.1, { HostPort.init with inReset := e.2.inReset })) }
  let s := setF (setF (setF s fSU_STATUS_STAGE 0) fPW_STATUS_REIN_UP 0) fSU_PINS_SYNC 0
  { s with pw := { s.pw with off := why } }

/-! ## Resets (R629 to R632) -/

/-- The resets of the whole device, as SU_STATUS.LAST_RESET shows them. -/
inductive DevReset where
  | powerOn | perst | device
deriving DecidableEq, Repr

/-- A register of the per-die windows lies in a compute die's PW_VF block. -/
def isVf (off : Nat) : Bool := decide (0x1000000 ≤ off) && decide (off < 0x3000000) && (off - 0x1000000) % 0x400000 / 0x10000 == 0x10

/-- A mask of bits `[msb:lsb]`. -/
def bitsMask (msb lsb : Nat) : Word := BitVec.ofNat 64 ((2 ^ (msb + 1 - lsb) - 1) * 2 ^ lsb)

/-- R631, R632: the bits of a register that a reset leaves: for PERST_N and device reset the fields of R632, those that follow pins,
REFCLK and the management source, and the bays as admitted; for a device reset SU_CFG too. A power-on leaves the lowered FMAX, which flash
holds (R579), and what follows pins. -/
def keptBits (k : DevReset) (off : Nat) : Word :=
  if isVf off then bitsMask 15 0
  else if off = offSU_PINS then (if k = .powerOn then bitsMask 15 12 else BitVec.allOnes 64)
  else if k = .powerOn then 0
  else if off = offFLT_HEALTH ∨ off = offFLT_REPLACE ∨ off = offMT_RETIRE_CNT ∨ offMT_RETIRE 0 ≤ off ∧ off < offMT_RETIRE 1024
      ∨ off = offPW_E_IN ∨ off = offPW_E_FLOOR ∨ off = offPW_E_MGR ∨ off = offSU_FW ∨ off = offDL_TAP then BitVec.allOnes 64
  else if off = offFLT_SEQ then bitsMask 31 0
  else if (List.range 16).any (fun i => off == offMT_STACK i) then bitsMask 63 32
  else if off = offOBS_WHOA_CFG then bitsMask 63 63
  else if off = offPW_STATUS then bitsMask 63 62 ||| bitsMask 58 58 ||| bitsMask 43 32
  else if off = offPW_INPUT then bitsMask 63 20
  else if [0, 1].any (fun b => off == offDL_BAY_STATUS b || (decide (offDL_BAY_DESC b 0 ≤ off) && decide (off < offDL_BAY_DESC b 64))) then BitVec.allOnes 64
  else if off = offSU_CFG ∧ k = .device then BitVec.allOnes 64
  else 0

/-- The registers after a reset. -/
def resetRegs (k : DevReset) (t : Tab Word) : Tab Word :=
  t.filterMap (fun e =>
    let m := keptBits k e.1
    let w := (e.2 &&& m) ||| (regReset e.1 &&& ~~~m)
    if w = regReset e.1 then none else some (e.1, w))

/-- R631: a port after a reset: a device reset keeps its link, its configuration space and its MSI-X tables. -/
def resetPort (k : DevReset) (p : HostPort) : HostPort :=
  if k = .device then { p with held := none, dead := false, pendingVec := [], atc := [], pageReqs := [] } else { HostPort.init with inReset := p.inReset }

/-- R443, R631: a bay's status after a reset: FAILED ends with a device reset, where the bay was admitted. -/
def resetBay (k : DevReset) (s : Dev) (b : Nat) : Dev :=
  let s := { s with bays := tabMod (fun _ => BayRun.init) s.bays b (fun r => { r with lastBound := none }) }
  let s := if k = .device ∧ getF s (fDL_BAY_STATUS_STATE b) = 3 then setF s (fDL_BAY_STATUS_STATE b) 2 else s
  showRights s b

/-- R631: what PERST_N and a device reset clear of the device, and R661's FAULT_N with its condition. -/
def resetPlanes (k : DevReset) (s : Dev) : Dev :=
  let s := clearPlanes s true
  let s := { s with regs := resetRegs k s.regs, flt := { s.flt with backlog := [] }, ports := s.ports.map (fun e => (e.1, resetPort k e.2)) }
  let s := setF s fSU_STATUS_LAST_RESET (if k = .perst then 1 else 2)
  [0, 1].foldl (fun s b => resetBay k s b) (setF (setF s fSU_PINS_FAULT 0) fSU_PINS_SYNC 0)

/-- R629, R631: a power-on clears everything but what flash and fuses hold, the pins from outside and what has been sent. -/
def powerOnReset (s : Dev) : Dev :=
  let s := clearPlanes s false
  { s with
    tOff := 0 - BitVec.ofNat 64 s.now, regs := resetRegs .powerOn s.regs, ms := { MemSys.init with rowSpare := s.ms.rowSpare }, flt := { backlog := [], coal := [], stopped := false },
    ports := s.ports.map (fun e => (e.1, { HostPort.init with inReset := e.2.inReset })), bays := [], pins := { s.pins with chain := 0x300 },
    bridle := { s.bridle with up := false, queue := [], lost := 0, seen := [] }, pw := Power.init, su := { Startup.init with powered := true }, mg := Mgmt.init }

end Sys2Proof.Machine
end

