-- ==== Sys2Proof/Machine/Power.lean ====
section
/-! DEFINITION. Sys2Proof/Machine/Power.lean: power, clocks and the 50 V input (R569 to R613): Rein, the clamps, sleeping and waking,
ageing, the protection circuits, energy. Powers are in mW and energies in nJ; what the meters and Rein's predictions say comes with the
commands. -/

namespace Sys2Proof.Machine

open Sys2Proof

/-! ## The applied values (R53, R584) -/

/-- The in-band source: budget, ramp limit and floor, where set (R604, R605). -/
def bandBudget (s : Dev) : Option Nat := if getF s fPW_BUDGET_SET = 1 then some (getF s fPW_BUDGET_BUDGET_W) else none
def bandRamp (s : Dev) : Option Nat := if getF s fPW_RAMP_RAMP_SET = 1 then some (getF s fPW_RAMP_RAMP_WPMS) else none
def bandFloor (s : Dev) : Option Nat := if getF s fPW_RAMP_FLOOR_SET = 1 then some (getF s fPW_RAMP_FLOOR_W) else none

/-- The lower of two values where both are there. -/
def lower (a b : Option Nat) : Option Nat :=
  match a, b with
  | some x, some y => some (min x y)
  | some x, none => some x
  | none, y => y

/-- R584: the applied budget B in W. -/
def appliedBudget (s : Dev) : Nat := (lower (bandBudget s) s.pw.mgmtBudget).getD 1000

/-- R584: the applied ramp limit in W/ms, 0 for none; a source that has set 0 sets no limit (R605). -/
def appliedRamp (s : Dev) : Nat :=
  let some' (x : Option Nat) : Option Nat := if x = some 0 then none else x
  (lower (some' (bandRamp s)) (some' s.pw.mgmtRamp)).getD 0

/-- R584: the applied floor in W, capped at B. -/
def appliedFloor (s : Dev) : Nat := min (max ((bandFloor s).getD 0) (s.pw.mgmtFloor.getD 0)) (appliedBudget s)

/-- R584, R604: the effect of a write of PW_BUDGET. -/
def budgetEff (port : Nat) (data : Word) (s : Dev) : Dev :=
  let w := fld data 11 0
  if 1000 ≤ w ∧ w ≤ 3600 then setReg s offPW_BUDGET (BitVec.ofNat 64 (2 ^ 63 + w)) else setupError s port offPW_BUDGET

/-- R584: a ramp limit that a source may set. -/
def rampOk (v : Nat) : Bool := v == 0 || (decide (10 ≤ v) && decide (v ≤ 1000000))

/-- R584, R605: the effect of a write of PW_RAMP, field by field. -/
def rampEff (port : Nat) (data : Word) (s : Dev) : Dev :=
  let v := fld data 19 0
  let f := fld data 43 32
  let s := if rampOk v then setF (setF s fPW_RAMP_RAMP_WPMS v) fPW_RAMP_RAMP_SET 1 else s
  let s := if f ≤ 3600 then setF (setF s fPW_RAMP_FLOOR_W f) fPW_RAMP_FLOOR_SET 1 else s
  if rampOk v && decide (f ≤ 3600) then s else setupError s port offPW_RAMP

/-! ## Voltage and frequency (R579, R580) -/

/-- A core's FMAX in force at a point, in MHz. -/
def coreFmax (s : Dev) (core p : Nat) : Nat := getF s (fPW_VF_FMAX_MHZ (core / 96) (core % 96) p)

/-- R580: the clock of a cluster at a point and target frequency, in MHz. -/
def clusterClock (s : Dev) (cl p f : Nat) : Nat := min f ((List.range 4).foldl (fun m i => max m (coreFmax s (4 * cl + i) p)) 0)

/-- R580: the pulse-filter count of a core whose cluster runs at `clk` MHz, lowered by `cut` steps. -/
def pulseCount (s : Dev) (core p clk cut : Nat) : Nat :=
  max 1 ((if clk = 0 then 16 else min 16 (coreFmax s core p * 16 / clk)) - cut)

/-- f of a setting, in MHz. -/
def setMhz (x : Setting) : Nat := 1000 + 10 * x.f.val

/-- R580: the sum of the core frequencies of a region at a setting, in sixteenths of a MHz. -/
def sumFreq (s : Dev) (x : Setting) : Nat :=
  ((regionClusters x.region).map (fun cl =>
    let clk := clusterClock s cl x.p (setMhz x)
    ((List.range 4).map (fun i => clk * pulseCount s (4 * cl + i) x.p clk x.cut)).sum)).sum

/-- R580: of two settings the one Rein prefers: the larger sum, then the lower point, then the lower frequency. -/
def better (s : Dev) (x y : Setting) : Bool :=
  let a := sumFreq s x
  let b := sumFreq s y
  decide (b < a) || (a == b && (decide (x.p < y.p) || (x.p == y.p && decide (x.f < y.f))))

/-- The setting Rein prefers of a list. -/
def bestSetting (s : Dev) (l : List Setting) : Option Setting :=
  l.foldl (fun a x => match a with
    | none => some x
    | some y => if better s x y then some x else some y) none

/-- R585: the predicted power of a region at its highest setting, in mW. -/
def demand (s : Dev) (m : TickMeas) (r : Nat) : Nat :=
  ((bestSetting s (m.settings.filter (fun x => x.region.val == r && x.cut.val == 0))).map (fun x => x.mw.toNat)).getD 0

/-- R580: the setting of a region within an allotment: the best that fits, else the lowest point and frequency with the fewest steps that
fit, else with the most. -/
def chooseSetting (s : Dev) (m : TickMeas) (r allot : Nat) : Option Setting :=
  let mine := m.settings.filter (fun x => x.region.val == r)
  match bestSetting s (mine.filter (fun x => x.cut.val == 0 && decide (x.mw.toNat ≤ allot))) with
  | some x => some x
  | none =>
    let low := mine.filter (fun x => x.p.val == 0 && x.f.val == 0)
    match (List.range 16).findSome? (fun c => low.find? (fun x => x.cut.val == c && decide (x.mw.toNat ≤ allot))) with
    | some x => some x
    | none => ((List.range 16).reverse).findSome? (fun c => low.find? (fun x => x.cut.val == c))

/-- Run a region at a setting. -/
def applySetting (s : Dev) (r : Nat) (x : Setting) : Dev :=
  let s := setF (setF s (fPW_RGN_VOLT_MV r) (650 + 25 * x.p.val)) (fPW_RGN_FREQ_MHZ r) (setMhz x)
  { s with pw := { s.pw with cut := tabSet (fun _ => 0) s.pw.cut r x.cut.val } }

/-! ## Reserves (R589) -/

/-- The entry whose reserve a channel has in force: that of its open window, or of the EXCLUSIVE window whose lead runs, with PWR set. -/
def reserveEntry (s : Dev) (c : Nat) : Option Nat :=
  if getF s (fPW_RES_RES_W c) = 0 ∨ getF s (fSLC_CYC_CFG_EN c) = 0 then none
  else
    let r := (getCh s c).cyc
    let pwr (e : Option Nat) : Option Nat := e.filter (fun e => getF s (fSLC_CYC_E_PWR c e) == 1)
    match pwr r.opened with
    | some e => some e
    | none => (pwr r.lead).filter (fun e => getF s (fSLC_CYC_E_KIND c e) == 1)

/-- The regions in which a channel's commands of a window's rings run. -/
def windowRegions (s : Dev) (c e : Nat) : List Nat :=
  let lo := getF s (fSLC_CYC_E_RING0 c e)
  let hi := lo + getF s (fSLC_CYC_E_RCNTM1 c e)
  let mine := s.cmds.filter (fun x => x.chan == c && decide (lo ≤ x.ring) && decide (x.ring ≤ hi) && x.status.isNone)
  (List.range 32).filter (fun r => (regionTab s r).any (fun k => k.2.blocks.any (fun b => mine.any (fun x => x.key == b.cmd)))
    || (engineCmds s r).any (fun x => mine.any (fun y => y.key == x.key)))

/-- What a tick has granted: the grants by region, and what is left, in mW. -/
structure Grants where
  dev : Dev
  got : Tab Nat
  left : Nat

/-- R589: the reserve of a channel: each of its regions gets the lower of its demand and its share, as far as the rest reaches, in region
order; what is short is counted and noted. -/
def grantReserve (m : TickMeas) (g : Grants) (c : Nat) : Grants :=
  match reserveEntry g.dev c with
  | none => g
  | some e =>
    let rs := windowRegions g.dev c e
    if rs.isEmpty then g
    else
      let share := 1000 * getF g.dev (fPW_RES_RES_W c) / rs.length
      let (got, left, short) := rs.foldl (fun (a : Tab Nat × Nat × Nat) r =>
        let have' := tabGet (fun _ => 0) a.1 r
        let want := min (demand g.dev m r - have') share
        let x := min want a.2.1
        (tabSet (fun _ => 0) a.1 r (have' + x), a.2.1 - x, a.2.2 + (want - x))) (g.got, g.left, 0)
      if short = 0 then { g with got := got, left := left }
      else
        let w := ceilDiv short 1000
        let worst := (((g.dev.pw.shortNoted.find? (fun x => x.1 == c && x.2.1 == e)).map (fun x => x.2.2)).getD 0)
        let s := satF g.dev (fPW_RES_RES_SHORT c) 1
        { dev := { s with pw := { s.pw with shortNoted := (s.pw.shortNoted.filter (fun x => !(x.1 == c && x.2.1 == e))) ++ [(c, e, max worst w)] } }, got := got, left := left }

/-- R585: the level L at which the lower of each demand and L adds up to what is left, to the mW. -/
def waterLevel (ds : List Nat) (a : Nat) : Nat :=
  (List.range 24).foldl (fun l i => let t := l + 2 ^ (23 - i); if (ds.map (fun d => min d t)).sum ≤ a then t else l) 0

/-! ## Thermal reductions (R595) -/

/-- R595: how a region's sensors stand: 2 at or above a throttle temperature, 1 less than 3 °C below it, 0 cooler. -/
def heat (s : Dev) (r : Nat) : Nat :=
  let at' (lim t : Nat) : Nat := if lim ≤ t then 2 else if lim < t + 3 then 1 else 0
  let hubs := max (at' 100 (dieTemp s 8)) (at' 100 (dieTemp s 9))
  let d := r / 4
  let stackT := max (at' 92 (getF s (fMT_STACK_TEMP (2 * d)))) (at' 92 (getF s (fMT_STACK_TEMP (2 * d + 1))))
  max (max hubs stackT) (at' 100 (getF s (fPW_RGN_TEMP r)))

/-- R595: the cap on a region's allotment, plus one, 0 for none: lowered by 5 %, held, or raised at the ramp limit until it no longer binds. -/
def nextCap (s : Dev) (r allot : Nat) : Nat :=
  let c := tabGet (fun _ => 0) s.pw.cap r
  match heat s r with
  | 2 => (if c = 0 then allot else min allot (c - 1)) * 95 / 100 + 1
  | 1 => c
  | _ =>
    let up := c + 50 * appliedRamp s
    if c = 0 ∨ appliedRamp s = 0 ∨ allot < up then 0 else up

/-! ## Filler (R587, R588) -/

/-- A core of a region has no resident group. -/
def idleCore (s : Dev) (r : Nat) : Bool := (regionCores r).any (fun k => (coreGroups (getCore s k)).isEmpty)

/-- R588: a core runs filler while its region is told to and it has no resident group: a block placed on it stops it. -/
def fillerCore (s : Dev) (k : Nat) : Bool := s.pw.filler.getLsbD (k / 24) && (coreGroups (getCore s k)).isEmpty

/-- R588: filler wakes a region and its clusters. -/
def fillRegion (s : Dev) (r : Nat) : Dev :=
  let s := wakeRegion s r
  (regionClusters r).foldl wakeCl s

/-- R587, R588, R593: filler for the next tick. It runs in every region in service that has a core with no resident group (the choice of
regions is the model's, log 28). -/
def fillerTick (s : Dev) (m : TickMeas) : Dev :=
  let clamped := getF s fPW_STATUS_CURB == 1 || getF s fPW_STATUS_BRAKE == 1
  let floor := 1000 * appliedFloor s
  let low := !clamped && decide (m.bare.toNat < floor)
  let recent := (s.pw.hist.take 20).map (fun e => e.1)
  let mean := recent.sum / 20
  -- a fall that a lower budget or a thermal reduction brings is exempt from the ramp limit (R593)
  let exempt := !s.pw.cap.isEmpty || (s.pw.hist.take 20).any (fun e => decide (s.pw.beff < e.2))
  let falls := !clamped && !exempt && appliedRamp s != 0 && decide (m.bare.toNat + 50 * appliedRamp s < mean)
  let rs := if low || falls then (List.range 32).filter (fun r => getF s (fSLC_RGN_STATE r) != 3 && idleCore s r) else []
  let s := { s with pw := { s.pw with filler := BitVec.ofNat 32 (maskOf rs) } }
  let s := setF s fPW_STATUS_FLOOR_SHORT (low && decide (m.reach.toNat < floor)).toNat
  rs.foldl fillRegion s

/-! ## The tick (R585) -/

/-- R593: the lowest clamp in force and B, in mW. -/
def clampedBudget (s : Dev) : Nat :=
  let b := 1000 * appliedBudget s
  let b1 := if getF s fPW_STATUS_CURB = 1 then min b (b * 40 / 100) else b
  if getF s fPW_STATUS_BRAKE = 1 then min b1 (b * getF s fPW_CFG_BRAKE_PCT / 100) else b1

/-- R585, R592: Beff: it falls at once and rises at the ramp limit (that a later tick goes on rising is DEDUCED, log 29). -/
def nextBeff (s : Dev) : Nat :=
  let t := clampedBudget s
  if appliedRamp s = 0 then t else min t (s.pw.beff + 50 * appliedRamp s)

/-- R585, R595: the allotments of one tick, before the thermal reductions. -/
def allotments (s : Dev) (m : TickMeas) (a : Nat) : Dev × List Nat :=
  let g := (List.range 16).foldl (grantReserve m) { dev := s, got := [], left := a }
  let ds := (List.range 32).map (fun r => (r, demand s m r))
  let reserved (r : Nat) : Bool := tabGet (fun _ => 0) g.got r != 0
  let l := waterLevel ((ds.filter (fun e => !reserved e.1)).map (fun e => e.2)) g.left
  (g.dev, ds.map (fun e => if reserved e.1 then tabGet (fun _ => 0) g.got e.1 else min e.2 l))

/-- R580, R595: one region takes its allotment. -/
def regionTick (m : TickMeas) (s : Dev) (e : Nat × Nat) : Dev :=
  let (r, al) := e
  let cap := nextCap s r al
  let s := { s with pw := { s.pw with cap := tabSet (fun _ => 0) s.pw.cap r cap } }
  let al := if cap = 0 then al else min al (cap - 1)
  let s := setF s (fPW_RGN_ALLOT_W r) (al / 1000)
  match chooseSetting s m r al with
  | some x => applySetting s r x
  | none => s

/-- R584 to R595: Rein ticks. -/
def doReinTick (m : TickMeas) (s : Dev) : Dev :=
  if stage s ≠ 2 ∨ s.pw.off ≠ .on ∨ whoaStopped s = true then s
  else
    let s := setTemps (setF s fPW_STATUS_REIN_UP 1) m.temps
    let s := { s with pw := { s.pw with missedClamp := false, ratios := m.ratios.map (fun e => (e.1.val, e.2.val)) } }
    let beff := nextBeff s
    let e : Int := (s.pw.hist.foldl (fun (x : Int) h => x + h.1 - h.2) 0) / 200
    let fixed : Int := (m.pin.toNat : Int) - ((m.meters.map (fun w => w.toNat)).sum : Nat)
    let a := ((beff : Int) - fixed - e).toNat
    let (s, al) := allotments s m a
    let s := ((List.range 32).zip al).foldl (regionTick m) s
    let s := { s with pw := { s.pw with beff := beff, hist := ((m.pin.toNat, beff) :: s.pw.hist).take 200 } }
    let s := setF s fPW_STATUS_THROTTLE (if s.pw.cap.isEmpty then 0 else 1)
    let s := setF (setF (setF s fPW_STATUS_APPLIED_W (beff / 1000)) fPW_STATUS_FLOOR_W (appliedFloor s)) fPW_STATUS_RAMP_WPMS (appliedRamp s)
    pushEvents (fillerTick s m)

/-- R590: the fourth tick in a row is missed: the Curb ratios hold until Rein ticks again. -/
def doReinMissed (s : Dev) : Dev :=
  if stage s ≠ 2 ∨ s.pw.off ≠ .on ∨ whoaStopped s = true ∨ s.pw.missedClamp = true then s
  else
    let s := setF { s with pw := { s.pw with missedClamp := true } } fPW_STATUS_REIN_UP 0
    errRecord s { sev := 4, cause := 0x0052, unit := 0x0E, detail := 4 }

/-- R582, R591: the ratio in sixteenths at which a cluster's clock runs: the lowest of the clamps in force and the droop stretch. -/
def clockRatio (s : Dev) (cl : Nat) : Nat :=
  let (c, b) := s.pw.ratios.getD cl (16, 16)
  let x := if getF s fPW_STATUS_CURB = 1 ∨ s.pw.missedClamp = true then c else 16
  let y := if getF s fPW_STATUS_BRAKE = 1 then min x b else x
  if (getCl s cl).stretched then min y 8 else y

/-! ## Curb and the brake (R591, R592) -/

/-- R591: over-current, or a sag below 44 V, for 5 µs: `vin` in 10 mV, `iin` in 10 mA. -/
def doCurb (vin iin : Nat) (s : Dev) : Dev :=
  if !s.su.powered || s.pw.off == .input || !(decide (100 * getF s fPW_CFG_OC_LIMIT_A < iin) || decide (vin < 4400)) then s
  else pushEvents (setF s fPW_STATUS_CURB 1)

/-- R592: the input at or above 45 V and at or below 90 % of the limit for 1 ms. -/
def doCurbRelease (vin iin : Nat) (s : Dev) : Dev :=
  if decide (4500 ≤ vin) && decide (iin ≤ 90 * getF s fPW_CFG_OC_LIMIT_A) then pushEvents (setF s fPW_STATUS_CURB 0) else s

/-- R591: PWR_BRAKE_N asserted for 5 µs. While a leak has the data plane off the brake has no effect. -/
def doBrake (s : Dev) : Dev :=
  if !s.su.powered then s
  else
    let s := setF s fSU_PINS_BRAKE 1
    if s.pw.off = .leak then s else pushEvents (setF s fPW_STATUS_BRAKE 1)

/-- R592: PWR_BRAKE_N deasserted. -/
def doBrakeRelease (s : Dev) : Dev := pushEvents (setF (setF s fSU_PINS_BRAKE 0) fPW_STATUS_BRAKE 0)

/-! ## Protection (R571, R596, R598, R789, R791) -/

/-- A record of a module whose data plane has gone off: it counts in SEQ, and the Bridle keeps it. -/
def offRecord (s : Dev) (r : ErrRec) : Dev :=
  let seq := getF s fFLT_SEQ_NEXT_SEQ
  let rb := errBytes r seq (timeBase s)
  bridlePut (satF (setF s fFLT_SEQ_NEXT_SEQ ((seq + 1) % 2 ^ 32)) (sevField r.sev) 1) 0 r rb

/-- R594, R596: a sensor is at its trip temperature. Sensors are numbered 0 to 31 by region, 32 and 33 HN and HO, 34 to 49 the stacks
(log 27). -/
def doThermalTrip (sensor temp : Nat) (s : Dev) : Dev :=
  if !s.su.powered || s.pw.off == .input || s.pw.off == .leak || decide (temp < (if sensor < 34 then 115 else 105)) then s
  else
    let s := setF (setF (planeOff s .trip) fSU_PINS_FAULT 1) fSU_PINS_PWR_OK 0
    let s := if sensor < 32 then setF s (fPW_RGN_TEMP sensor) temp
      else if sensor < 34 then { s with mg := { s.mg with hubTemp := tabSet (fun _ => 0) s.mg.hubTemp (sensor - 32) temp } }
      else setF s (fMT_STACK_TEMP (sensor - 34)) temp
    pushEvents (offRecord s { sev := 4, cause := 0x0053, unit := 0x0E, detail := temp % 256 + 256 * sensor })

/-- R598: LEAK_N asserted for 100 µs. It prevails over the brake. -/
def doLeak (s : Dev) : Dev :=
  if !s.su.powered || s.pw.off == .input || s.pw.off == .leak then s
  else
    let s := setF (setF (setF (planeOff s .leak) fSU_PINS_LEAK 1) fSU_PINS_FAULT 1) fSU_PINS_PWR_OK 0
    let s := setF (setF s fPW_STATUS_BRAKE 0) fSU_PINS_ALERT 1
    let s := noteReplace (offRecord s { sev := 4, cause := 0x0054, unit := 0x0E, replace := true }) 9
    pushEvents (mgmtOut s 2 [])

/-- R569, R571: the input is outside its limits for longer than it may be. -/
def doInputShutdown (vin : Nat) (s : Dev) : Dev :=
  if !s.su.powered || s.pw.off == .input || (decide (4000 ≤ vin) && decide (vin ≤ 6000)) then s
  else
    let s := setF (planeOff s .input) fSU_PINS_PWR_OK 0
    let s := { s with pw := { s.pw with lastVin := vin } }
    offRecord s { sev := 4, cause := 0x0055, unit := 0x0E, detail := vin % 2 ^ 16 }

/-- R791: REFCLK is lost: the planes stop with the input switch closed. -/
def doRefclkLoss (s : Dev) : Dev :=
  if !s.su.powered || s.pw.off == .input || getF s fPW_STATUS_REFCLK_OK == 0 then s
  else if s.su.refLost then setF s fPW_STATUS_REFCLK_OK 0
  else
    let s := setF (if s.pw.off = .on then planeOff s .refclk else s) fPW_STATUS_REFCLK_OK 0
    let s := setF { s with su := { s.su with refLost := true } } fSU_PINS_FAULT 1
    pushEvents (offRecord s { sev := 4, cause := 0x0055, unit := 0x0E, detail := s.pw.lastVin % 2 ^ 16 })

/-! ## Sleeping and waking (R576, R577) -/

/-- R576: a cluster has nothing to do: no resident group, empty queues, no access pending, stores drained, and no filler in its region. -/
def clusterIdle (s : Dev) (cl : Nat) : Bool :=
  let c := getCl s cl
  (List.range 4).all (fun i =>
    let x := getCore s (4 * cl + i)
    (coreGroups x).isEmpty && x.blocks.isEmpty && x.mq.isEmpty && x.arrayLane.isNone && x.arrayNext.isNone && x.xferLane.isNone && x.sb.isEmpty && x.reqs.isEmpty)
    && c.dmaQ.isEmpty && c.fabQ.isEmpty && c.run.isNone && !(List.range 4).any (fun i => fillerCore s (4 * cl + i))
    && !s.cores.any (fun k => k.2.reqs.any (fun q => !q.served && match placeOf s (512 * q.line) with
      | .spad c _ => c == cl
      | _ => false))

/-- R576: an idle cluster is CLOCK_GATED after 256 cycles; with the sixth, its region shows it. -/
def doClockGate (cl : Nat) (s : Dev) : Dev :=
  if (getCl s cl).gated || !clusterIdle s cl || decide (2 ≤ getF s (fPW_RGN_STATE (cl / 6))) then s
  else
    let s := modCl s cl (fun c => { c with gated := true })
    if (regionClusters (cl / 6)).all (fun k => (getCl s k).gated) then setF s (fPW_RGN_STATE (cl / 6)) 1 else s

/-- R576: a GROOMED region whose clusters are all CLOCK_GATED is POWER_GATED; its contents are lost. -/
def doPowerGate (r : Nat) (s : Dev) : Dev :=
  if getF s (fPW_RGN_STATE r) ≠ 1 ∨ getF s (fSLC_RGN_STATE r) ≠ 0 ∨ (getF s fPW_GATE_PG_EN).testBit r = false ∨ s.pw.filler.getLsbD r = true
      ∨ s.selfTest.getLsbD r = true then s
  else setF (groomRegion s r) (fPW_RGN_STATE r) 2

/-- R576: a die whose regions are all POWER_GATED or LOST, with SR_EN set and no access to its stacks, enters SELF_REFRESH. -/
def doSelfRefresh (d : Nat) (s : Dev) : Dev :=
  if getF s fPW_GATE_SR_EN = 0 ∨ dieLost s d = true
      ∨ (List.range 4).any (fun i => getF s (fPW_RGN_STATE (4 * d + i)) != 2 && getF s (fSLC_RGN_STATE (4 * d + i)) != 3) = true
      ∨ s.ms.misses.any (fun m => isNear (m.backing * 512) && nField (m.backing * 512) 39 37 == d) = true then s
  else { s with pw := { s.pw with sleeping := putBit s.pw.sleeping d true } }

/-- R576: a CLOCK_GATED cluster wakes. -/
def doClusterWake (cl : Nat) (s : Dev) : Dev := wakeCl s cl

/-- A die leaves SELF_REFRESH. -/
def wakeDie (s : Dev) (d : Nat) : Dev := { s with pw := { s.pw with sleeping := putBit s.pw.sleeping d false } }

/-- R577: a WAKING region runs, groomed, and with it its die wakes. -/
def doRegionWake (r : Nat) (s : Dev) : Dev :=
  if getF s (fPW_RGN_STATE r) ≠ 3 then s
  else
    let s := (regionClusters r).foldl (fun s k => modCl s k (fun c => { c with gated := false })) (setF s (fPW_RGN_STATE r) 0)
    wakeDie s (r / 4)

/-! ## Droop and ageing (R579, R581, R582) -/

/-- R582: the rail of a cluster falls more than DROOP_MV: `mv` is the fall. -/
def doDroop (cl mv : Nat) (s : Dev) : Dev :=
  if mv ≤ getF s fPW_CFG_DROOP_MV ∨ 2 ≤ getF s (fPW_RGN_STATE (cl / 6)) ∨ (getCl s cl).stretched = true then s
  else satF (modCl s cl (fun c => { c with stretched := true })) (fPW_RGN_DROOPS (cl / 6)) 1

/-- R582: the rail has been back for 64 cycles. -/
def doDroopRelease (cl : Nat) (s : Dev) : Dev := modCl s cl (fun c => { c with stretched := false })

/-- R579, R581: a core's margin is tested at the point its region runs at; `low` says that it is below the fused threshold. -/
def doAgeingTest (core p : Nat) (low : Bool) (s : Dev) : Dev :=
  if !low || getF s fPW_STATUS_REIN_UP == 0 || getF s (fPW_RGN_VOLT_MV (core / 24)) != 650 + 25 * p || decide (2 ≤ getF s (fPW_RGN_STATE (core / 24))) then s
  else
    let old := coreFmax s core p
    let new := old - 10
    let grade := getF s fID_PART_GRADE_MHZ
    let s := setF s (fPW_VF_FMAX_MHZ (core / 96) (core % 96) p) new
    let e : ErrRec := { coreErr core with sev := 0, cause := 0x0050, detail := p + 2 ^ 16 * new }
    let s := errRecord s e
    if p = 15 ∧ new < grade ∧ grade ≤ old then noteReplace (errRecord s { e with cause := 0x0051, replace := true, detail := 2 ^ 16 * new }) 7 else s

/-! ## Energy (R600 to R602) -/

/-- R600: M of an interval. -/
def meterSum (m : EnergyMeas) : Nat := m.dyn.sum + m.leak.sum + m.sdyn + m.hdyn + m.sidle + m.hidle + m.u + m.fill

/-- R600: k of an interval as a quotient, and whether it was clamped. With M = 0 the spec states no k: 1 without input, else the upper
clamp (log 30). -/
def settleK (m : EnergyMeas) : Nat × Nat × Bool :=
  let t := meterSum m
  if t = 0 then (if m.ein = 0 then (1, 1, false) else (5, 4, true))
  else if 5 * m.ein < 4 * t then (4, 5, true) else if 5 * t < 4 * m.ein then (5, 4, true) else (m.ein, t, false)

/-- A part of a quantity, 0 of nothing. -/
def partOf (x a b : Nat) : Nat := if b = 0 then 0 else x * a / b

/-- Residency of all runs in a region, and of the runs of a slice. -/
def resRegion (m : EnergyMeas) (r : Nat) : Nat := (m.runs.map (fun j => ((j.res.filter (fun e => e.1.val == r)).map (fun e => e.2)).sum)).sum
def resSlice (s : Dev) (m : EnergyMeas) (n : Nat) : Nat :=
  ((m.runs.filter (fun j => (getCmd s j.key).any (fun c => c.tag == n))).map (fun j => (j.res.map (fun e => e.2)).sum)).sum

/-- R600: the share of a run in its regions, before k. -/
def runRegion (m : EnergyMeas) (j : RunMeas) (r : Nat) : Nat :=
  ((j.dyn.filter (fun e => e.1.val == r)).map (fun e => e.2)).sum
    + partOf (m.leak.getD r 0) ((j.res.filter (fun e => e.1.val == r)).map (fun e => e.2)).sum (resRegion m r)

/-- R600: own of a slice times an energy: the residency is in ns of 1 ms over 32 regions. -/
def ownPart (m : EnergyMeas) (n x : Nat) : Nat := x * m.own.getD n 0 / 32000000

/-- R600: the whole share of a run of slice n, before k. -/
def runShare (s : Dev) (m : EnergyMeas) (j : RunMeas) (n : Nat) : Nat :=
  ((List.range 32).map (runRegion m j)).sum + partOf m.sdyn j.bS m.bS + partOf m.hdyn j.bH m.bH
    + partOf (ownPart m n (m.sidle + m.hidle + m.u)) ((j.res.map (fun e => e.2)).sum) (resSlice s m n)

/-- R600, R602: one run takes its share. A command of a Halter channel takes none (R621). -/
def settleRun (m : EnergyMeas) (kn kd : Nat) (a : Dev × Nat) (j : RunMeas) : Dev × Nat :=
  match getCmd a.1 j.key with
  | none => a
  | some c =>
    if 0x10 ≤ c.tag then a
    else
      let e := runShare a.1 m j c.tag * kn / kd
      let s := creditJob (modCmd a.1 j.key (fun c => { c with energy := c.energy + e })) c.tag e
      let s := (List.range 32).foldl (fun s r => let x := runRegion m j r * kn / kd / 1000; if x = 0 then s else countRegion s r 0x49 x) s
      (s, a.2 + e)

/-- R601: what a slice with no run in progress owes to its idle account: the leakage of regions where no run resides, and its idle share. -/
def idleShare (s : Dev) (m : EnergyMeas) (n : Nat) : Nat :=
  if s.cmds.any (fun c => c.tag == n) || slState s n == 0 then 0
  else (((List.range 32).filter (fun r => residentOf s r == some n && resRegion m r == 0)).map (fun r => m.leak.getD r 0)).sum + ownPart m n (m.sidle + m.hidle + m.u)

/-- R601: credit a slice's idle account. -/
def creditIdle (s : Dev) (n nj : Nat) : Dev :=
  let e := tabGet (fun _ => 0) s.pw.eIdle n + nj
  setF { s with pw := { s.pw with eIdle := tabSet (fun _ => 0) s.pw.eIdle n e } } (fPW_E_IDLE_IDLE_UJ n) (e / 1000)

/-- R600 to R602, R607: an interval is settled. The manager account takes what no run and no other account took, so that in an interval
whose k is not clamped all shares add up to the input energy (R601). -/
def doEnergySettle (m : EnergyMeas) (s : Dev) : Dev :=
  if !s.su.powered || s.pw.off == .input then s
  else
    let (kn, kd, cl) := settleK m
    let s := setTemps s m.temps
    let s := setF (setF (setF s fPW_INPUT_VIN m.vin.toNat) fPW_INPUT_IIN m.iin.toNat) fPW_INPUT_P10_W m.p10.toNat
    let (s, runs) := m.runs.foldl (settleRun m kn kd) (s, 0)
    let (s, idle) := (List.range 16).foldl (fun (a : Dev × Nat) n =>
      let x := idleShare a.1 m n * kn / kd
      (if x = 0 then a.1 else creditIdle a.1 n x, a.2 + x)) (s, 0)
    let floor := m.fill * kn / kd
    let rest := meterSum m * kn / kd - (runs + idle + floor + s.pw.tail)
    let p := s.pw
    let s := { s with pw := { p with kNum := kn, kDen := kd, clamped := p.clamped + cl.toNat, tail := 0, eIn := p.eIn + m.ein, eFloor := p.eFloor + floor, eMgr := p.eMgr + rest, lastVin := m.vin.toNat } }
    let s := setF (setF (setF s fPW_E_IN_UJ (s.pw.eIn / 1000)) fPW_E_FLOOR_UJ (s.pw.eFloor / 1000)) fPW_E_MGR_UJ (s.pw.eMgr / 1000)
    pushEvents ([0, 1].foldl (fun s h => countHub s h 0xC8 (m.ein / 1000)) s)

/-! ## The commands -/

/-- REIN_TICK (R585). -/
def execReinTick (m : TickMeas) (s : State) : Out' := upd s (doReinTick m)
/-- REIN_MISSED (R590). -/
def execReinMissed (s : State) : Out' := upd s doReinMissed
/-- CURB (R591): input voltage in 10 mV and current in 10 mA. -/
def execCurb (vin iin : BitVec 16) (s : State) : Out' := upd s (doCurb vin.toNat iin.toNat)
/-- CURB_RELEASE (R592). -/
def execCurbRelease (vin iin : BitVec 16) (s : State) : Out' := upd s (doCurbRelease vin.toNat iin.toNat)
/-- BRAKE (R591). -/
def execBrake (s : State) : Out' := upd s doBrake
/-- BRAKE_RELEASE (R592). -/
def execBrakeRelease (s : State) : Out' := upd s doBrakeRelease
/-- THERMAL_TRIP (R596). -/
def execThermalTrip (sensor : Fin 50) (temp : Fin 256) (s : State) : Out' := upd s (doThermalTrip sensor temp)
/-- LEAK (R598). -/
def execLeak (s : State) : Out' := upd s doLeak
/-- INPUT_SHUTDOWN (R571). -/
def execInputShutdown (vin : BitVec 16) (s : State) : Out' := upd s (doInputShutdown vin.toNat)
/-- REFCLK_LOSS (R791). -/
def execRefclkLoss (s : State) : Out' := upd s doRefclkLoss
/-- CLOCK_GATE (R576). -/
def execClockGate (cl : Fin 192) (s : State) : Out' := upd s (doClockGate cl)
/-- POWER_GATE (R576). -/
def execPowerGate (region : Fin 32) (s : State) : Out' := upd s (doPowerGate region)
/-- SELF_REFRESH (R576). -/
def execSelfRefresh (die : Fin 8) (s : State) : Out' := upd s (doSelfRefresh die)
/-- CLUSTER_WAKE (R576). -/
def execClusterWake (cl : Fin 192) (s : State) : Out' := upd s (doClusterWake cl)
/-- REGION_WAKE (R577). -/
def execRegionWake (region : Fin 32) (s : State) : Out' := upd s (doRegionWake region)
/-- DIE_WAKE (R576). -/
def execDieWake (die : Fin 8) (s : State) : Out' := upd s (fun d => wakeDie d die)
/-- DROOP (R582). -/
def execDroop (cl : Fin 192) (mv : Fin 1024) (s : State) : Out' := upd s (doDroop cl mv)
/-- DROOP_RELEASE (R582). -/
def execDroopRelease (cl : Fin 192) (s : State) : Out' := upd s (doDroopRelease cl)
/-- AGEING_TEST (R579). -/
def execAgeingTest (core : Fin 768) (p : Fin 16) (low : Bool) (s : State) : Out' := upd s (doAgeingTest core p low)
/-- ENERGY_SETTLE (R600). -/
def execEnergySettle (m : EnergyMeas) (s : State) : Out' := upd s (doEnergySettle m)
/-- BUDGET_WRITE (R604). -/
def execBudgetWrite (port : Fin 2) (data : Word) (s : State) : Out' := upd s (setupWr port offPW_BUDGET data (budgetEff port data))
/-- RAMP_WRITE (R605). -/
def execRampWrite (port : Fin 2) (data : Word) (s : State) : Out' := upd s (setupWr port offPW_RAMP data (rampEff port data))

end Sys2Proof.Machine
end

