-- ==== Sys2Proof/Machine/Firmware.lean ====
section
/-! DEFINITION. Sys2Proof/Machine/Firmware.lean: images, banks, the boot record and firmware update as the mailbox and PLDM share them
(R727 to R733). Banks are numbered 1 A, 2 B, 0 none. -/

namespace Sys2Proof.Machine

open Sys2Proof

/-! ## Banks -/

/-- A bank by number. -/
def getBank (q : Sec) (b : Nat) : Bank := if b = 1 then q.bankA else if b = 2 then q.bankB else Bank.empty

/-- Replace a bank. -/
def setBank (q : Sec) (b : Nat) (x : Bank) : Sec := if b = 1 then { q with bankA := x } else if b = 2 then { q with bankB := x } else q

/-- R727, R729: the Bridle image of a bank may be used: it is valid, its slot is not revoked and its SVN is not below FUSE_SVN. -/
def bankBoots (q : Sec) (b : Nat) : Bool :=
  let x := getBank q b
  x.bridleOk && decide (q.fuseSvn ≤ x.svn) && !q.slotsRevoked.testBit x.bridleSlot

/-- R729: the bank the ROM chooses; 0 is ROM recovery. -/
def chooseBank (q : Sec) : Nat :=
  let first := if q.trial ≠ 0 ∧ q.fails < 2 then [q.trial] else []
  ((first ++ [q.active, 3 - q.active]).find? (bankBoots q)).getD 0

/-- R615, R616, R727: the sequencer image that verifies, by its digest: that of the running bank, else of the other (DEDUCED, log 33). -/
def seqImage (q : Sec) : Option Nat :=
  if q.run = 0 then none
  else ([q.run, 3 - q.run].find? (fun b =>
    let x := getBank q b
    x.seqOk && decide (q.fuseSvn ≤ x.svn) && !q.slotsRevoked.testBit x.seqSlot)).map (fun b => (getBank q b).seqDigest)

/-- R731: the bank an update writes: the one that is not running; in ROM recovery the one that is not ACTIVE. -/
def idleBank (q : Sec) : Nat := if q.run = 0 then 3 - q.active else 3 - q.run

/-- R738: SVN_A or SVN_B of a bank. -/
def shownSvn (x : Bank) : Nat := if x.valid then x.svn else 0xFF

/-- R738: SU_FW.UPDATE: 3 while the Bridles restart from a TRIAL bank. -/
def shownUpdate (q : Sec) (up : Bool) : Nat :=
  match q.update with
  | some u => if u.verified then 2 else 1
  | none => if !up && q.trial != 0 && q.run == q.trial then 3 else 0

/-- R738: SU_FW shows flash and fuses. -/
def showFw (q : Sec) (s : Dev) : Dev :=
  let w := reg s offSU_FW
  let w := putFld (putFld (putFld w 62 62 q.debugFused.toNat) 55 48 q.fuseSvn) 47 40 (shownSvn q.bankA)
  let w := putFld (putFld (putFld w 39 32 (shownSvn q.bankB)) 29 28 q.run) 27 26 q.trial
  setReg s offSU_FW (putFld w 2 0 (shownUpdate q s.bridle.up))

/-- A new Sec, shown in SU_FW. -/
def withSec (s : State) (q : Sec) : State := { s with sec := q, dev := showFw q s.dev }

/-! ## Bridles that stop and return (R54, R733) -/

/-- R653: the records that go to the flash fault log: DEVICE ones and those with REPLACE. -/
def toFaultLog (b : Block64) : Bool := fld b 39 32 == 4 || bit b 43

/-- R54: the primary Bridle runs: the records that waited are delivered. -/
def bridleUp (s : Dev) : Dev :=
  let q := s.bridle.queue.map (fun e => e.2)
  pushEvents { s with bridle := { s.bridle with up := true, queue := [], seen := s.bridle.seen ++ q, faultLog := s.bridle.faultLog ++ q.filter toFaultLog } }

/-- R733: the Bridles restart; until they run, nothing of management answers. -/
def bridleDown (s : Dev) : Dev := { s with bridle := { s.bridle with up := false } }

/-! ## Images (R727) -/

/-- The header of an image at a byte of a bank. -/
structure ImageHead where
  type : Nat
  slot : Nat
  svn : Nat
  revoke : Nat
  version : Nat
  length : Nat
  digest : Nat
deriving DecidableEq, Repr

/-- Read a header. -/
def imageHead (t : Tab Byte) (o : Nat) : ImageHead :=
  { type := readNat t (o + 4) 1, slot := readNat t (o + 5) 1, svn := readNat t (o + 6) 1, revoke := readNat t (o + 7) 1,
    version := readNat t (o + 8) 4, length := readNat t (o + 12) 4, digest := readNat t (o + 16) 48 }

/-- R727: an image at a byte of a bank is valid. -/
def imageValid (q : Sec) (t : Tab Byte) (o : Nat) : Bool :=
  let h := imageHead t o
  readNat t o 4 == 0x46444952 && decide (h.slot < 4) && !q.slotsRevoked.testBit h.slot && decide (q.fuseSvn ≤ h.svn) && decide (h.svn ≤ 64)
    && Config.ecdsaOk h.slot (Config.sha384 0x160 (readNat t o 0x160)) (readNat t (o + 0x160) 96)
    && h.digest == Config.sha384 h.length (readNat t (o + 512) h.length)

/-- The start of the image after the one at a byte. -/
def nextImage (t : Tab Byte) (o : Nat) : Nat := o + 512 + (imageHead t o).length

/-- R728, R732: the bank after its bundle is checked, where every image is valid and all have one SVN. The images lie one behind the other
from the start of the bank, in the order of their types (log 34). -/
def checkBundle (q : Sec) (x : Bank) (len : Nat) : Option Bank :=
  let o1 := 0
  let o2 := nextImage x.data o1
  let o3 := nextImage x.data o2
  let h1 := imageHead x.data o1
  let h2 := imageHead x.data o2
  let h3 := imageHead x.data o3
  if h1.type == 1 && h2.type == 2 && h3.type == 3 && h1.svn == h2.svn && h2.svn == h3.svn && decide (nextImage x.data o3 ≤ len)
      && imageValid q x.data o1 && imageValid q x.data o2 && imageValid q x.data o3 then
    some { x with valid := true, bridleOk := true, seqOk := true, svn := h1.svn, version := h1.version,
                  revoke := Nat.lor (Nat.lor (h1.revoke % 16) (h2.revoke % 16)) (h3.revoke % 16), bridleSlot := h1.slot, seqSlot := h2.slot,
                  bridleDigest := h1.digest, seqDigest := h2.digest, listDigest := h3.digest }
  else none

/-! ## Updates (R730 to R733) -/

/-- The size of a bank. -/
def bankSize : Nat := 24 * 2 ^ 20

/-- R731, R732: an update begins: the idle bank is erased. -/
def beginUpdate (q : Sec) (path len now : Nat) : Sec :=
  let q := setBank q (idleBank q) Bank.empty
  { q with update := some { path := path, len := len, comp := 0, base := 0, size := 0, at' := now, verified := false } }

/-- Bytes arrive at an offset of the idle bank. -/
def writeUpdate (q : Sec) (u : Update) (o : Nat) (data : List Byte) (now : Nat) : Sec :=
  let b := idleBank q
  let x := getBank q b
  let t := (data.zip (List.range data.length)).foldl (fun t e => tabSet (fun _ => 0) t (o + e.2) e.1) x.data
  { (setBank q b { Bank.empty with data := t }) with update := some { u with at' := now, verified := false } }

/-- R732: the idle bank's bundle is checked. -/
def verifyUpdate (q : Sec) (u : Update) (now : Nat) : Sec × Bool :=
  match checkBundle q (getBank q (idleBank q)) u.len with
  | some x => ({ (setBank q (idleBank q) x) with update := some { u with at' := now, verified := true } }, true)
  | none => ({ q with update := some { u with at' := now, verified := false } }, false)

/-- R731, R732: the update ends and the bank it was writing is invalid. -/
def dropUpdate (q : Sec) : Sec := { (setBank q (idleBank q) Bank.empty) with update := none }

/-- R733: the verified bank becomes TRIAL and the Bridles restart from it. -/
def activate (s : State) : State :=
  let q := { s.sec with trial := idleBank s.sec, fails := 0, update := none }
  withSec { s with dev := bridleDown s.dev } { q with run := chooseBank q }

/-- R730: the bank COMMIT acts on, and whether it is accepted: both banks are valid and neither SVN is below the new value. -/
def commitBank (q : Sec) : Nat := if q.trial = 0 then q.run else q.trial
def commitOk (q : Sec) : Bool :=
  q.bankA.valid && q.bankB.valid && decide ((getBank q (commitBank q)).svn ≤ q.bankA.svn) && decide ((getBank q (commitBank q)).svn ≤ q.bankB.svn)

/-- The slots a bundle revokes; its own images' slots are left. -/
def revokes (x : Bank) : Nat := Nat.land (x.revoke % 16) (15 - Nat.lor (2 ^ x.bridleSlot) (2 ^ x.seqSlot) % 16)

/-- R730: an accepted COMMIT. -/
def commit (q : Sec) : Sec :=
  let x := getBank q (commitBank q)
  { q with fuseSvn := max q.fuseSvn x.svn, active := commitBank q, trial := 0, fails := 0, slotsRevoked := Nat.lor q.slotsRevoked (revokes x) }

/-- R733: one failed boot of the TRIAL bank is counted; where the ROM then chooses another bank, the Bridles restart from it. -/
def bootFails (s : State) : State :=
  let q := { s.sec with fails := s.sec.fails + 1 }
  let b := chooseBank q
  if b = q.run then withSec s q else withSec { s with dev := bridleDown s.dev } { q with run := b }

end Sys2Proof.Machine
end

