-- ==== Sys2Proof/Machine/Startup.lean ====
section
/-! DEFINITION. Sys2Proof/Machine/Startup.lean: the stages, the host reset pins, the Halter and Saddled steps, the device reset and the
mailbox (R614 to R643, R574, R719, R789, R791). -/

namespace Sys2Proof.Machine

open Sys2Proof

/-! ## Halter begins (R616, R618 to R620) -/

/-- A host port whose reset pin is released and whose hub is in service. -/
def portReleased (s : Dev) (p : Nat) : Bool := !(getPort s p).inReset && !hubLost s p

/-- R619 step 2: STAGE reads HALTER once the link of each released port is up; `stay` takes the links as they are (R630 step 4). -/
def enterHalter (s : Dev) (stay : Bool) : Dev :=
  if s.su.begun && (stage s == 0 || stage s == 4) && (stay || [0, 1].all (fun p => !portReleased s p || portUp s p)) then
    halterWork (noteStep (setF s fSU_STATUS_STAGE 1) 2)
  else s

/-- R616: no sequencer image has verified. -/
def failFw (s : Dev) : Dev :=
  let s := setF (setF (setF s fSU_STATUS_STAGE 3) fSU_STATUS_CAUSE 1) fSU_RESET_BUSY 0
  setF { s with su := { s.su with relAt := s.now } } fSU_PINS_FAULT 1

/-- R620: a region's state as Halter begins: the Halter regions run at 1.2 GHz, the others are POWER_GATED. -/
def gateRegion (s : Dev) (r : Nat) : Dev :=
  if r = 0 ∨ r = 16 then setF (setF s (fPW_RGN_STATE r) 0) (fPW_RGN_FREQ_MHZ r) 1200 else setF s (fPW_RGN_STATE r) 2

/-- R663: the far ports of a lost hub are not enumerated. -/
def lostPorts (s : Dev) : Nat := (if hubLost s 0 then 3 else 0) + (if hubLost s 1 then 12 else 0)

/-- R619 step 1: Halter begins with the sequencer image of digest `img`. Every die and link is trained and tested again (R631), those of
a hub that has been lost apart. -/
def beginHalter (s : Dev) (img : Nat) (stay : Bool) : Dev :=
  let s := { s with su := { s.su with begun := true, relAt := s.now, loadedSeq := img, farDone := BitVec.ofNat 4 (lostPorts s) }, pins := { s.pins with fperst := 0 } }
  let s := setF (noteStep s 1) fSU_STATUS_DIES_OK 0xFF
  let s := (List.range 32).foldl gateRegion s
  let s := (List.range 16).foldl (fun s l => if 14 ≤ l ∧ getF s (fDL_BAY_STATUS_STATE (l - 14)) ≠ 2 then s else setF s (fDL_LINK_STATE l) 1) s
  let s := if hubLost s 0 then (hubLinks s 0).foldl failLink s else s
  let s := if hubLost s 1 then (hubLinks s 1).foldl failLink s else s
  enterHalter (linkSteps (showTap s)) stay

/-- R616, R618: Halter begins when Stand is done, REFCLK is valid and a host reset pin is released; with no sequencer image it never does. -/
def tryHalter (s : Dev) (img : Option Nat) (stay : Bool) : Dev :=
  if s.su.standDone && !s.su.begun && s.pw.off == .on && getF s fPW_STATUS_REFCLK_OK == 1 && stage s != 3 && [0, 1].any (portReleased s) then
    match img with
    | some d => pushEvents (beginHalter { s with su := { s.su with seqOk := true } } d stay)
    | none => pushEvents (failFw { s with su := { s.su with seqOk := false } })
  else s

/-! ## Stand (R615, R719, R729, R782) -/

/-- R387, R415: spare rows left in each stack, from the repair log. -/
def loadSpares (s : Dev) : Dev :=
  (List.range 16).foldl (fun s k => setF s (fMT_STACK_SPARES k) (2048 - ((s.ms.rowSpare.filter (fun e => e.1 / 1024 == k)).map (fun e => e.2)).sum)) s

/-- R499, R615, R629: a power-on: Stand runs, and the identity block is loaded from the fuses; `modId` is what the straps give. An update in progress is over (R731). -/
def standUp (s : State) (modId : Nat) : State :=
  let q := { s.sec with update := none }
  let q := { q with run := chooseBank q }
  let d := powerOnReset s.dev
  let d := setF (setF d fID_PART_PART q.part) fID_PART_BAYS q.bays
  let d := setF (setF (setF d fSU_PINS_MOD_ID modId) fSO_CFG_MODULE_ID modId) fSU_PINS_PWR_OK 1
  let d := loadSpares { d with su := { d.su with standDone := q.run != 0, seqOk := (seqImage q).isSome } }
  withSec { s with dev := d } q

/-- STAND's effect: the input is back or the module has not been powered (R570, R571). -/
def doStand (modId : Nat) (s : State) : State := if !s.dev.su.powered || s.dev.pw.off == .input then standUp s modId else s

/-- R719: the arbiter makes one Bridle primary, and once a hub is lost the other one (R662). -/
def doPrimaryArbitration (hn : Bool) (s : Dev) : Dev :=
  let p := getF s fSU_FW_PRIMARY
  if !s.su.powered then s
  else if p = 0 then bridleUp (setF s fSU_FW_PRIMARY (if hn then 1 else 2))
  else if p = 1 ∧ hubLost s 0 = true ∧ hn = false then bridleUp (setF s fSU_FW_PRIMARY 2)
  else s

/-! ## Pins and clocks (R617, R618, R789, R791) -/

/-- R616, R617, R630: both host reset pins are asserted. A device that no sequencer image had verified starts Stand again. -/
def perstReset (s : Dev) (img : Option Nat) : Dev :=
  let stand := !s.su.begun
  let s := resetPlanes .perst s
  let s := setF s fSU_STATUS_STAGE (if stand then 0 else 4)
  pushEvents { s with su := { s.su with seqOk := img.isSome } }

/-- R617: a host reset pin is asserted. -/
def doPerstAssert (p : Nat) (img : Option Nat) (s : Dev) : Dev :=
  if (getPort s p).inReset then s
  else
    let s := modPort s p (fun x => { x with inReset := true })
    if !s.su.powered || s.pw.off != .on then s
    else if (getPort s (1 - p)).inReset then perstReset s img
    else modPort (linkDown s p) p (fun x => { HostPort.init with inReset := true, dead := x.dead })

/-- R618: a host reset pin is released. -/
def doPerstRelease (p : Nat) (img : Option Nat) (s : Dev) : Dev :=
  let s := modPort s p (fun x => { x with inReset := false })
  if s.su.powered then tryHalter s img false else s

/-- R789, R618: REFCLK has been valid for 1 ms. -/
def doRefclkValid (img : Option Nat) (s : Dev) : Dev :=
  if s.su.powered && s.pw.off != .input then tryHalter (setF s fPW_STATUS_REFCLK_OK 1) img false else s

/-- R791: REFCLK has been valid again for 10 ms: the module restarts from Stand. -/
def doRefclkRestart (s : State) : State :=
  if s.dev.su.refLost && getF s.dev fPW_STATUS_REFCLK_OK == 1 then
    if s.dev.pw.off = .refclk then standUp s (getF s.dev fSU_PINS_MOD_ID) else { s with dev := { s.dev with su := { s.dev.su with refLost := false } } }
  else s

/-! ## The Halter steps (R619, R622, R623) -/

/-- DL_UP: a host port's link comes up: at Halter step 2, or after a loss (R498). Its host window is a destination again (R371). -/
def doDlUp (p : Nat) (s : Dev) : Dev :=
  if s.su.powered && s.pw.off == .on && portReleased s p && !portUp s p && (s.su.begun || stage s == 3) then
    pushEvents (enterHalter (modPort s p (fun x => { x with up := true, dead := false })) false)
  else s

/-- R619 step 5: the stacks have trained; `ok` gives those that did, on the dies that are there. -/
def doStackTraining (ok : Nat) (s : Dev) : Dev :=
  if !s.su.begun || stepDone s 5 then s
  else
    let there := (List.range 16).filter (fun k => !dieLost s (k / 2))
    let lost := getF s fFLT_HEALTH_STACKS_LOST
    let s := setF s fMT_STATUS_STACK_OK (maskOf there)
    let s := there.foldl (fun s k =>
      if ok.testBit k then s
      else if lost.testBit k then setF s fMT_STATUS_STACK_OK (Nat.land (getF s fMT_STATUS_STACK_OK) (65535 - 2 ^ k))
      else doStackLoss k s) s
    pushEvents (halterWork (noteStep (loadSpares s) 5))

/-- R619 step 7: the near tier is zeroed. -/
def doNearTierZeroing (s : Dev) : Dev :=
  if !s.su.begun || !stepDone s 5 || stepDone s 7 then s
  else
    let s := modMs s (fun m => { m with tier := m.tier.filter (fun e => !isNear e.1), tierPoison := m.tierPoison.filter (fun x => !isNear (64 * x)), tierErr := m.tierErr.filter (fun e => !isNear (64 * e.1)) })
    halterWork (noteStep (setF s fMT_STATUS_NEAR_ZEROED 1) 7)

/-- R392, R619 step 8: a far port's training and enumeration end. -/
def doFarPortEnumeration (f : Nat) (r : FarTrain) (s : Dev) : Dev :=
  if !s.su.begun || s.su.farDone.getLsbD f then s
  else
    let s := { (farShow s f 1 r) with su := { s.su with farDone := putBit s.su.farDone f true } }
    if s.su.farDone = 15 then halterWork (noteStep s 8) else s

/-- R623: a region may be tested now: it belongs to a die in service, those below it on the die have been, and the steps it waits for are
over. -/
def testTurn (s : Dev) (r : Nat) : Bool :=
  s.su.begun && !s.su.tested.getLsbD r && !dieLost s (r / 4) && (List.range 4).all (fun i => decide (r % 4 ≤ i) || s.su.tested.getLsbD (r / 4 * 4 + i))
    && ((r == 0 && halterReach s 0) || (r == 16 && halterReach s 1) || (stepDone s 6 && stepDone s 7))

/-- R622: a Halter region has passed, or not. -/
def halterRegion (s : Dev) (r : Nat) (pass : Bool) : Dev :=
  if r = 0 ∧ halterReach s 0 = true then setF s fSU_STATUS_HALTER_N pass.toNat
  else if r = 16 ∧ halterReach s 1 = true then setF s fSU_STATUS_HALTER_O pass.toNat else s

/-- R623, R655: a region's self-test in Halter ends. -/
def halterTest (s : Dev) (r : Nat) (pass : Bool) : Dev :=
  let s := halterRegion { s with su := { s.su with tested := putBit s.su.tested r true } } r pass
  let s := if pass then s
    else
      let s := setF (setReg s (offSLC_RGN r) (BitVec.ofNat 64 (3 * 2 ^ 62))) (fPW_RGN_STATE r) 2
      if (List.range 4).all (fun i => getF s (fSLC_RGN_STATE (r / 4 * 4 + i)) == 3) then dieLostEarly s (r / 4) else regionRecord s r
  pushEvents (halterWork s)

/-- R626: a self-test the manager started ends on a region: one region of a die at a time, ascending. -/
def managerTest (s : Dev) (r : Nat) (pass : Bool) : Dev :=
  if (List.range 4).any (fun i => decide (i < r % 4) && s.selfTest.getLsbD (r / 4 * 4 + i)) then s
  else
    let s := { s with selfTest := putBit s.selfTest r false }
    if pass then setF { s with su := { s.su with testPass := putBit s.su.testPass r true } } (fSLC_RGN_STATE r) 0
    else pushEvents (domainDrop { s with su := { s.su with testFail := putBit s.su.testFail r true } } { Drop.none with dead := 2 ^ r })

/-- REGION_SELFTEST_DONE's effect. -/
def doRegionSelftestDone (r : Nat) (pass : Bool) (s : Dev) : Dev :=
  if s.selfTest.getLsbD r then managerTest s r pass else if testTurn s r then halterTest s r pass else s

/-! ## Saddled (R624, R625, R627) -/

/-- R624 step 1: 2.5 s after PERST_N release the Halter commands still in flight stop with ABORTED. -/
def doHalterCutoff (s : Dev) : Dev :=
  if stage s = 1 ∧ stepDone s 12 = true then
    let s := { s with now := max s.now (s.su.relAt + 2500000000) }
    ((s.cmds.filter (fun c => decide (0x20 ≤ c.tag))).map (fun c => c.key)).foldl (fun s k => failCmd s k 0x05) s
  else s

/-- R319: the agents that enter the domain: the regions in service and the sequencer caches of the hubs in service. -/
def domainMembers (s : Dev) : Nat :=
  maskOf ((List.range 32).filter (fun r => getF s (fSLC_RGN_STATE r) != 3)) + (if hubLost s 0 then 0 else 3 * 2 ^ 32) + (if hubLost s 1 then 0 else 3 * 2 ^ 34)

/-- R624 steps 2 to 4: what Saddled's entry leaves; `pmin` is the input power measured with no filler (R591, R607). -/
def saddleWork (pmin : Nat) (s : Dev) : Dev :=
  let s := groomRegion (groomRegion (groomChannel (groomChannel (noteStep s 13) 0) 8) 0) 16
  let s := setF (setF (setF (noteStep s 14) fSU_STATUS_HALTER_N 0) fSU_STATUS_HALTER_O 0) fCD_STATUS_MEMBERS (domainMembers s)
  let s := setF (setF (setF s fPW_STATUS_REIN_UP 1) fPW_INPUT_PMIN_W pmin) fSU_STATUS_STAGE 2
  let s := noteStep (noteStep { s with pw := { s.pw with beff := 1000000 } } 15) 11
  let s := setF (setF s fSU_STATUS_SADDLE_MS (min 4095 ((s.now - s.su.relAt) / 1000000))) fSU_RESET_BUSY 0
  if getF s fSU_CFG_RDY_EN = 1 then [0, 1].foldl (fun s p => sendMsix s p none (getF s fSU_CFG_RDY_VEC)) s else s

/-- R624: Saddled begins when the cutoff is over and no Halter command is left. -/
def doSaddle (pmin : Nat) (s : Dev) : Dev :=
  if stage s = 1 ∧ stepDone s 12 = true ∧ s.cmds.isEmpty = true then pushEvents (saddleWork pmin s) else s

/-- R625, R733: 3.0 s after PERST_N release; a TRIAL bank counts a failed boot. -/
def doSaddleTimeout (s : State) : State :=
  let d := s.dev
  if d.su.begun && (stage d == 0 || stage d == 1 || stage d == 4) then
    let d := { d with now := max d.now (d.su.relAt + 3000000000) }
    let d := pushEvents (setF (setF (setF (setF d fSU_STATUS_STAGE 3) fSU_STATUS_CAUSE 2) fSU_RESET_BUSY 0) fSU_PINS_FAULT 1)
    if s.sec.trial ≠ 0 ∧ s.sec.run = s.sec.trial then bootFails { s with dev := d } else { s with dev := d }
  else s

/-! ## The device reset (R630, R634, R638) -/

/-- R616, R630: a device reset runs to Halter step 1; the sequencer image is verified again where none had been. -/
def deviceReset (s : Dev) (img : Option Nat) : Dev :=
  tryHalter (setF (setF (resetPlanes .device s) fSU_RESET_BUSY 1) fSU_STATUS_STAGE 4) img true

/-- R634, R638: the effect of a write of SU_RESET. -/
def suResetEff (port : Nat) (img : Option Nat) (data : Word) (s : Dev) : Dev :=
  if fld data 7 0 ≠ 0xD5 ∨ stage s = 0 ∨ stage s = 4 ∨ getF s fSU_RESET_BUSY = 1 then setupError s port offSU_RESET else deviceReset s img

/-! ## The mailbox (R639, R640) -/

/-- A request's opcode, length and payload. -/
def mbxOpc (s : Dev) : Nat := fld (reg s (offSU_MBX_REQ 0)) 15 0
def mbxLen (s : Dev) : Nat := fld (reg s (offSU_MBX_REQ 0)) 27 16
def mbxBytes (s : Dev) (o n : Nat) : List Byte := (List.range n).map (fun i => byteOf (reg s (offSU_MBX_REQ (1 + (o + i) / 8))) ((o + i) % 8))

/-- R616, R639: firmware holds a request of an opcode that it has not answered. -/
def mbxServed (s : Dev) (opc : Nat) : Bool :=
  getF s fSU_MBX_CTL_BUSY == 1 && mbxOpc s == opc && s.su.mbx.isNone && (stage s == 1 || stage s == 2 || (stage s == 3 && getF s fSU_STATUS_CAUSE == 2))

/-- Firmware has formed a response. -/
def answer (s : Dev) (st : Nat) (data : List Byte) : Dev := { s with su := { s.su with mbx := some { status := st, payload := data } } }

/-- R640: a request of an opcode: BAD_LENGTH and WRONG_STAGE come before what the opcode does. -/
def mbxRow (opc : Nat) (inHalter : Bool) (lenOk : Nat → Bool) (f : State → State) (s : State) : State :=
  if !mbxServed s.dev opc then s
  else if !lenOk (mbxLen s.dev) then { s with dev := answer s.dev 2 [] }
  else if !inHalter && stage s.dev != 2 then { s with dev := answer s.dev 3 [] }
  else f s

/-- Answer in a state with its firmware. -/
def reply (s : State) (st : Nat) (data : List Byte) : State := { s with dev := answer s.dev st data }

/-- The last Halter step reached. -/
def lastStep (s : Dev) : Nat := (((List.range 12).reverse).find? (stepDone s)).getD 0

/-- R640: GET_INFO: VERSION of banks A and B in 4 bytes each, the running bank in 4, the last Halter step reached in 4, zeros (log 35). -/
def getInfo (s : State) : State :=
  reply s 0 (leBytes 4 s.sec.bankA.version ++ leBytes 4 s.sec.bankB.version ++ leBytes 4 s.sec.run ++ leBytes 4 (lastStep s.dev) ++ leBytes 8 0)

/-- R626: a region that SELFTEST may take: GROOMED, and held by no slice. -/
def testable (s : Dev) (r : Nat) : Bool := getF s (fSLC_RGN_STATE r) == 0 && getF s (fSLC_RGN_HOLDERS r) == 0

/-- R626: SELFTEST. -/
def selftest (s : Dev) : Dev :=
  let m := leNat (mbxBytes s 0 4)
  if (bitsOf 32 m).all (testable s) then
    let s := (bitsOf 32 m).foldl (fun s r => setF s (fSLC_RGN_STATE r) 2) s
    let s := { s with selfTest := s.selfTest ||| BitVec.ofNat 32 m, su := { s.su with testAsk := BitVec.ofNat 32 m, testPass := 0, testFail := 0 } }
    answer (if m = 0 then s else enterTso s) 0 []
  else answer s 4 []

/-- R640: SELFTEST_RESULT: masks passed and failed, and the busy flag, 4 bytes each. -/
def selftestResult (s : Dev) : Dev :=
  answer s 0 (leBytes 4 (s.su.testPass &&& s.su.testAsk).toNat ++ leBytes 4 (s.su.testFail &&& s.su.testAsk).toNat ++ leBytes 4 (decide (s.selfTest ≠ 0)).toNat)

/-- R640: the time of a step in µs from PERST_N release. -/
def stepTime (s : Dev) (k : Nat) : Nat := if stepDone s k then min ((tabGet (fun _ => 0) s.su.steps k - 1 - s.su.relAt) / 1000) 0xFFFFFFFE else 0xFFFFFFFF

/-- R640: STAGE_LOG. -/
def stageLog (s : Dev) : Dev := answer s 0 ((List.range 15).flatMap (fun i => leBytes 4 (stepTime s (i + 1))))

/-- R640, R732: the opcodes. -/
def mbxKnown (opc : Nat) : Bool := [0x0001, 0x0010, 0x0011, 0x0020, 0x0030, 0x0031, 0x0032, 0x0033, 0x0034, 0x0035, 0x0036].contains opc

/-- R639, R641: the response is written, BUSY clears and DONE is set. An opcode of no table is answered with BAD_OPCODE. The message goes
out on both ports (DEDUCED, log 35). -/
def doMailboxResponse (s : Dev) : Dev :=
  match (match s.su.mbx with
    | some r => some r
    | none => if mbxServed s (mbxOpc s) && !mbxKnown (mbxOpc s) then some { status := 1, payload := [] } else none) with
  | none => s
  | some r =>
    let n := r.payload.length
    let s := setReg s (offSU_MBX_RSP 0) (BitVec.ofNat 64 (r.status + 2 ^ 16 * n + 2 ^ 32 * fld (reg s (offSU_MBX_REQ 0)) 63 32))
    let s := (List.range ((n + 7) / 8)).foldl (fun s w => setReg s (offSU_MBX_RSP (1 + w)) (BitVec.ofNat 64 (leNat ((r.payload.drop (8 * w)).take 8)))) s
    let s := setF (setF { s with su := { s.su with mbx := none } } fSU_MBX_CTL_BUSY 0) fSU_MBX_CTL_DONE 1
    if getF s fSU_MBX_CTL_IRQ_EN = 1 then [0, 1].foldl (fun s p => sendMsix s p none (getF s fSU_CFG_RDY_VEC)) s else s

/-- R616, R639: the effect of a write of SU_MBX_CTL. -/
def mbxCtlEff (port : Nat) (data : Word) (s : Dev) : Dev :=
  let busy := getF s fSU_MBX_CTL_BUSY == 1
  let s := writeReg s offSU_MBX_CTL data
  if !data.getLsbD 0 then s
  else if busy || (stage s == 3 && getF s fSU_STATUS_CAUSE == 1) then setupError s port offSU_MBX_CTL
  else setF { s with su := { s.su with mbx := none } } fSU_MBX_CTL_BUSY 1

/-- R639: the effect of a write of a request word. -/
def mbxReqEff (port off : Nat) (data : Word) (s : Dev) : Dev :=
  if getF s fSU_MBX_CTL_BUSY = 1 then setupError s port off else writeReg s off data

/-! ## The commands -/

/-- A command that changes device and firmware. -/
def updWhole (s : State) (f : State → State) : Out' := .next { (f s) with pending := s.pending }

/-- STAND (R615): the MOD_ID straps. -/
def execStand (modId : Fin 32) (s : State) : Out' := updWhole s (doStand modId)
/-- PRIMARY_ARBITRATION (R719): HN's Bridle runs. -/
def execPrimaryArbitration (hnRunning : Bool) (s : State) : Out' := upd s (doPrimaryArbitration hnRunning)
/-- PERST_ASSERT (R617). -/
def execPerstAssert (port : Fin 2) (s : State) : Out' := upd s (doPerstAssert port (seqImage s.sec))
/-- PERST_RELEASE (R618). -/
def execPerstRelease (port : Fin 2) (s : State) : Out' := upd s (doPerstRelease port (seqImage s.sec))
/-- REFCLK_VALID (R789). -/
def execRefclkValid (s : State) : Out' := upd s (doRefclkValid (seqImage s.sec))
/-- REFCLK_RESTART (R791). -/
def execRefclkRestart (s : State) : Out' := updWhole s doRefclkRestart
/-- DL_UP (R619). -/
def execDlUp (port : Fin 2) (s : State) : Out' := upd s (doDlUp port)
/-- STACK_TRAINING (R619). -/
def execStackTraining (ok : BitVec 16) (s : State) : Out' := upd s (doStackTraining ok.toNat)
/-- NEAR_TIER_ZEROING (R619). -/
def execNearTierZeroing (s : State) : Out' := upd s doNearTierZeroing
/-- FAR_PORT_ENUMERATION (R392). -/
def execFarPortEnumeration (f : Fin 4) (result : FarTrain) (s : State) : Out' := upd s (doFarPortEnumeration f result)
/-- REGION_SELFTEST_DONE (R623). -/
def execRegionSelftestDone (region : Fin 32) (pass : Bool) (s : State) : Out' := upd s (doRegionSelftestDone region pass)
/-- HALTER_CUTOFF (R624). -/
def execHalterCutoff (s : State) : Out' := upd s doHalterCutoff
/-- SADDLE (R624). -/
def execSaddle (pmin : Fin 4096) (s : State) : Out' := upd s (doSaddle pmin)
/-- SADDLE_TIMEOUT (R625). -/
def execSaddleTimeout (s : State) : Out' := updWhole s doSaddleTimeout
/-- DEVICE_RESET (R630). -/
def execDeviceReset (port : Fin 2) (s : State) : Out' := upd s (setupWr port offSU_RESET 0xD5 (suResetEff port (seqImage s.sec) 0xD5))
/-- GET_INFO (R640). -/
def execGetInfo (s : State) : Out' := updWhole s (mbxRow 0x0001 true (fun n => n == 0) getInfo)
/-- SELFTEST (R626). -/
def execSelftest (s : State) : Out' := updWhole s (mbxRow 0x0010 false (fun n => n == 4) (fun s => { s with dev := selftest s.dev }))
/-- SELFTEST_RESULT (R640). -/
def execSelftestResult (s : State) : Out' := updWhole s (mbxRow 0x0011 false (fun n => n == 0) (fun s => { s with dev := selftestResult s.dev }))
/-- STAGE_LOG (R640). -/
def execStageLog (s : State) : Out' := updWhole s (mbxRow 0x0020 true (fun n => n == 0) (fun s => { s with dev := stageLog s.dev }))
/-- MAILBOX_RESPONSE (R639). -/
def execMailboxResponse (s : State) : Out' := upd s doMailboxResponse

end Sys2Proof.Machine
end

