-- ==== Sys2Proof/Machine/Faults.lean ====
section
/-! DEFINITION. Sys2Proof/Machine/Faults.lean: rail failures (R655 to R663) and the set-up of event rings and trace buffers (R650 to R652,
R671, R672, R712, R804). -/

namespace Sys2Proof.Machine

open Sys2Proof

/-! ## Rail failures -/

/-- R655, R657: in service: a region, a compute die or a hub is lost with its rail, and the domain drops. -/
def railDrop (s : Dev) (part : Nat) : Dev :=
  if part < 32 then (if getF s (fSLC_RGN_STATE part) = 3 then s else domainDrop s { Drop.none with dead := 2 ^ part })
  else if part < 40 then (if dieLost s (part - 32) then s else domainDrop s { Drop.none with dead := 15 * 2 ^ (4 * (part - 32)), kind := 1, die := some (part - 32) })
  else if hubLost s (part - 40) then s
  else domainDrop s { Drop.none with dead := 3 * 2 ^ (32 + 2 * (part - 40)), kind := 1, hub := some (part - 40) }

/-- R622, R635: the Halter channel of a half that has lost its region runs nothing more. -/
def halterDies (s : Dev) (h : Nat) : Dev :=
  let s := setF s (if h = 0 then fSU_STATUS_HALTER_N else fSU_STATUS_HALTER_O) 0
  ((s.cmds.filter (fun c => c.chan == 8 * h)).map (fun c => c.key)).foldl (fun s k => failCmd s k 0x05) s

/-- R635: before Saddled a part is lost without a drop. -/
def railEarly (s : Dev) (part : Nat) : Dev :=
  if part < 32 then
    if getF s (fSLC_RGN_STATE part) = 3 ∨ dieLost s (part / 4) = true then s
    else halterTest (if part = 0 then halterDies s 0 else if part = 16 then halterDies s 1 else s) part false
  else if part < 40 then
    let d := part - 32
    pushEvents (linkSteps (dieLostEarly (if d = 0 then halterDies s 0 else if d = 4 then halterDies s 1 else s) d))
  else
    let h := part - 40
    if hubLost s h then s
    else
      let s := loseHub (halterDies s h) h
      let s := noteReplace (errRecord s { sev := 3, cause := 0x0063, die := 8 + h, replace := true, hubO := h == 0 }) 5
      pushEvents (linkSteps { s with su := { s.su with farDone := s.su.farDone ||| BitVec.ofNat 4 (3 * 2 ^ (2 * h)) } })

/-- The number of a part: its region, or 32 and its die. -/
def railNum : RailPart → Nat
  | .region r => r
  | .die d => 32 + d

/-- R655, R696: a rail or PLL fails. While the module is stopped it is recorded, and its drop starts at resume. -/
def doRailFailure (p : RailPart) (s : Dev) : Dev :=
  if !s.su.begun then s
  else if stage s ≠ 2 then railEarly s (railNum p)
  else if whoaStopped s then { s with obs := { s.obs with heldRail := s.obs.heldRail ++ [railNum p] } }
  else pushEvents (railDrop s (railNum p))

/-! ## Event rings and trace buffers -/

/-- A LOG2SZ of R650. -/
def ringSize (n : Nat) : Bool := decide (6 ≤ n) && decide (n ≤ 16)

/-- R671, R804: the effect of a write of the CFG register at `off`, whose ring has the given STATE and CAUSE fields. A ring on a port whose
link is down becomes ABORTED at once (R651, DEDUCED, log 37). -/
def ringCfgEff (port off : Nat) (state cause : Fld) (data : Word) (s : Dev) : Dev :=
  let enable : Fld := ⟨off, 0, 0⟩
  if getF s enable = 1 then
    let s := if othersChange s off data then setupError s port off else s
    if data.getLsbD 0 then s else setF (setF (setF s enable 0) state 0) cause 0
  else
    let s1 := writeReg s off data
    let p := getF s1 ⟨off, 41, 40⟩
    if !data.getLsbD 0 then s1
    else if ringSize (getF s1 ⟨off, 5, 1⟩) && (p == 1 || p == 2) then
      if portUp s1 (portOf p) then setF (setF s1 state 1) cause 0 else setF (setF s1 state 3) cause 2
    else setupError (setF s1 enable 0) port off

/-- R652: the backlog goes to the ring that becomes ACTIVE, in SEQ order. -/
def deliverBacklog (s : Dev) (n : Nat) : Dev :=
  if getF s (fFLT_ER_STATE_STATE n) = 1 then
    let q := s.flt.backlog
    let s := setF { s with flt := { s.flt with backlog := [] } } fFLT_SEQ_BACKLOG 0
    q.foldl (fun s e => ringDeliver s n e.2) s
  else s

/-- R671: the effect of a write of FLT_ERn_CFG. -/
def erCfgEff (port n : Nat) (data : Word) (s : Dev) : Dev :=
  deliverBacklog (ringCfgEff port (offFLT_ER_CFG n) (fFLT_ER_STATE_STATE n) (fFLT_ER_STATE_CAUSE n) data s) n

/-- R712, R689: the effect of a write of OBS_TRBb_CFG. -/
def trbCfgEff (port b : Nat) (data : Word) (s : Dev) : Dev :=
  let s := ringCfgEff port (offOBS_TRB_CFG b) (fOBS_TRB_STATE_STATE b) (fOBS_TRB_STATE_CAUSE b) data s
  traceDrain b s.obs.staged.length s

/-- R672: the effect of a write of a STATE register: HEAD, judged by the ring's size. -/
def ringHeadEff (port off : Nat) (log2sz : Fld) (data : Word) (s : Dev) : Dev :=
  if !ringSize (getF s log2sz) then setupError s port off
  else
    let s := writeReg s off data
    if 2 ^ getF s log2sz ≤ getF s ⟨off, 15, 0⟩ then setF (setF s ⟨off, 63, 62⟩ 2) ⟨off, 55, 48⟩ 3 else s

/-- R672: the effect of a write of FLT_ERn_STATE. -/
def erHeadEff (port n : Nat) (data : Word) (s : Dev) : Dev := ringHeadEff port (offFLT_ER_STATE n) (fFLT_ER_CFG_LOG2SZ n) data s

/-- R672, R712: the effect of a write of OBS_TRBb_STATE; staged records then find room. -/
def trbHeadEff (port b : Nat) (data : Word) (s : Dev) : Dev :=
  let s := ringHeadEff port (offOBS_TRB_STATE b) (fOBS_TRB_CFG_LOG2SZ b) data s
  traceDrain b s.obs.staged.length s

/-! ## The commands -/

/-- RAIL_FAILURE (R655). -/
def execRailFailure (part : RailPart) (s : State) : Out' := upd s (doRailFailure part)
/-- EVENT_RING_ENABLE (R671): a write of FLT_ERn_CFG with ENABLE set. -/
def execEventRingEnable (port : Fin 2) (ring : Fin 2) (data : Word) (s : State) : Out' :=
  let w := data ||| 1
  upd s (setupWr port (offFLT_ER_CFG ring) w (erCfgEff port ring w))
/-- EVENT_RING_HEAD (R672): a write of FLT_ERn_STATE.HEAD. -/
def execEventRingHead (port : Fin 2) (ring : Fin 2) (head : BitVec 16) (s : State) : Out' :=
  let w : Word := head.setWidth 64
  upd s (setupWr port (offFLT_ER_STATE ring) w (erHeadEff port ring w))

end Sys2Proof.Machine
end

