-- ==== Sys2Proof/Machine/Observe.lean ====
section
/-! DEFINITION. Sys2Proof/Machine/Observe.lean: time synchronisation, snapshots, counter samples, Whoa sources and the hang dump
(R677 to R718, R783, R784). What RESUME does stands in Machine/Setup.lean, since held set-up writes act then. -/

namespace Sys2Proof.Machine

open Sys2Proof

/-! ## Time synchronisation (R677 to R679, R783, R784) -/

/-- A signed value of 32 bits, saturated, as its bits. -/
def sat32 (x : Int) : Nat := wrapNat 32 (max (-2147483648) (min 2147483647 x))

/-- R677: an offset has been measured: time base minus reference. The slew in progress gives way to the one that cancels it; above 1 ms
there is none (R678). -/
def measured (s : Dev) (off : Int) : Dev :=
  let big := decide (off.natAbs > 1000000)
  let s := settleSlew s s.now (fun _ => if big then 0 else -off)
  let good := if off.natAbs ≤ 20 then min 16 (s.obs.good + 1) else 0
  let s := { s with obs := { s.obs with good := good, lastMeas := s.now } }
  setF (setF s fOBS_TSYNC_STAT_OFFSET_NS (sat32 off)) fOBS_TSYNC_STAT_STATE (if good = 16 then 2 else 1)

/-- R677: the distance of an edge from the nearest multiple of 10^9 ns. -/
def ppsOffset (t : Nat) : Int :=
  let r := t % 1000000000
  if 2 * r < 1000000000 then (r : Int) else (r : Int) - 1000000000

/-- R783: SYNC_IO changes. Rising edges are captured in the input modes TIME and FRAME. -/
def doSyncEdge (rising : Bool) (s : Dev) : Dev :=
  let mode := getF s fSU_SYNCIO_MODE
  if !s.su.powered || s.pw.off != .on || mode == 3 then s
  else
    let s := setF s fSU_PINS_SYNC rising.toNat
    if !rising || mode == 0 then s
    else
      let t := timeBase s
      let s := setF (setReg s offSU_SYNCIO_CAP t) fSU_SYNCIO_CNT_EDGES ((getF s fSU_SYNCIO_CNT_EDGES + 1) % 2 ^ 32)
      if mode = 1 ∧ getF s fOBS_TSYNC_CFG_SRC = 2 then measured s (ppsOffset t.toNat) else s

/-- R677: no measurement for 1 s under TANDEM, or no edge for 2 s under PPS. -/
def doHoldoverExpiry (s : Dev) : Dev :=
  let src := getF s fOBS_TSYNC_CFG_SRC
  if src = 0 ∨ getF s fOBS_TSYNC_STAT_STATE = 3 then s
  else setF { s with now := max s.now (s.obs.lastMeas + (if src = 1 then 1000000000 else 2000000000)) } fOBS_TSYNC_STAT_STATE 3

/-- R784: a configuration that wants SYNC_IO for time and for something else. -/
def conflictSync (s : Dev) (port off : Nat) : Dev := setupError (setF s fSU_SYNCIO_ERR 1) port off

/-- R677, R679, R784: the effect of a write of OBS_TSYNC_CFG. -/
def tsyncCfgEff (port : Nat) (data : Word) (s : Dev) : Dev :=
  if fld data 1 0 = 2 ∧ getF s fSU_SYNCIO_MODE ≠ 1 then conflictSync s port offOBS_TSYNC_CFG
  else
    let old := reg s offOBS_TSYNC_CFG
    let s := writeReg s offOBS_TSYNC_CFG data
    let src := getF s fOBS_TSYNC_CFG_SRC
    if reg s offOBS_TSYNC_CFG = old then s
    else
      let s := settleSlew s s.now (fun x => if src = 0 then 0 else x)
      setF { s with obs := { s.obs with good := 0, lastMeas := s.now } } fOBS_TSYNC_STAT_STATE (if src = 0 then 0 else 1)

/-- R678: the effect of a write of OBS_TSYNC_STEP. -/
def tsyncStepEff (port : Nat) (data : Word) (s : Dev) : Dev :=
  if (List.range 16).any (fun c => getF s (fSLC_CYC_CFG_EN c) == 1) then setupError s port offOBS_TSYNC_STEP
  else satF { s with tOff := s.tOff + data } fOBS_TSYNC_STAT_STEPS 1

/-- R784, R798: the effect of a write of SU_SYNCIO: MODE keeps its value where it would leave TIME under PPS. The pin is driven low when
FRAME_OUT ends. -/
def syncioEff (port : Nat) (data : Word) (s : Dev) : Dev :=
  let was := getF s fSU_SYNCIO_MODE
  if fld data 1 0 ≠ 1 ∧ getF s fOBS_TSYNC_CFG_SRC = 2 then conflictSync (writeRegBy s offSU_SYNCIO data (fun f => f.lsb != 0)) port offSU_SYNCIO
  else
    let s := setF (writeReg s offSU_SYNCIO data) fSU_SYNCIO_ERR 0
    if was = 3 ∧ getF s fSU_SYNCIO_MODE ≠ 3 then setF { s with pins := { s.pins with syncOut := false } } fSU_PINS_SYNC 0 else s

/-! ## Counters (R681, R683, R685 to R687) -/

/-- R683: the codes of a select register, by its block. -/
def selLegal (off v : Nat) : Bool :=
  v == 0 || (if off < 0x700400 then (if off % 0x20 = 0 then decide (v ≤ 0x0C) else decide (0x40 ≤ v) && decide (v ≤ 0x49))
    else if off < 0x700500 then decide (0x80 ≤ v) && decide (v ≤ 0x87) else decide (0xC0 ≤ v) && decide (v ≤ 0xC9))

/-- R681: zero a counter of a slice everywhere it holds: core counter i, or region counter 16 + i. -/
def zeroCounter (s : Dev) (n k : Nat) : Dev :=
  let live (r : Nat) : Bool := residentOf s r == some n
  let zc (e : Nat × Core) : Nat × Core := (e.1, { e.2 with ctr := tabDel e.2.ctr k })
  if k < 16 then
    let s := { s with cores := s.cores.map (fun e : Nat × Core => if live (coreRegion e.1) then zc e else e) }
    { s with saved := s.saved.map (fun x : SavedCtx => if x.slice = n then { x with cores := x.cores.map zc } else x) }
  else
    let s := { s with obs := { s.obs with rctr := s.obs.rctr.filter (fun e => !(e.1 % 16 == k - 16 && live (e.1 / 16))) } }
    { s with saved := s.saved.map (fun x : SavedCtx => if x.slice = n then { x with rctr := x.rctr.filter (fun e => e.1 % 16 != k - 16) } else x) }

/-- R681, R683, R709: the effect of a write of a select register. -/
def selEff (off : Nat) (data : Word) (s : Dev) : Dev :=
  let s := writeRegBy s off data (fun f => selLegal off (fld data f.msb f.lsb))
  if 0x700400 ≤ off then s
  else
    let n := (off - 0x700100) / 0x20
    let w := off % 0x20 / 8
    ((List.range 8).filter (fun i => selLegal off (fld data (8 * i + 7) (8 * i)))).foldl (fun s i => zeroCounter s n (if w = 0 then i else 16 + 8 * (w - 1) + i)) s

/-- Sum of one counter over a table of cores. -/
def coreSum (t : Tab Core) (i : Nat) : Nat := (t.map (fun e : Nat × Core => (tabGet (fun _ => (0 : Word)) e.2.ctr i).toNat)).sum

/-- R685: core counter i of a slice, over every core of every region it holds, saved contexts included. -/
def snapCore (s : Dev) (n i : Nat) : Nat :=
  coreSum (s.cores.filter (fun e => residentOf s (coreRegion e.1) == some n)) i + ((s.saved.filter (fun x => x.slice == n)).map (fun x => coreSum x.cores i)).sum

/-- R685: region counter i of a slice in region r, live or saved. -/
def snapRegion (s : Dev) (n r i : Nat) : Nat :=
  (if residentOf s r = some n then (tabGet (fun _ => (0 : Word)) s.obs.rctr (16 * r + i)).toNat else 0)
    + ((s.saved.filter (fun x => x.slice == n && x.region == r)).map (fun x => ((x.rctr.filter (fun e : Nat × Word => e.1 % 16 == i)).map (fun e : Nat × Word => e.2.toNat)).sum)).sum

/-- R685: the entries of a slice's snapshot, by page offset. -/
def snapEntries (s : Dev) (n : Nat) : List (Nat × Nat) :=
  let held := bitsOf 32 (getF s (fSLC_RGNS_REGIONS n))
  (List.range 8).map (fun i => (0x100 + 8 * i, snapCore s n i))
    ++ (List.range 16).map (fun i => (0x140 + 8 * i, ((List.range 32).map (fun r => snapRegion s n r i)).sum))
    ++ held.flatMap (fun r => (List.range 8).map (fun i => (0x200 + 0x40 * r + 8 * i, snapRegion s n r i)))
    ++ ((List.range 16).filter (fun c => getF s (fCH_STATUS_OWNED c) == 1 && chanSlice s c == n)).flatMap (fun c =>
        [(0xA00 + 0x10 * c, tabGet (fun _ => 0) s.obs.chCount (2 * c)), (0xA08 + 0x10 * c, tabGet (fun _ => 0) s.obs.chCount (2 * c + 1))])
    ++ [(0xB00, (timeBase s).toNat)]

/-- R685, R686: a slice's page is written. -/
def snapSlice (s : Dev) (n : Nat) : Dev :=
  let seq := tabGet (fun _ => 0) s.obs.snapSeq n + 2
  let old := s.obs.snap.filter (fun e => e.1 / 512 != n)
  let snap := (snapEntries s n ++ [(0xB08, seq)]).foldl (fun (t : Tab Word) (e : Nat × Nat) => tabSet (fun _ => (0 : Word)) t (512 * n + e.1 / 8) (BitVec.ofNat 64 e.2)) old
  { s with obs := { s.obs with snap := snap, snapSeq := tabSet (fun _ => 0) s.obs.snapSeq n seq } }

/-- R686: SNAPSHOT's effect, in service. -/
def doSnapshot (s : Dev) : Dev := if stage s = 2 ∧ whoaStopped s = false then (List.range 16).foldl snapSlice s else s

/-- R466, R467, R470: the 8 bytes at an aligned offset of a BAR2 page, as a host reads them. -/
def bar2Word (s : Dev) (page off : Nat) : Word :=
  let c := page / 256
  let i := page % 256
  if i < 64 then (if off = 8 then reg s (offCH_SQ_STATE c i) else if off = 0x10 then reg s (offCH_CQ_STATE c i) else 0)
  else if i = 64 then
    (if 0x100 ≤ off ∧ off < 0x300 then reg s (offCH_SQ_STATE c ((off - 0x100) / 8))
      else if 0x300 ≤ off ∧ off < 0x500 then reg s (offCH_CQ_STATE c ((off - 0x300) / 8)) else 0)
  else if i = 128 then
    (if off = 0 then BitVec.ofNat 64 (c + 2 ^ 8 * getF s fCD_ORDER_MODE
        + 2 ^ 16 * maskOf ((List.range 16).filter (fun k => getF s (fCH_STATUS_OWNED k) == 1 && chanSlice s k == c)))
      else if off = 8 then timeBase s
      else if off = 0x10 then BitVec.ofNat 64 (getF s (fCD_DEADRR_COUNT c))
      else if 0x100 ≤ off then tabGet (fun _ => 0) s.obs.snap (512 * c + off / 8) else 0)
  else 0

/-- R687: the COUNTER records of a hub. -/
def sampleHub (s : Dev) (h : Nat) : Dev :=
  (List.range 64).foldl (fun s i =>
    if fld (reg s (offOBS_HUB_SEL h (i / 8))) (8 * (i % 8) + 7) (8 * (i % 8)) = 0 then s
    else trace s h { kind := 4, job := 0, layer := 0, op := 0, slice := 0xFF, chan := 0xFF, status := 0, info := i, payload := getF s (fOBS_HUB_CTR_COUNT h i) }) s

/-- R687: COUNTER_SAMPLE's effect. -/
def doCounterSample (s : Dev) : Dev :=
  if stage s = 2 ∧ whoaStopped s = false ∧ getF s fOBS_CFG_SAMPLE_US ≠ 0 then [0, 1].foldl (fun s h => if hubLost s h then s else sampleHub s h) s else s

/-! ## Whoa sources (R692 to R694) -/

/-- R692, R693: a write of OBS_WHOA_CTL.STOP. -/
def whoaStopEff (port : Nat) (s : Dev) : Dev := if debugOn s then whoaStop s 1 else setupError s port offOBS_WHOA_CTL

/-- R694: STOP_IO is asserted by another module. -/
def doStopIo (s : Dev) : Dev :=
  if !s.su.powered then s
  else
    let s := setF { s with obs := { s.obs with stopIn := true } } fSU_PINS_STOP 1
    if getF s fOBS_WHOA_CFG_IN_EN = 1 ∧ s.pw.off = .on then whoaStop s 4 else s

/-! ## The hang dump (R699 to R703) -/

/-- A hub's dump engine. -/
def getDump (s : Dev) (h : Nat) : DumpRun := tabGet (fun _ => DumpRun.init) s.obs.dumps h
def setDump (s : Dev) (h : Nat) (d : DumpRun) : Dev := { s with obs := { s.obs with dumps := tabSet (fun _ => DumpRun.init) s.obs.dumps h d } }

/-- R699, R735: why a trigger on a slice is refused, as ERR shows it; 0 is none. -/
def dumpRefuse (s : Dev) (h n : Nat) : Nat :=
  let st := getF s (fOBS_DUMP_STAT_STATE h)
  if st = 1 ∨ st = 2 then 2
  else if getF s (fSLC_CTL_STATE n) ≠ 2 ∨ tdiLocked s n = true then 1
  else if getF s (fOBS_DUMP_LEN_DUMP_LEN h) = 0 ∨ getF s (fOBS_DUMP_BASE_PORT h) = 0 then 4
  else 0

/-- R699, R700 steps 1 and 2: a trigger: the manager's (`none`) or a channel's watchdog. -/
def dumpTrigger (s : Dev) (h n : Nat) (wd : Option Nat) : Dev :=
  match dumpRefuse s h n with
  | 0 =>
    let s := setReg s (offOBS_DUMP_STAT h) (BitVec.ofNat 64 (2 ^ 62 + (match wd with
      | some c => c * 2 ^ 40 + 2 ^ 38
      | none => getF s (fOBS_DUMP_STAT_TRIG_CHAN h) * 2 ^ 40)))
    setDump s h { active := true, slice := n, trigger := wd.getD 0xFF, t1 := timeBase s, held := false, frozen := true, since := s.now }
  | e => setF s (fOBS_DUMP_STAT_ERR h) e

/-- R700: time the slice was frozen is left out of its timeouts, watchdogs and quanta. -/
def thaw (s : Dev) (n d : Nat) : Dev :=
  let mine (k : Nat) : Bool := cmdTag s k == n
  let grp (g : Group) : Group := if mine g.cmd then { g with hold := match g.hold with
    | .barrier sc b t e => .barrier sc b (t + d) e
    | .stuckBar t => .stuckBar (t + d)
    | h => h } else g
  let s := { s with cores := s.cores.map (fun e : Nat × Core => (e.1, { e.2 with groups := e.2.groups.map (fun g : Nat × Option Group => (g.1, g.2.map grp)) })) }
  let s := { s with cmds := s.cmds.map (fun c : Cmd => if c.tag = n then { c with deadline := c.deadline.map (fun t : Nat => t + d), stopReq := c.stopReq.map (fun t : Nat => t + d) } else c) }
  let s := (List.range 32).foldl (fun s r => if residentOf s r = some n then modRgn s r (fun g => { g with entered := g.entered + d }) else s) s
  (List.range 16).foldl (fun s c => if getF s (fCH_STATUS_OWNED c) = 1 ∧ chanSlice s c = n then modCh s c (fun ch => { ch with lastDone := ch.lastDone + d }) else s) s

/-- R700 step 6: the slice runs again, or its commands stop with ABORTED first. -/
def dumpEnd (s : Dev) (h : Nat) (abort : Bool) : Dev :=
  let d := getDump s h
  let s := setDump (thaw s d.slice (s.now - d.since)) h DumpRun.init
  let s := if abort then ((s.cmds.filter (fun c => c.tag == d.slice)).map (fun c => c.key)).foldl (fun s k => failCmd s k 0x05) s else s
  (residentRegions s d.slice).foldl pokeRegion (setF s (fOBS_DUMP_STAT_STATE h) 3)

/-- R699, R716: the effect of a write of OBS_DUMPh_CTL. -/
def dumpCtlEff (h : Nat) (data : Word) (s : Dev) : Dev :=
  let s := writeReg s (offOBS_DUMP_CTL h) data
  let s := if data.getLsbD 0 then dumpTrigger s h (getF s (fOBS_DUMP_CTL_SLICE h)) none else s
  if getF s (fOBS_DUMP_STAT_STATE h) = 2 ∧ (data.getLsbD 1 || data.getLsbD 2) = true then dumpEnd s h (!data.getLsbD 1) else s

/-- R699: a channel's watchdog fires, and again after another period. -/
def doChannelWatchdog (c : Nat) (s : Dev) : Dev :=
  let wd := fld (reg s (offOBS_CHWD (c / 8))) (8 * (c % 8) + 7) (8 * (c % 8))
  if wd = 0 ∨ whoaStopped s = true ∨ getF s (fCH_STATUS_OWNED c) = 0 ∨ frozenSlice s (chanSlice s c) = true ∨ s.cmds.all (fun x => x.chan != c) = true then s
  else
    let s := { s with now := max s.now ((getCh s c).lastDone + 10000000 * wd) }
    dumpTrigger (modCh s c (fun ch => { ch with lastDone := s.now })) (chanHub c) (chanSlice s c) (some c)

/-- One section of a dump: its class, the region it shows (0xFF none), its source, its length in KiB, whether it contains poison. -/
structure Section where
  cls : Nat
  region : Nat
  src : Nat
  kib : Nat
  poison : Bool
deriving DecidableEq, Repr

/-- R701: the KiB of a class's section. -/
def classKib (c : Nat) : Nat := [72, 96, 6144, 6144, 6144, 36864, 774, 256, 4, 4].getD c 0

/-- R702: whether the state a class shows contains poison. -/
def classPoison (c : Nat) (cores : Tab Core) (spadPoison : List Nat) : Bool :=
  match c with
  | 1 => cores.any (fun e => (coreGroups e.2).any (fun g => g.sp.any (fun x => x.2) || g.pp.any (fun x => x.2 != 0)))
  | 2 => cores.any (fun e => (coreGroups e.2).any (fun g => g.vp.any (fun x => x.2)))
  | 3 => cores.any (fun e => !e.2.lmPoison.isEmpty)
  | 4 => cores.any (fun e => e.2.tiles.any (fun t => t.2.poison))
  | 5 => !spadPoison.isEmpty
  | 7 => cores.any (fun e => e.2.sb.any (fun x => x.poison != 0))
  | _ => false

/-- R700, R701: the sections of a class for a region: the resident slice's live state, and its saved contexts there. -/
def regionSections (s : Dev) (n c r : Nat) : List Section :=
  (if residentOf s r = some n then
    [{ cls := c, region := r, src := 0, kib := classKib c, poison := classPoison c (regionTab s r) (s.ms.spadPoison.filter (fun g => inRegionSpad r (64 * g))) : Section }] else [])
    ++ [0, 1].filterMap (fun x => (findCtx s n r x).map (fun k => { cls := c, region := r, src := 1 + x, kib := classKib c, poison := classPoison c k.cores k.spadPoison : Section }))

/-- R701: the sections a dump selects, in class order and in ascending region number; CHANNELS has one for each channel (log 36). -/
def dumpSections (s : Dev) (n classes : Nat) : List Section :=
  (bitsOf 10 classes).flatMap (fun c =>
    if c = 0 then ((List.range 16).filter (fun k => getF s (fCH_STATUS_OWNED k) == 1 && chanSlice s k == n)).map (fun _ => { cls := 0, region := 0xFF, src := 0, kib := 72, poison := false : Section })
    else if 8 ≤ c then [{ cls := c, region := 0xFF, src := 0, kib := 4, poison := false : Section }]
    else (bitsOf 32 (getF s (fSLC_RGNS_REGIONS n))).flatMap (regionSections s n c))

/-- R701: byte offsets from the buffer base: behind the 8 KiB header, each aligned to 4 KiB. -/
def placeSections : Nat → List Section → List (Section × Nat)
  | _, [] => []
  | o, x :: t => (x, o) :: placeSections (o + (x.kib + 3) / 4 * 4096) t

/-- R702: a section entry of the header. -/
def sectionEntry (x : Section × Nat) : List Byte :=
  let (die, rg) := if x.1.region < 32 then (x.1.region / 4, x.1.region % 4) else (0xFF, 0xFF)
  leBytes 8 (x.1.cls + 2 ^ 8 * die + 2 ^ 16 * rg + 2 ^ 24 * x.1.src + 2 ^ 32 * x.1.poison.toNat + 2 ^ 33 * x.1.kib) ++ leBytes 8 x.2

/-- R702: the dump header, 8 KiB. -/
def dumpHeader (d : DumpRun) (now : Word) (classes : Nat) (trunc : Bool) (l : List (Section × Nat)) : List Byte :=
  let body := leBytes 4 0x504D5544 ++ leBytes 2 1 ++ leBytes 1 d.slice ++ leBytes 1 d.trigger ++ leBytes 8 d.t1.toNat ++ leBytes 8 now.toNat ++ leBytes 8 now.toNat
    ++ leBytes 2 classes ++ leBytes 2 l.length ++ leBytes 1 trunc.toNat ++ leBytes 27 0 ++ l.flatMap sectionEntry
  (body ++ List.replicate (8192 - body.length) 0).take 8192

/-- R701, R702 steps 4 and 5: sections up to the end of the buffer, then the header. -/
def writeDump (s : Dev) (h : Nat) : Dev :=
  let d := getDump s h
  let classes := getF s (fOBS_DUMP_CTL_CLASSES h)
  let len := getF s (fOBS_DUMP_LEN_DUMP_LEN h)
  let base := 4096 * getF s (fOBS_DUMP_BASE_ADDR h)
  let p := portOf (getF s (fOBS_DUMP_BASE_PORT h))
  let l := placeSections 8192 (dumpSections s d.slice classes)
  let trunc := l.any (fun x => decide (len < x.2 + 1024 * x.1.kib))
  if !portUp s p then setF s (fOBS_DUMP_STAT_ERR h) 3
  else
    let s := l.foldl (fun s x =>
      let n := min (1024 * x.1.kib) (len - x.2)
      if n = 0 then s else emit s (.dump p (base + x.2) n x.1.cls x.1.region x.1.src)) s
    let s := hostWrite s p none base ((dumpHeader d (timeBase s) classes trunc l).take len)
    let all := (l.getLast?.map (fun x => x.2 + 1024 * x.1.kib)).getD 8192
    let s := setF (setF s (fOBS_DUMP_STAT_TRUNC h) trunc.toNat) (fOBS_DUMP_STAT_BYTES h) (min all len)
    if getF s (fOBS_DUMP_CTL_IRQ_EN h) = 1 then sendMsix s p none (getF s (fOBS_DUMP_CTL_VECTOR h)) else s

/-- R700 steps 3 to 6: the slice's requests have completed; the sections and the header are written, and ACTION is applied. -/
def doDumpFrozen (h : Nat) (s : Dev) : Dev :=
  let d := getDump s h
  if !d.active || whoaStopped s || (residentRegions s d.slice).any (fun r => (regionTab s r).any (fun e => !e.2.reqs.isEmpty || e.2.sb.any (fun x => x.st == .sent))) then s
  else
    let s := writeDump s h
    match getF s (fOBS_DUMP_CTL_ACTION h) with
    | 2 => setF (setDump s h { d with active := false, held := true }) (fOBS_DUMP_STAT_STATE h) 2
    | a => dumpEnd s h (a == 1)

/-! ## Scans (R444, R445, R697) -/

/-- The code of BYPASS, all ones (log 94). -/
def tapBypass : BitVec 10 := BitVec.allOnes 10

/-- The instruction register of a die's TAP. -/
def tapIr (s : Dev) (d : Nat) : BitVec 10 := tabGet (fun _ => tapBypass) s.pins.tapIr d

/-- R446: the IDCODE of a CD-2 die (0 to 7) or an HD-1 die (8 and 9). -/
def idcode (d : Nat) : BitVec 32 :=
  Config.dieRevision d ++ (if d < 8 then 0x8C02#16 else 0x8B01#16) ++ Config.jep106 ++ 1#1

/-- R444: the instructions a TAP accepts: any in a die of the chain while debug authorization is enabled; else only the hubs take BYPASS,
IDCODE, SAMPLE/PRELOAD, and EXTEST while both host resets are asserted (R617, log 94). -/
def tapAccepts (s : Dev) (d : Nat) (w : BitVec 10) : Bool :=
  (getF s fDL_TAP_INCHAIN).testBit d
    && (debugOn s || w == tapBypass || w == Config.tapCode 0 || w == Config.tapCode 1
      || (w == Config.tapCode 2 && (getPort s 0).inReset && (getPort s 1).inReset))

/-- R444, R446: an instruction scan loads a die's TAP; under IDCODE the die then shows its word in the data scan. -/
def loadTap (s : Dev) (d : Nat) (w : BitVec 10) : Dev :=
  if tapAccepts s d w then
    let s := { s with pins := { s.pins with tapIr := tabSet (fun _ => tapBypass) s.pins.tapIr d w } }
    if w = Config.tapCode 0 then emit s (.idcode d (idcode d)) else s
  else s

/-- R445: the chain-select instrument is loaded, while debug authorization is enabled. -/
def loadChain (s : Dev) (m : BitVec 12) : Dev := if debugOn s then showTap { s with pins := { s.pins with chain := m } } else s

/-- R444 to R446, R697: a scan reads and changes no state of a die; it may load the chain-select instrument, then a TAP's instruction. -/
def doScanOut (select : Option (BitVec 12)) (ir : Option (Fin 10 × BitVec 10)) (s : Dev) : Dev :=
  let s := match select with
    | some m => loadChain s m
    | none => s
  match ir with
  | some (d, w) => loadTap s d w
  | none => s

/-! ## The commands -/

/-- SNAPSHOT (R686). -/
def execSnapshot (s : State) : Out' := upd s doSnapshot
/-- COUNTER_SAMPLE (R687). -/
def execCounterSample (s : State) : Out' := upd s doCounterSample
/-- TRACE_BUFFER_ENABLE (R712): a write of OBS_TRBb_CFG with ENABLE set. -/
def execTraceBufferEnable (port : Fin 2) (buf : Fin 2) (data : Word) (s : State) : Out' :=
  let w := data ||| 1
  upd s (setupWr port (offOBS_TRB_CFG buf) w (trbCfgEff port buf w))
/-- TSYNC_STEP (R678). -/
def execTsyncStep (port : Fin 2) (delta : Word) (s : State) : Out' := upd s (setupWr port offOBS_TSYNC_STEP delta (tsyncStepEff port delta))
/-- SYNC_EDGE (R783): SYNC_IO rises or falls. -/
def execSyncEdge (rising : Bool) (s : State) : Out' := upd s (doSyncEdge rising)
/-- HOLDOVER_EXPIRY (R677). -/
def execHoldoverExpiry (s : State) : Out' := upd s doHoldoverExpiry
/-- WHOA_STOP (R693): a write of OBS_WHOA_CTL.STOP. -/
def execWhoaStop (port : Fin 2) (s : State) : Out' := upd s (setupWr port offOBS_WHOA_CTL 1 (whoaStopEff port))
/-- STOP_IO (R694). -/
def execStopIo (s : State) : Out' := upd s doStopIo
/-- DUMP_GO (R699): a write of OBS_DUMPh_CTL with GO set. -/
def execDumpGo (port : Fin 2) (hub : Fin 2) (data : Word) (s : State) : Out' :=
  let w := putFld (data ||| 1) 2 1 0
  upd s (setupWr port (offOBS_DUMP_CTL hub) w (dumpCtlEff hub w))
/-- CHANNEL_WATCHDOG (R699). -/
def execChannelWatchdog (chan : Fin 16) (s : State) : Out' := upd s (doChannelWatchdog chan)
/-- DUMP_FROZEN (R700). -/
def execDumpFrozen (hub : Fin 2) (s : State) : Out' := upd s (doDumpFrozen hub)
/-- RESUME_HELD (R700): a write of OBS_DUMPh_CTL with RESUME_HELD set. -/
def execResumeHeld (port : Fin 2) (hub : Fin 2) (data : Word) (s : State) : Out' :=
  let w := putFld data 2 0 2
  upd s (setupWr port (offOBS_DUMP_CTL hub) w (dumpCtlEff hub w))
/-- ABORT_HELD (R700): a write of OBS_DUMPh_CTL with ABORT_HELD set. -/
def execAbortHeld (port : Fin 2) (hub : Fin 2) (data : Word) (s : State) : Out' :=
  let w := putFld data 2 0 4
  upd s (setupWr port (offOBS_DUMP_CTL hub) w (dumpCtlEff hub w))
/-- SCAN_OUT (R444 to R446, R697): a scan on the test access chain, with the chain-select value and the instruction it loads, if any. -/
def execScanOut (select : Option (BitVec 12)) (s : State) (ir : Option (Fin 10 × BitVec 10) := none) : Out' := upd s (doScanOut select ir)

end Sys2Proof.Machine
end

