-- ==== Sys2Proof/Machine/Mgmt.lean ====
section
/-! DEFINITION. Sys2Proof/Machine/Mgmt.lean: firmware update by mailbox and PLDM, debug authorization, and the PLDM, SPDM, TDISP, MCTP and
I3C commands of the primary Bridle (R719 to R738, R781, R782). A response goes out as a message of kind 0x100 plus a code of its command;
where the spec names a standard and gives no numbers, completion codes and command codes are the standard's (PRESUMED, log 38). -/

namespace Sys2Proof.Machine

open Sys2Proof

/-- R54, R720, R733: the primary Bridle answers. -/
def answers (s : State) : Bool := s.dev.su.powered && s.dev.bridle.up

/-- R729: it runs verified firmware; in ROM recovery it answers MCTP control, SPDM and firmware update alone. -/
def answersAll (s : State) : Bool := answers s && s.sec.run != 0

/-- A response of the primary Bridle. -/
def respond (s : State) (code : Nat) (data : List Nat) : State := { s with dev := mgmtOut s.dev (0x100 + code) data }

/-! ## Firmware update by mailbox (R730 to R733) -/

/-- R732: FW_QUERY: VERSION of banks A and B in 4 bytes each, then one byte each for SVN A, SVN B, the running bank, the TRIAL bank and the
update state, zeros (log 35). -/
def fwQuery (s : State) : State :=
  let q := s.sec
  reply s 0 (leBytes 4 q.bankA.version ++ leBytes 4 q.bankB.version ++ leBytes 1 (shownSvn q.bankA) ++ leBytes 1 (shownSvn q.bankB) ++ leBytes 1 q.run
    ++ leBytes 1 q.trial ++ leBytes 1 (shownUpdate q s.dev.bridle.up) ++ leBytes 11 0)

/-- R731, R732: FW_BEGIN. A bundle longer than a bank has BAD_LENGTH (log 35). -/
def fwBegin (s : State) : State :=
  let len := leNat (mbxBytes s.dev 0 4)
  if s.sec.update.isSome then reply s 4 []
  else if bankSize < len then reply s 2 []
  else reply (withSec s (beginUpdate s.sec 1 len s.dev.now)) 0 []

/-- R732: FW_WRITE. -/
def fwWrite (s : State) : State :=
  match s.sec.update with
  | some u =>
    let o := leNat (mbxBytes s.dev 0 8)
    let n := mbxLen s.dev - 8
    if u.path ≠ 1 then reply s 4 []
    else if u.len < o + n then reply s 2 []
    else reply (withSec s (writeUpdate s.sec u o (mbxBytes s.dev 8 n) s.dev.now)) 0 []
  | none => reply s 4 []

/-- R732: FW_VERIFY. -/
def fwVerify (s : State) : State :=
  match s.sec.update with
  | some u =>
    if u.path ≠ 1 then reply s 4 []
    else
      let (q, ok) := verifyUpdate s.sec u s.dev.now
      reply (withSec s q) (if ok then 0 else 5) []
  | none => reply s 4 []

/-- R733: FW_ACTIVATE, of a verified bank. -/
def fwActivate (s : State) : State :=
  match s.sec.update with
  | some u => if u.path = 1 ∧ u.verified = true then reply (activate s) 0 [] else reply s 4 []
  | none => reply s 4 []

/-- R730: FW_COMMIT. -/
def fwCommit (s : State) : State := if commitOk s.sec then reply (withSec s (commit s.sec)) 0 [] else reply s 4 []

/-- R731, R732: FW_ABORT. An update by the other path goes on. -/
def fwAbort (s : State) : State :=
  match s.sec.update with
  | some u => if u.path = 1 then reply (withSec s (dropUpdate s.sec)) 0 [] else reply s 4 []
  | none => reply (withSec s (dropUpdate s.sec)) 0 []

/-- R731: an update has been idle for 60 s. -/
def doUpdateIdleExpiry (s : State) : State :=
  match s.sec.update with
  | some u => withSec { s with dev := { s.dev with now := max s.dev.now (u.at' + 60000000000) } } (dropUpdate s.sec)
  | none => s

/-- R733: the Bridle of a TRIAL bank has not reported running within 5 s. -/
def doTrialBootFailure (s : State) : State := if s.dev.su.powered && !s.dev.bridle.up && s.sec.trial != 0 && s.sec.run == s.sec.trial then bootFails s else s

/-! ## Firmware update by PLDM (R731, R733) -/

/-- R731: RequestUpdate. -/
def doRequestUpdate (len : Nat) (s : State) : State :=
  if !answers s then s
  else if s.sec.update.isSome then respond s 289 [0x81]
  else if bankSize < len then respond s 289 [0x02]
  else respond (withSec s (beginUpdate s.sec 2 len s.dev.now)) 289 [0]

/-- R731: UpdateComponent: the components follow one another in the bank in the order of their types (log 34); the device asks for the
first bytes. -/
def doUpdateComponent (comp size : Nat) (s : State) : State :=
  match s.sec.update with
  | some u =>
    let base := if comp = u.comp then u.base else u.base + u.size
    if !answers s then s
    else if u.path ≠ 2 ∨ comp = 0 ∨ 3 < comp ∨ (comp ≠ u.comp ∧ comp ≠ u.comp + 1) ∨ u.len < base + size then respond s 290 [0x02]
    else
      let s := withSec s { s.sec with update := some { u with comp := comp, base := base, size := size, at' := s.dev.now, verified := false } }
      let s := respond s 290 [0]
      { s with dev := mgmtOut s.dev 3 [comp, 0] }
  | none => if answers s then respond s 290 [0x80] else s

/-- R731: firmware data arrives; the device asks for more, or tells that the component is complete. -/
def doFirmwareData (o : Nat) (data : List Byte) (s : State) : State :=
  match s.sec.update with
  | some u =>
    if !answers s || u.path != 2 || u.comp == 0 || decide (u.size < o + data.length) then s
    else
      let s := withSec s (writeUpdate s.sec u (u.base + o) data s.dev.now)
      { s with dev := if o + data.length < u.size then mgmtOut s.dev 3 [u.comp, o + data.length] else mgmtOut s.dev 4 [u.comp] }
  | none => s

/-- R731: CancelUpdate. -/
def doCancelUpdate (s : State) : State :=
  if !answers s then s
  else match s.sec.update with
    | some u => if u.path = 2 then respond (withSec s (dropUpdate s.sec)) 292 [0] else respond s 292 [0x80]
    | none => respond s 292 [0x80]

/-- R733: ActivateFirmware: the bundle is checked where it has not been, and the bank becomes TRIAL. Self-contained activation is refused
(R722). -/
def doActivateFirmware (selfContained : Bool) (s : State) : State :=
  if !answers s then s
  else if selfContained then respond s 233 [0x85]
  else match s.sec.update with
    | some u =>
      if u.path ≠ 2 then respond s 233 [0x80]
      else
        let (q, ok) := if u.verified then (s.sec, true) else verifyUpdate s.sec u s.dev.now
        if ok then activate (respond (withSec s q) 233 [0]) else respond (withSec s q) 233 [0x88]
    | none => respond s 233 [0x80]

/-! ## Restarts (R54, R56) -/

/-- R54: the Bridles stop for a restart, or run again. -/
def doManagementPlaneRestart (up : Bool) (s : State) : State :=
  if !s.dev.su.powered || getF s.dev fSU_FW_PRIMARY == 0 then s
  else if up then withSec { s with dev := bridleUp s.dev } s.sec
  else { s with dev := bridleDown s.dev }

/-! ## Debug authorization (R736) -/

/-- R735: enabling debug authorization moves every locked or running TDI to ERROR. -/
def tdiErrors (s : Dev) : Dev := { s with mg := { s.mg with tdi := s.mg.tdi.map (fun e : Nat × Nat => (e.1, if e.2 = 1 ∨ e.2 = 2 then 3 else e.2)) } }

/-- R736: authorization is set, and shown in SU_FW, DL_TAP and OBS_WHOA_CFG; each change has its record. -/
def setDebug (s : Dev) (on : Bool) : Dev :=
  let s := setF (setF (setF s fSU_FW_DEBUG on.toNat) fDL_TAP_DEBUG on.toNat) fOBS_WHOA_CFG_ARMED on.toNat
  let s := showTap (if on then tdiErrors s else s)
  let r : ErrRec := { sev := 0, cause := 0x0015, unit := 0x0F, detail := offSU_FW }
  if s.pw.off = .on then errRecord s r else offRecord s r

/-- R736: the primary Bridle issues a nonce. -/
def doDebugNonce (nonce : BitVec 128) (s : State) : State :=
  if answersAll s then respond { s with dev := { s.dev with mg := { s.dev.mg with nonces := s.dev.mg.nonces ++ [(nonce.toNat, s.dev.now)] } } } 285 [nonce.toNat] else s

/-- R736: a token is valid. -/
def tokenOk (s : State) (serial : Word) (nonce : BitVec 128) (sig : Nat) : Bool :=
  !s.sec.debugFused && serial == Config.serialNumber && s.dev.mg.nonces.any (fun e => e.1 == nonce.toNat && decide (s.dev.now ≤ e.2 + 60000000000))
    && Config.ecdsaOk 5 (Config.sha384 24 (serial.toNat + 2 ^ 64 * nonce.toNat)) sig

/-- R736: a debug token arrives. -/
def doDebugToken (serial : Word) (nonce : BitVec 128) (sig : BitVec 768) (s : State) : State :=
  if !answersAll s then s
  else if tokenOk s serial nonce sig.toNat then respond { s with dev := setDebug s.dev true } 223 [0] else respond s 223 [1]

/-- R736: a disable message. -/
def doDebugDisable (s : State) : State :=
  if answersAll s && debugOn s.dev then respond { s with dev := setDebug s.dev false } 224 [0] else s

/-! ## PLDM base and monitoring (R722, R724 to R726) -/

/-- R722: GetTID: no command sets the terminus ID, which stays unassigned. -/
def doGetTid (s : State) : State := if answersAll s then respond s 225 [0, 0] else s

/-- R722: the PLDM types served: base, monitoring and control, firmware update. -/
def pldmTypes : List Nat := [0, 2, 5]

/-- R722: GetPLDMVersion: firmware update is version 1.3; the other versions are not given by the spec. -/
def doGetPldmVersion (type : Nat) (s : State) : State :=
  if !answersAll s then s
  else respond s 226 (if type = 5 then [0, 5, 1, 3] else if pldmTypes.contains type then [0, type] else [0x83])

/-- R722: GetPLDMTypes. -/
def doGetPldmTypes (s : State) : State := if answersAll s then respond s 227 (0 :: pldmTypes) else s

/-- R722: GetPLDMCommands. -/
def pldmCommands (type : Nat) : List Nat :=
  if type = 0 then [0x02, 0x03, 0x04, 0x05]
  else if type = 2 then [0x04, 0x0A, 0x11, 0x21, 0x31, 0x39, 0x51]
  else if type = 5 then [0x01, 0x02, 0x10, 0x13, 0x14, 0x15, 0x16, 0x17, 0x18, 0x1A, 0x1B, 0x1C, 0x1D]
  else []
def doGetPldmCommands (type : Nat) (s : State) : State :=
  if answersAll s then respond s 228 (if pldmTypes.contains type then 0 :: pldmCommands type else [0x83]) else s

/-- R724: the reading of a numeric sensor; input power is in W, the product of the voltage in 10 mV and the current in 10 mA. -/
def numericSensor (s : Dev) (id : Nat) : Option Nat :=
  if id = 1 then some (getF s fPW_INPUT_VIN) else if id = 2 then some (getF s fPW_INPUT_IIN) else if id = 3 then some (getF s fPW_INPUT_VIN * getF s fPW_INPUT_IIN / 10000)
  else if 0x10 ≤ id ∧ id ≤ 0x19 then some (dieTemp s (id - 0x10))
  else if 0x20 ≤ id ∧ id ≤ 0x2F then some (getF s (fMT_STACK_TEMP (id - 0x20)))
  else none

/-- R726: the logs as files of whole 64-byte records: 0 the fault log, 1 the repair log, 2 the retired-frame list. A repaired frame, and an
MT_RETIREn word, stands at the start of its record (log 38). -/
def logFile (s : Dev) (k : Nat) : List Byte :=
  match k with
  | 0 => s.bridle.faultLog.flatMap blockBytes
  | 1 => s.bridle.repairLog.flatMap (leBytes 64)
  | _ => (List.range (getF s fMT_RETIRE_CNT_COUNT)).flatMap (fun i => leBytes 64 (reg s (offMT_RETIRE i)).toNat)

/-- R724: GetSensorReading. -/
def doGetSensorReading (id : Nat) (s : State) : State :=
  if answersAll s then respond s 229 (match numericSensor s.dev id with
    | some v => [0, v]
    | none => [0x80]) else s

/-- R724, R726: GetStateSensorReadings. -/
def doGetStateSensorReadings (id : Nat) (s : State) : State :=
  if answersAll s then respond s 230 (match (sensorStates s.dev).find? (fun e => e.1 == id && decide (0x40 ≤ id)) with
    | some e => [0, e.2]
    | none => [0x80]) else s

/-- R584, R725: SetNumericEffecterValue: the management source's budget, ramp limit and floor. -/
def setEffecter (s : Dev) (id v : Nat) : Option Dev :=
  if id = 0x80 ∧ 1000 ≤ v ∧ v ≤ 3600 then some (setF { s with pw := { s.pw with mgmtBudget := some v } } fPW_STATUS_MGMT_W v)
  else if id = 0x81 ∧ rampOk v = true then some { s with pw := { s.pw with mgmtRamp := some v } }
  else if id = 0x82 ∧ v ≤ 3600 then some { s with pw := { s.pw with mgmtFloor := some v } }
  else none
def doSetNumericEffecterValue (id v : Nat) (s : State) : State :=
  if !answersAll s then s
  else match setEffecter s.dev id v with
    | some d => respond { s with dev := d } 231 [0]
    | none => respond s 231 [if 0x80 ≤ id ∧ id ≤ 0x82 then 0x02 else 0x80]

/-- R596, R725: every sensor reads 90 °C or less. -/
def coolEnough (t : Temps) : Bool := (t.regions ++ t.hubs ++ t.stackT).all (fun x => decide (x.val ≤ 90))

/-- R725: SetStateEffecterStates on the restart effecter. -/
def doSetStateEffecterStates (id : Nat) (t : Temps) (s : State) : State :=
  if !answersAll s then s
  else if id ≠ 0x83 then respond s 232 [0x80]
  else
    let s := { s with dev := setTemps s.dev t }
    if s.dev.pw.off = .trip ∧ coolEnough t = true then standUp (respond s 232 [0]) (getF s.dev fSU_PINS_MOD_ID) else respond s 232 [0x04]

/-- R781: the receiver acknowledges the oldest event. -/
def doPlatformEventAck (s : State) : State :=
  if !answersAll s then s
  else
    let l := s.dev.mg.events.tail
    let d := { s.dev with mg := { s.dev.mg with events := l } }
    { s with dev := if l.isEmpty then setF d fSU_PINS_ALERT 0 else d }

/-- R722: SetEventReceiver. -/
def doSetEventReceiver (eid : Option (BitVec 8)) (s : State) : State :=
  if answersAll s then respond { s with dev := { s.dev with mg := { s.dev.mg with receiver := eid.map BitVec.toNat } } } 282 [0] else s

/-! ## MCTP and I3C (R721, R722, R782) -/

/-- R721: an MCTP control message assigns the endpoint ID; 0 and 255 are no endpoint IDs. -/
def doSetEndpointId (eid : Nat) (s : State) : State :=
  if !answers s then s
  else if eid = 0 ∨ eid = 255 then respond s 283 [0x02]
  else respond { s with dev := { s.dev with mg := { s.dev.mg with eid := eid } } } 283 [0]

/-- R782: the I3C controller assigns a dynamic address; `pid` is bits [4:0] of the provisional ID it names. -/
def doDynamicAddressAssignment (pid addr : Nat) (s : State) : State :=
  if answers s && pid == getF s.dev fSU_PINS_MOD_ID then { s with dev := { s.dev with mg := { s.dev.mg with dyn := addr } } } else s

/-! ## SPDM (R722, R723) -/

/-- SPDM state replaced. -/
def setSpdm (s : State) (x : Spdm) : State := { s with dev := { s.dev with mg := { s.dev.mg with spdm := x } } }

/-- An SPDM request: answered with an error where its precondition does not hold. -/
def spdm (s : State) (code : Nat) (ok : Bool) (f : Spdm → Spdm) (data : List Nat) : State :=
  if !answers s then s else if ok then respond (setSpdm s (f s.dev.mg.spdm)) code data else respond s code [0x7F]

/-- Version, capabilities and algorithms have been negotiated. -/
def negotiated (x : Spdm) : Bool := x.version && x.caps && x.algs

/-- A session is open. -/
def hasSession (x : Spdm) (id : Nat) : Bool := x.sessions.any (fun e => e.1 == id)

/-- GET_VERSION begins a negotiation: SPDM 1.3. -/
def doGetVersion (s : State) : State := spdm s 234 true (fun x => { x with version := true, caps := false, algs := false, handshake := none }) [0x13]

/-- GET_CAPABILITIES: certificates, challenge, signed measurements, key exchange, encryption and its integrity, heartbeat, key update. -/
def doGetCapabilities (s : State) : State := spdm s 235 s.dev.mg.spdm.version (fun x => { x with caps := true }) [0x62D6]

/-- NEGOTIATE_ALGORITHMS: what the requester offers must hold ECDSA P-384, SHA-384, secp384r1 and AES-256-GCM. -/
def doNegotiateAlgorithms (p384 sha384 secp384 gcm : Bool) (s : State) : State :=
  spdm s 236 (s.dev.mg.spdm.version && s.dev.mg.spdm.caps && p384 && sha384 && secp384 && gcm) (fun x => { x with algs := true }) [1, 1, 1, 1]

/-- R723: GET_DIGESTS: one chain, in slot 0. -/
def doGetDigests (s : State) : State := spdm s 237 (negotiated s.dev.mg.spdm) id [1]

/-- R723: GET_CERTIFICATE of slot 0. -/
def doGetCertificate (slot : Nat) (s : State) : State := spdm s 238 (negotiated s.dev.mg.spdm && slot == 0) id [slot]

/-- CHALLENGE of slot 0. -/
def doChallenge (slot : Nat) (s : State) : State := spdm s 239 (negotiated s.dev.mg.spdm && slot == 0) id [slot]

/-- R723: a measurement block's content. -/
def measurement (s : State) (i : Nat) : List Nat :=
  let d := s.dev
  match i with
  | 1 => [1, (getBank s.sec s.sec.run).bridleDigest]
  | 2 => [2, d.su.loadedSeq]
  | 3 => [3, s.sec.run, s.sec.fuseSvn, shownSvn s.sec.bankA, shownSvn s.sec.bankB]
  | 4 => [4, getF d fID_PART_PART, getF d fID_PART_BAYS] ++ ([0, 1].filter (fun b => getF d (fDL_BAY_STATUS_STATE b) == 2)).map (fun b => fld (reg d (offDL_BAY_DESC b 3)) 31 0)
  | 5 => [5, getF d fSU_FW_DEBUG, getF d fSU_FW_DEBUG_FUSED]
  | _ => []

/-- R723: GET_MEASUREMENTS: 0 asks for the number of blocks, 0xFF for all of them. -/
def doGetMeasurements (i : Nat) (s : State) : State :=
  spdm s 240 (negotiated s.dev.mg.spdm && (decide (i ≤ 5) || i == 0xFF)) id
    (if i = 0 then [5] else if i = 0xFF then [1, 2, 3, 4, 5].flatMap (measurement s) else measurement s i)

/-- KEY_EXCHANGE. -/
def doKeyExchange (s : State) : State :=
  let x := s.dev.mg.spdm
  spdm s 241 (negotiated x) (fun x => { x with handshake := some x.nextId, nextId := x.nextId + 1 }) [x.nextId]

/-- FINISH. -/
def doFinish (id : Nat) (s : State) : State :=
  spdm s 242 (s.dev.mg.spdm.handshake == some id) (fun x => { x with handshake := none, sessions := x.sessions ++ [(id, 0)] }) [id]

/-- HEARTBEAT. -/
def doHeartbeat (id : Nat) (s : State) : State := spdm s 243 (hasSession s.dev.mg.spdm id) (fun x => x) [id]

/-- KEY_UPDATE. -/
def doKeyUpdate (id : Nat) (s : State) : State :=
  spdm s 244 (hasSession s.dev.mg.spdm id) (fun x => { x with sessions := x.sessions.map (fun e : Nat × Nat => if e.1 = id then (e.1, e.2 + 1) else e) }) [id]

/-- END_SESSION. -/
def doEndSession (id : Nat) (s : State) : State :=
  spdm s 245 (hasSession s.dev.mg.spdm id) (fun x => { x with sessions := x.sessions.filter (fun e => e.1 != id) }) [id]

/-! ## Link encryption and trusted interfaces (R734, R735) -/

/-- A request on a port's DOE: the port's link is up. -/
def doeOpen (s : State) (port : Nat) : Bool := answers s && portUp s.dev port

/-- R734: IDE_KM sets a stream's keys inside an SPDM session: one link stream (256 here) and up to 8 selective streams, whose IDs the host
chooses. -/
def doIdeKm (port id stream : Nat) (s : State) : State :=
  let ks := (getPort s.dev port).ideKeys
  if !doeOpen s port then s
  else if !hasSession s.dev.mg.spdm id || (!ks.contains stream && decide (stream < 256) && decide (8 ≤ (ks.filter (fun k => decide (k < 256))).length)) then respond s 247 [0x7F]
  else respond { s with dev := modPort s.dev port (fun p => { p with ideKeys := if p.ideKeys.contains stream then p.ideKeys else p.ideKeys ++ [stream] }) } 247 [stream]

/-- R466, R734: the BAR2 pages of a slice. -/
def slicePages (s : Dev) (n : Nat) : List Nat :=
  ((List.range 16).filter (fun c => getF s (fCH_STATUS_OWNED c) == 1 && chanSlice s c == n)).flatMap (fun c => (List.range 65).map (fun i => 256 * c + i)) ++ [256 * n + 128]

/-- R734: GET_DEVICE_INTERFACE_REPORT: the slice's pages; the function whose MSI-X table it is follows them. -/
def doGetDeviceInterfaceReport (port n : Nat) (s : State) : State := if doeOpen s port then respond s 246 (slicePages s.dev n ++ [n]) else s

/-- R735: a TDI's state. -/
def tdiState (s : Dev) (n : Nat) : Nat := tabGet (fun _ => 0) s.mg.tdi n
def setTdi (s : State) (n v : Nat) : State := { s with dev := { s.dev with mg := { s.dev.mg with tdi := tabSet (fun _ => 0) s.dev.mg.tdi n v } } }

/-- R735: LOCK_INTERFACE. -/
def doLockInterface (port n : Nat) (s : State) : State :=
  if !doeOpen s port then s else if tdiState s.dev n = 0 then respond (setTdi s n 1) 286 [n] else respond s 286 [0x7F]
/-- R735: START_INTERFACE. -/
def doStartInterface (port n : Nat) (s : State) : State :=
  if !doeOpen s port then s else if tdiState s.dev n = 1 then respond (setTdi s n 2) 287 [n] else respond s 287 [0x7F]
/-- R735: STOP_INTERFACE, from ERROR too (PRESUMED, TDISP 1.0, log 38). -/
def doStopInterface (port n : Nat) (s : State) : State := if doeOpen s port then respond (setTdi s n 0) 288 [n] else s

/-! ## The commands -/

/-- FW_QUERY (R732). -/
def execFwQuery (s : State) : Out' := updWhole s (mbxRow 0x0030 true (fun n => n == 0) fwQuery)
/-- FW_BEGIN (R732). -/
def execFwBegin (s : State) : Out' := updWhole s (mbxRow 0x0031 true (fun n => n == 4) fwBegin)
/-- FW_WRITE (R732). -/
def execFwWrite (s : State) : Out' := updWhole s (mbxRow 0x0032 true (fun n => decide (9 ≤ n) && decide (n ≤ 4088)) fwWrite)
/-- FW_VERIFY (R732). -/
def execFwVerify (s : State) : Out' := updWhole s (mbxRow 0x0033 true (fun n => n == 0) fwVerify)
/-- FW_ACTIVATE (R733). -/
def execFwActivate (s : State) : Out' := updWhole s (mbxRow 0x0034 true (fun n => n == 0) fwActivate)
/-- FW_COMMIT (R730). -/
def execFwCommit (s : State) : Out' := updWhole s (mbxRow 0x0035 true (fun n => n == 0) fwCommit)
/-- FW_ABORT (R732). -/
def execFwAbort (s : State) : Out' := updWhole s (mbxRow 0x0036 true (fun n => n == 0) fwAbort)
/-- UPDATE_IDLE_EXPIRY (R731). -/
def execUpdateIdleExpiry (s : State) : Out' := updWhole s doUpdateIdleExpiry
/-- TRIAL_BOOT_FAILURE (R733). -/
def execTrialBootFailure (s : State) : Out' := updWhole s doTrialBootFailure
/-- REQUEST_UPDATE (R731). -/
def execRequestUpdate (len : Nat) (s : State) : Out' := updWhole s (doRequestUpdate len)
/-- UPDATE_COMPONENT (R731). -/
def execUpdateComponent (comp : Fin 4) (size : Nat) (s : State) : Out' := updWhole s (doUpdateComponent comp size)
/-- FIRMWARE_DATA (R731). -/
def execFirmwareData (offset : Nat) (data : List Byte) (s : State) : Out' := updWhole s (doFirmwareData offset data)
/-- CANCEL_UPDATE (R731). -/
def execCancelUpdate (s : State) : Out' := updWhole s doCancelUpdate
/-- ACTIVATE_FIRMWARE (R733). -/
def execActivateFirmware (selfContained : Bool) (s : State) : Out' := updWhole s (doActivateFirmware selfContained)
/-- MANAGEMENT_PLANE_RESTART (R54): the Bridles stop, or run again. -/
def execManagementPlaneRestart (up : Bool) (s : State) : Out' := updWhole s (doManagementPlaneRestart up)
/-- DEBUG_NONCE (R736). -/
def execDebugNonce (nonce : BitVec 128) (s : State) : Out' := updWhole s (doDebugNonce nonce)
/-- DEBUG_TOKEN (R736). -/
def execDebugToken (serial : Word) (nonce : BitVec 128) (sig : BitVec 768) (s : State) : Out' := updWhole s (doDebugToken serial nonce sig)
/-- DEBUG_DISABLE (R736). -/
def execDebugDisable (s : State) : Out' := updWhole s doDebugDisable
/-- GET_TID (R722). -/
def execGetTid (s : State) : Out' := updWhole s doGetTid
/-- GET_PLDM_VERSION (R722). -/
def execGetPldmVersion (type : Fin 64) (s : State) : Out' := updWhole s (doGetPldmVersion type)
/-- GET_PLDM_TYPES (R722). -/
def execGetPldmTypes (s : State) : Out' := updWhole s doGetPldmTypes
/-- GET_PLDM_COMMANDS (R722). -/
def execGetPldmCommands (type : Fin 64) (s : State) : Out' := updWhole s (doGetPldmCommands type)
/-- GET_SENSOR_READING (R724). -/
def execGetSensorReading (id : BitVec 16) (s : State) : Out' := updWhole s (doGetSensorReading id.toNat)
/-- GET_STATE_SENSOR_READINGS (R724). -/
def execGetStateSensorReadings (id : BitVec 16) (s : State) : Out' := updWhole s (doGetStateSensorReadings id.toNat)
/-- SET_NUMERIC_EFFECTER_VALUE (R725). -/
def execSetNumericEffecterValue (id : BitVec 16) (value : BitVec 32) (s : State) : Out' := updWhole s (doSetNumericEffecterValue id.toNat value.toNat)
/-- SET_STATE_EFFECTER_STATES (R725): the effecter, and the sensors as they read at the request. -/
def execSetStateEffecterStates (id : BitVec 16) (temps : Temps) (s : State) : Out' := updWhole s (doSetStateEffecterStates id.toNat temps)
/-- PLATFORM_EVENT_ACK (R781). -/
def execPlatformEventAck (s : State) : Out' := updWhole s doPlatformEventAck
/-- SET_EVENT_RECEIVER (R722): a receiver's endpoint ID, or none. -/
def execSetEventReceiver (eid : Option (BitVec 8)) (s : State) : Out' := updWhole s (doSetEventReceiver eid)
/-- SET_ENDPOINT_ID (R721). -/
def execSetEndpointId (eid : BitVec 8) (s : State) : Out' := updWhole s (doSetEndpointId eid.toNat)
/-- DYNAMIC_ADDRESS_ASSIGNMENT (R782). -/
def execDynamicAddressAssignment (pid : Fin 32) (addr : BitVec 7) (s : State) : Out' := updWhole s (doDynamicAddressAssignment pid addr.toNat)
/-- GET_VERSION (R722). -/
def execGetVersion (s : State) : Out' := updWhole s doGetVersion
/-- GET_CAPABILITIES (R722). -/
def execGetCapabilities (s : State) : Out' := updWhole s doGetCapabilities
/-- NEGOTIATE_ALGORITHMS (R722). -/
def execNegotiateAlgorithms (p384 sha384 secp384r1 gcm : Bool) (s : State) : Out' := updWhole s (doNegotiateAlgorithms p384 sha384 secp384r1 gcm)
/-- GET_DIGESTS (R723). -/
def execGetDigests (s : State) : Out' := updWhole s doGetDigests
/-- GET_CERTIFICATE (R723). -/
def execGetCertificate (slot : Fin 8) (s : State) : Out' := updWhole s (doGetCertificate slot)
/-- CHALLENGE (R722). -/
def execChallenge (slot : Fin 8) (s : State) : Out' := updWhole s (doChallenge slot)
/-- GET_MEASUREMENTS (R723). -/
def execGetMeasurements (index : BitVec 8) (s : State) : Out' := updWhole s (doGetMeasurements index.toNat)
/-- KEY_EXCHANGE (R722). -/
def execKeyExchange (s : State) : Out' := updWhole s doKeyExchange
/-- FINISH (R722). -/
def execFinish (session : Nat) (s : State) : Out' := updWhole s (doFinish session)
/-- HEARTBEAT (R722). -/
def execHeartbeat (session : Nat) (s : State) : Out' := updWhole s (doHeartbeat session)
/-- KEY_UPDATE (R722). -/
def execKeyUpdate (session : Nat) (s : State) : Out' := updWhole s (doKeyUpdate session)
/-- END_SESSION (R722). -/
def execEndSession (session : Nat) (s : State) : Out' := updWhole s (doEndSession session)
/-- GET_DEVICE_INTERFACE_REPORT (R734). -/
def execGetDeviceInterfaceReport (port : Fin 2) (slice : Fin 16) (s : State) : Out' := updWhole s (doGetDeviceInterfaceReport port slice)
/-- IDE_KM (R734): port, session, and the stream: a selective stream's ID, or 256 for the link stream. -/
def execIdeKm (port : Fin 2) (session : Nat) (stream : Fin 257) (s : State) : Out' := updWhole s (doIdeKm port session stream)
/-- LOCK_INTERFACE (R735). -/
def execLockInterface (port : Fin 2) (slice : Fin 16) (s : State) : Out' := updWhole s (doLockInterface port slice)
/-- START_INTERFACE (R735). -/
def execStartInterface (port : Fin 2) (slice : Fin 16) (s : State) : Out' := updWhole s (doStartInterface port slice)
/-- STOP_INTERFACE (R735). -/
def execStopInterface (port : Fin 2) (slice : Fin 16) (s : State) : Out' := updWhole s (doStopInterface port slice)

end Sys2Proof.Machine
end

