-- ==== Sys2Proof/Machine/ScaleOut.lean ====
section
/-! DEFINITION. Sys2Proof/Machine/ScaleOut.lean: the scale-out ports and what Tandem does with packets that arrive, acknowledgements,
resends, rates, failures and time exchange (R739 to R768), and the set-up registers of the scale-out block. -/

namespace Sys2Proof.Machine

open Sys2Proof

/-! ## Work that waited on peer modules -/

/-- R330, R475: a command that waited only for acknowledgements of peer modules, and has them all, ends. -/
def settlePeers (s : Dev) : Dev :=
  if whoaStopped s then s
  else
    let s := (List.range 16).foldl tryTlb s
    let ks := (s.cmds.filter (fun c => c.phase == .draining && !peerBusy s c.key)).map (fun c => c.key)
    if ks.isEmpty then s else (List.range 32).foldl pokeRegion (ks.foldl finishCmd s)

/-- Deliver a read answer to the core request a peer access stands for. -/
def answerPeer (s : Dev) (q : PeerReq) (a : RdRes) : Dev :=
  match q.who with
  | none => s
  | some (core, id) =>
    match getReq s core id with
    | some r => if r.waiting && !r.served then answerRead s core r a else s
    | none => s

/-- R369: a peer access that ends at a dead module: a write is lost, a read delivers poison. -/
def losePeer (s : Dev) (q : PeerReq) : Dev :=
  let s := { s with peerOut := s.peerOut.filter (fun x => x.id != q.id) }
  if q.kind = 2 then
    let s := if q.who.isNone then markPoison s q.cmd else s
    let d : LineData := (List.range 8).foldl (fun (d : LineData) i => putSector d i (BitVec.ofNat 512 (leNat ((List.range 64).map (byteOf (Config.poisonData s.free)))))) 0
    answerPeer (bumpFree s) q { data := d, poison := 255, err := none }
  else loseWrite s q.cmd 0x08

/-- The stores of core store buffers that lie in the peer window of a module are dropped (R370). -/
def inWindow (s : Dev) (m pa : Nat) : Bool :=
  match placeOf s pa with
  | .peer => peerMod pa == m
  | _ => false

/-- R369, R755: a module is dead: every access to it in flight ends, and every flow to it. -/
def peerDies (s : Dev) (m : Nat) : Dev :=
  if getF s (fSO_PEER_DEAD m) = 1 then s
  else
    let s := setF s (fSO_PEER_DEAD m) 1
    let s := dropWrites s (fun pa _ => inWindow s m pa)
    let s := (s.peerOut.filter (fun q => peerMod q.pa == m)).foldl losePeer s
    let s := modTx s (fun f => f.mod == m) (fun f => { f with unacked := [], waitAt := none, idleAt := s.now })
    let hub := ((s.tandem.tx.find? (fun f => f.mod == m)).map (fun f => f.hub)).getD 0
    settlePeers (destRecord s (2 + 256 * m) { sev := 2, cause := 0, die := 8 + hub, unit := 0x0C, hubO := hub == 1 })

/-! ## Sending again (R746, R748, R754) -/

/-- R746: the source flow of a triple. -/
def txFlow (s : Dev) (eng m tc : Nat) : Option TxFlow := s.tandem.tx.find? (isFlow eng m tc)

/-- R748, R762: a packet is sent again; a packet resent 16 times fails its flow. -/
def resend (eng m tc : Nat) (s : Dev) (q : TxPkt) : Dev :=
  match txFlow s eng m tc with
  | none => s
  | some f =>
    match f.unacked.find? (fun x => x.pkt.psn == q.pkt.psn), f.port with
    | some x, some port =>
      if 16 ≤ x.resends then peerDies s m
      else
        let s := modTx s (isFlow eng m tc) (fun f => { f with unacked := updFirst (fun y => y.pkt.psn == x.pkt.psn) (fun y => { y with sent := true, resends := if y.sent then y.resends + 1 else 0, sentAt := s.now }) f.unacked })
        sendPacket (if x.sent then satF s (fSO_STAT_RESENDS f.hub) 1 else s) port x.pkt
    | _, _ => s

/-- R754, R756: one flow whose port is not UP is pinned again, and its unacknowledged packets are sent in PSN order; with no port it
waits. -/
def repinFlow (s : Dev) (f : TxFlow) : Dev :=
  let good := match f.port with
    | some p => getF s fSO_CFG_EN == 1 && getF s (fSO_PORT_STATE p) == 2
    | none => false
  if good || getF s (fSO_PEER_DEAD f.mod) == 1 then s
  else
    match pinPort s f.eng f.mod f.tc with
    | none => modTx s (isFlow f.eng f.mod f.tc) (fun f => { f with port := none, waitAt := some (f.waitAt.getD s.now) })
    | some p =>
      let s := modTx s (isFlow f.eng f.mod f.tc) (fun f => { f with port := some p, waitAt := none, ackAt := if f.port.isNone then s.now else f.ackAt, rate := if f.rate = 0 then portRate s p else min f.rate (portRate s p) })
      f.unacked.foldl (resend f.eng f.mod f.tc) s

/-- Every flow that has lost its port, or waits for one, is pinned again. -/
def repin (s : Dev) : Dev := launchAll (s.tandem.tx.foldl repinFlow s)

/-! ## Acknowledgements at the sender (R748) -/

/-- Serial order of PSNs: `psn` is at or before `ack`. -/
def psnCovered (ack psn : Nat) : Bool := decide ((ack + 2 ^ 32 - psn) % 2 ^ 32 < 2 ^ 31)

/-- Remove peer accesses whose packets are acknowledged. -/
def acked (s : Dev) (ids : List Nat) : Dev := { s with peerOut := s.peerOut.filter (fun q => !ids.contains q.id) }

/-- R748: a cumulative acknowledgement, with the bitmap of the 64 PSNs after it: covered packets but READ_REQs are done, and the packets
missing from the bitmap are sent again at once. -/
def ackFlow (s : Dev) (eng m tc ack bitmap : Nat) : Dev :=
  match txFlow s eng m tc with
  | none => s
  | some f =>
    let gone := f.unacked.filter (fun q => psnCovered ack q.pkt.psn.toNat && q.pkt.op != 2)
    let rest := f.unacked.filter (fun q => !(psnCovered ack q.pkt.psn.toNat && q.pkt.op != 2))
    let top := (bitsOf 64 bitmap).getLast?
    let dist (q : TxPkt) : Nat := (q.pkt.psn.toNat + 2 ^ 32 - ack) % 2 ^ 32
    let lostPk := match top with
      | none => []
      | some t => rest.filter (fun q => decide (1 ≤ dist q) && decide (dist q ≤ t) && !bitmap.testBit (dist q - 1))
    let s := modTx s (isFlow eng m tc) (fun f => { f with unacked := rest, ackAt := s.now, idleAt := if rest.isEmpty then s.now else f.idleAt })
    let s := acked s (gone.flatMap (fun q => q.reqs))
    launchAll (settlePeers (lostPk.foldl (resend eng m tc) s))

/-- The packet of a flow with a PSN is done: its accesses are taken out. -/
def psnDone (s : Dev) (eng m tc psn : Nat) : Dev × List PeerReq :=
  match txFlow s eng m tc with
  | none => (s, [])
  | some f =>
    let ids := (f.unacked.filter (fun q => q.pkt.psn.toNat == psn)).flatMap (fun q => q.reqs)
    let rest := f.unacked.filter (fun q => q.pkt.psn.toNat != psn)
    let qs := s.peerOut.filter (fun q => ids.contains q.id)
    (acked (modTx s (isFlow eng m tc) (fun f => { f with unacked := rest, ackAt := s.now, idleAt := if rest.isEmpty then s.now else f.idleAt })) ids, qs)

/-- R750: a refused access takes ACCESS_FAULT: a load at once, a core's store at the wait that covers it, any other at its command. -/
def peerFaults (s : Dev) (q : PeerReq) : Dev :=
  match q.who with
  | some _ => answerPeer s q { data := 0, poison := 0, err := some 0x02 }
  | none =>
    let eng := q.eng.getD 0
    if 0x400 ≤ eng ∧ eng < 0x800 then
      let core := eng - 0x400
      match (getCore s core).sb.find? (fun e => e.peer == some q.id) with
      | some e => noteLost (freeSb s core e.seq) core e.groups e.cmds (lostLevel s q.pa) 0x02
      | none => loseWrite s q.cmd 0x02
    else failCmd s q.cmd 0x02

/-- R751: the data of a READ_RSP reaches the load it answers; the reader receives poison where the response carries it. -/
def readRsp (s : Dev) (p : Packet) : Dev :=
  match s.peerOut.find? (fun q => q.kind == 2 && BitVec.ofNat 32 q.id == p.tag && peerMod q.pa == p.src.toNat) with
  | none => s
  | some q =>
    let lo := (maskSpan q.mask.toNat).1
    let data : LineData := BitVec.ofNat 4096 (leNat p.payload * 2 ^ (8 * lo))
    let eng := q.eng.getD 0
    let tc := flowClass eng (peerMod q.pa)
    let psn := (((txFlow s eng (peerMod q.pa) tc).map (fun f => f.unacked)).getD []).find? (fun x => x.reqs.contains q.id)
    let s := match psn with
      | some x => (psnDone s eng (peerMod q.pa) tc x.pkt.psn.toNat).1
      | none => acked s [q.id]
    let s := if p.poison && q.who.isNone then markPoison s q.cmd else s
    launchAll (settlePeers (answerPeer s q { data := data, poison := if p.poison then 255 else 0, err := none }))

/-! ## The receiver (R747 to R751) -/

/-- A flow received, by its triple. -/
def isRx (eng src tc : Nat) (f : RxFlow) : Bool := f.eng == eng && f.src == src && f.tc == tc

/-- Update received flows. -/
def modRx (s : Dev) (p : RxFlow → Bool) (f : RxFlow → RxFlow) : Dev :=
  { s with tandem := { s.tandem with rx := updAll p f s.tandem.rx } }

/-- R743: a packet's payload as bytes and the mask of the bytes to write. -/
def payloadBytes (p : Packet) : List Byte × Nat :=
  if p.masked then
    let n := p.payload.length / 72
    (p.payload.drop (8 * n), leNat (p.payload.take (8 * n)))
  else (p.payload, 2 ^ p.payload.length - 1)

/-- The bytes of the peer window a request covers. -/
def packetLen (p : Packet) : Nat := if p.op = 2 then p.len.toNat + 1 else (payloadBytes p).1.length

/-- R747: the right a request needs of an export entry. -/
def expRight (s : Dev) (e op : Nat) : Nat :=
  if op = 2 then getF s (fSO_EXP0_RD e) else if op = 1 then getF s (fSO_EXP0_WR e) else getF s (fSO_EXP0_RED e)

/-- R747: the first VALID export entry that holds a request's whole range and admits its source. -/
def expMatch (s : Dev) (p : Packet) : Option Nat :=
  let lo := p.addr.toNat
  let hi := p.addr.toNat + packetLen p - 1
  (List.range 256).find? (fun e =>
    getF s (fSO_EXP0_VALID e) == 1 && decide (getF s (fSO_EXP0_OFF e) * 65536 ≤ lo)
      && decide (hi < (getF s (fSO_EXP0_OFF e) + getF s (fSO_EXP0_NFM1 e) + 1) * 65536)
      && decide (getF s (fSO_EXP1_SRC_LO e) ≤ p.src.toNat) && decide (p.src.toNat ≤ getF s (fSO_EXP1_SRC_HI e)))

/-- One line's part of a request: where it begins in the request, its bytes, where it lands. -/
structure RxPart where
  first : Nat
  size : Nat
  pa : Nat
  attr : PageAttr
deriving DecidableEq, Repr

/-- R747, R750: translate a run of a slice, line by line (fuel: lines); a NAK code where it cannot be served. -/
def rxParts (slice : Nat) (write : Bool) : Nat → Dev → Nat → Nat → Nat → Dev × (Nat ⊕ List RxPart)
  | 0, s, _, _, _ => (s, .inr [])
  | fuel + 1, s, va, first, n =>
    if n = 0 then (s, .inr [])
    else
      let k := min n (512 - va % 512)
      match translate s slice va write with
      | (s, .ok pa attr) =>
        let code := match placeOf s pa with
          | .tier => 0
          | .spad cl _ => if dieLost s (cl / 24) || spadOwner s slice cl then 0 else 3
          | .bad => 4
          | _ => 3
        if code ≠ 0 then (s, .inl code)
        else
          match rxParts slice write fuel s (va + k) (first + k) (n - k) with
          | (s, .inr l) => (s, .inr ({ first := first, size := k, pa := pa, attr := attr } :: l))
          | (s, .inl c) => (s, .inl c)
      | (s, _) => (s, .inl 3)

/-- R743, R265: apply a WRITE, granule by granule. -/
def rxWrite (slice : Nat) (p : Packet) (s : Dev) (l : List RxPart) : Dev :=
  let (bytes, mask) := payloadBytes p
  l.foldl (fun s x =>
    let off := x.pa % 512
    let (d, _) := lineOfBytes off ((bytes.drop x.first).take x.size)
    let m := nField mask (x.first + x.size - 1) x.first * 2 ^ off
    if m = 0 then s
    else (writePa s none slice x.pa x.attr d m (if p.poison then BitVec.ofNat 8 (maskSectors m) else 0) noThread 0).1) s

/-- R751, R258: apply a REDUCE: the elements of each part are added at the line's home. -/
def rxReduce (slice : Nat) (p : Packet) (s : Dev) (l : List RxPart) : Dev :=
  let dt := p.dt.toNat
  let es := redBytes dt
  let (bytes, mask) := payloadBytes p
  l.foldl (fun s x =>
    let ks := (List.range (x.size / es)).filter (fun k => nField mask (x.first + es * k + es - 1) (x.first + es * k) == 2 ^ es - 1)
    let ops := ks.map (fun k => (x.pa % 512 + es * k, leNat ((bytes.drop (x.first + es * k)).take es)))
    if ops.isEmpty then s
    else
      match placeOf s x.pa with
      | .spad cl off =>
        if dieLost s (cl / 24) then s
        else
          let m := redMask dt ops
          (spadRmw s cl off m (if p.poison then BitVec.ofNat 8 (maskSectors m) else 0) noThread (redLine 0 dt ops)).1
      | _ => (applyReduce s none slice x.pa x.attr 0 dt ops p.poison).1) s

/-- R751: perform a READ_REQ. -/
def rxRead (slice : Nat) (s : Dev) (l : List RxPart) : Dev × List (Byte × Bool) :=
  l.foldl (fun (a : Dev × List (Byte × Bool)) x =>
    let (s, r) := readPa a.1 none slice x.pa x.size x.attr
    (s, a.2 ++ r.bytes)) (s, [])

/-- A packet of this module about a received flow, back to its source engine. -/
def replyTo (s : Dev) (op : Nat) (p : Packet) : Packet := { newPacket s op p.eng.toNat p.src.toNat p.tc.toNat with psn := p.psn }

/-- R750: the record and the NAK of a refused request. -/
def rxNak (s : Dev) (p : Packet) (code slice : Nat) : Dev × Option Packet :=
  (errRecord s { sev := 2, cause := 0x0011, unit := 0x0C, slice := slice }, some { replyTo s 6 p with tag := BitVec.ofNat 32 code })

/-- R747, R750, R751: perform a request of a received flow, and its NAK or READ_RSP. -/
def rxPerform (s : Dev) (p : Packet) : Dev × Option Packet :=
  if p.dst.toNat ≠ getF s fSO_CFG_MODULE_ID then rxNak s p 5 0xFF
  else
    match expMatch s p with
    | none => rxNak s p 1 0xFF
    | some e =>
      let slice := getF s (fSO_EXP0_SLICE e)
      if expRight s e p.op.toNat = 0 then rxNak s p 2 slice
      else
        let va := getF s (fSO_EXP1_VA e) * 65536 + (p.addr.toNat - getF s (fSO_EXP0_OFF e) * 65536)
        let n := packetLen p
        match rxParts slice (p.op != 2) (n / 512 + 2) s va 0 n with
        | (s, .inl code) => rxNak s p code slice
        | (s, .inr l) =>
          if p.op = 1 then (rxWrite slice p s l, none)
          else if p.op = 4 then (rxReduce slice p s l, none)
          else
            let (s, b) := rxRead slice s l
            (s, some { replyTo s 3 p with poison := anyPoison b, len := p.len, tag := p.tag, payload := b.map (fun x => x.1) })

/-- R526: a request waits while a page it reaches is being groomed. -/
def rxHeld (s : Dev) (p : Packet) : Bool :=
  match expMatch s p with
  | none => false
  | some e =>
    let va := getF s (fSO_EXP1_VA e) * 65536 + (p.addr.toNat - getF s (fSO_EXP0_OFF e) * 65536)
    match (rxParts (getF s (fSO_EXP0_SLICE e)) (p.op != 2) (packetLen p / 512 + 2) s va 0 (packetLen p)).2 with
    | .inr l => l.any (fun x => pgHeld s x.pa)
    | .inl _ => false

/-- R748: the acknowledgement fields of a received flow: the last PSN applied, and the bitmap of those held after it. -/
def ackFields (s : Dev) (p q : Packet) : Packet :=
  match s.tandem.rx.find? (isRx p.eng.toNat p.src.toNat p.tc.toNat) with
  | none => q
  | some f =>
    let ack := (f.expect + 2 ^ 32 - 1) % 2 ^ 32
    let map := (List.range 64).foldl (fun a i => if f.held.any (fun h => h.psn.toNat == (ack + 1 + i) % 2 ^ 32) then a + 2 ^ i else a) 0
    { q with ack := BitVec.ofNat 32 ack, addr := if q.op = 3 then 0 else BitVec.ofNat 64 map }

/-- R748: a flow goes on to the next PSN after a request, and the request's READ_RSP, kept for its repetition, or its NAK leaves. -/
def rxAnswer (port : Nat) (k : RxFlow → Bool) (s : Dev) (h : Packet) (r : Option Packet) : Dev :=
  let s := modRx s k (fun f => { f with expect := (f.expect + 1) % 2 ^ 32, held := f.held.filter (fun x => x.psn != h.psn) })
  match r with
  | none => s
  | some q =>
    if q.op = 3 then sendPacket (modRx s k (fun f => { f with rsp := f.rsp.filter (fun x => decide ((f.expect + 2 ^ 32 - x.1) % 2 ^ 32 ≤ 65536)) ++ [(h.psn.toNat, q)] })) port q
    else sendPacket s port (ackFields s h q)

/-- R748: apply the held packets of a flow from the next PSN on (fuel: held packets). -/
def rxChain (port : Nat) (k : RxFlow → Bool) : Nat → Dev → Dev
  | 0, s => s
  | fuel + 1, s =>
    match s.tandem.rx.find? k with
    | none => s
    | some f =>
      match f.held.find? (fun h => h.psn.toNat == f.expect) with
      | none => s
      | some h =>
        if rxHeld s h then s
        else
          let (s, r) := rxPerform s h
          rxChain port k fuel (rxAnswer port k s h r)

/-- R749: whether the retransmission area of a hub has room for a packet. -/
def rtxRoom (s : Dev) (h : Nat) (p : Packet) : Bool :=
  decide (rtxUsed s h + 32 + p.payload.length ≤ getF s (fSO_RTX_SIZE_MIB h) * 2 ^ 20)

/-- R752: congestion at the receiver: a CE mark under ENCAP 1, or held packets above three quarters of the flow's share of the area. -/
def congested (s : Dev) (f : RxFlow) (p : Packet) : Bool :=
  if getF s fSO_CFG_ENCAP = 1 then p.ce
  else
    let n := (s.tandem.tx.filter (fun x => x.hub == f.hub)).length + (s.tandem.rx.filter (fun x => x.hub == f.hub)).length
    decide (3 * getF s (fSO_RTX_SIZE_MIB f.hub) * 2 ^ 20 < 4 * n * (f.held.map (fun q => 32 + q.payload.length)).sum)

/-- R752: send CNP, at most once per flow in every 50 µs. -/
def rxCnp (s : Dev) (port : Nat) (p : Packet) : Dev :=
  let k := isRx p.eng.toNat p.src.toNat p.tc.toNat
  match s.tandem.rx.find? k with
  | none => s
  | some f =>
    if congested s f p && (match f.cnpAt with
        | some t => decide (t + 50000 ≤ s.now)
        | none => true) then
      sendPacket (modRx s k (fun f => { f with cnpAt := some s.now })) port { replyTo s 7 p with psn := 0 }
    else s

/-- R748, R752: the acknowledgement of a received packet leaves, and a CNP where its flow is congested. -/
def rxAck (port : Nat) (p : Packet) (s : Dev) : Dev := rxCnp (sendPacket s port (ackFields s p { replyTo s 5 p with psn := 0 })) port p

/-- R748: a WRITE, READ_REQ or REDUCE arrives: applied once, in PSN order, and acknowledged; a duplicate is acknowledged again. -/
def rxData (port : Nat) (p : Packet) (s : Dev) : Dev :=
  let k := isRx p.eng.toNat p.src.toNat p.tc.toNat
  let hub := portHub port
  let known := s.tandem.rx.any k
  if !known && decide (16384 ≤ (s.tandem.rx.filter (fun f => f.hub == hub)).length) then s
  else
    let s := if known then s
      else showFlows { s with tandem := { s.tandem with rx := s.tandem.rx ++ [{ eng := p.eng.toNat, src := p.src.toNat, tc := p.tc.toNat, hub := hub, expect := 0, held := [], rsp := [], cnpAt := none }] } }
    match s.tandem.rx.find? k with
    | none => s
    | some f =>
      let d := (p.psn.toNat + 2 ^ 32 - f.expect) % 2 ^ 32
      let have' := f.held.any (fun h => h.psn == p.psn)
      let s :=
        if d < 65536 then
          if have' || (d != 0 && !rtxRoom s f.hub p) then s else modRx s k (fun f => { f with held := f.held ++ [p] })
        else
          match f.rsp.find? (fun x => x.1 == p.psn.toNat) with
          | some x => if p.op = 2 then sendPacket s port x.2 else s
          | none => s
      let s := rxChain port k (f.held.length + 1) s
      let s := rxAck port p s
      -- the piggybacked acknowledgement of the reverse flow, or 0 (R742)
      if p.ack = 0 then s else ackFlow s p.eng.toNat p.src.toNat p.tc.toNat p.ack.toNat 0

/-! ## Time exchange (R753) -/

/-- A number as 8 bytes in network order, and back. -/
def be8 (w : Word) : List Byte := (leBytes 8 w.toNat).reverse
def beAt (l : List Byte) (i : Nat) : Word := BitVec.ofNat 64 (leNat (((l.drop i).take 8).reverse))

/-- R753: a TIME packet: a request is answered with its arrival and the reply's departure; a reply to an outstanding request measures the
offset, less half of the correction that transparent clocks added. -/
def rxTime (port : Nat) (p : Packet) (s : Dev) : Dev :=
  if p.dst.toNat ≠ getF s fSO_CFG_MODULE_ID then s
  else if p.payload.length = 8 then
    let body := p.payload ++ be8 (timeBase s) ++ be8 (timeBase s)
    sendPacket s port { replyTo s 8 p with len := 23, payload := body }
  else if p.payload.length < 24 ∨ s.obs.timeReqs.contains (beAt p.payload 0) = false ∨ p.src.toNat ≠ getF s fOBS_TSYNC_CFG_MASTER_ID ∨ getF s fOBS_TSYNC_CFG_SRC ≠ 1 then s
  else
    let t1 := beAt p.payload 0
    let corr : Int := if 32 ≤ p.payload.length then (beAt p.payload 24).toInt else 0
    let out := (beAt p.payload 8 - t1).toInt
    let back := (timeBase s - beAt p.payload 16).toInt
    let d := (out - back) / 2 - corr / 2
    measured { s with obs := { s.obs with timeReqs := s.obs.timeReqs.filter (fun t => t != t1) } } (-d)

/-- R753: every 1 ms under TANDEM a TIME request leaves to the master. -/
def doTimeRequest (s : Dev) : Dev :=
  let m := getF s fOBS_TSYNC_CFG_MASTER_ID
  if getF s fOBS_TSYNC_CFG_SRC ≠ 1 then s
  else
    match upPorts s m with
    | [] => s
    | port :: _ =>
      let t1 := timeBase s
      let s := { s with obs := { s.obs with timeReqs := (s.obs.timeReqs ++ [t1]) } }
      sendPacket s port { newPacket s 8 0 m 0 with len := 7, payload := be8 t1 }

/-! ## Packets -/

/-- R742: whether a received frame is dropped: a res field set, a wrong VER, or a LEN that is not its payload's. -/
def badFrame (p : Packet) : Bool :=
  p.res || p.ver != 1
    || ((p.op == 1 || p.op == 3 || p.op == 4) && p.payload.length != p.len.toNat + 1)
    || (p.op == 1 && p.masked && p.payload.length % 72 != 0) || (p.op == 4 && decide (6 ≤ p.dt.toNat))

/-- The effect of a packet that has arrived, by its OP. -/
def packetIn (port : Nat) (p : Packet) (s : Dev) : Dev :=
  if p.op ≠ 1 ∧ p.op ≠ 2 ∧ p.op ≠ 4 ∧ p.dst.toNat ≠ getF s fSO_CFG_MODULE_ID then s
  else
  match p.op.toNat with
  | 1 | 2 | 4 => rxData port p s
  | 3 => readRsp s p
  | 5 => ackFlow s p.eng.toNat p.src.toNat p.tc.toNat p.ack.toNat p.addr.toNat
  | 6 =>
    let (s, qs) := psnDone s p.eng.toNat p.src.toNat p.tc.toNat p.psn.toNat
    ackFlow (qs.foldl peerFaults s) p.eng.toNat p.src.toNat p.tc.toNat p.ack.toNat p.addr.toNat
  | 7 =>
    match txFlow s p.eng.toNat p.src.toNat p.tc.toNat with
    | none => s
    | some f =>
      let s := satF s (fSO_STAT_CNP_RX f.hub) 1
      if getF s (fSO_TC_ECN_EN f.tc) = 0 then s
      else
        let r := max (f.rate - f.rate / 2 ^ getF s fSO_RC_DEC_SHIFT) (getF s fSO_RC_RMIN * 1000)
        modTx s (isFlow f.eng f.mod f.tc) (fun f => { f with rate := r, rateAt := s.now })
  | 8 => rxTime port p s
  | 9 => showFlows { s with tandem := { s.tandem with rx := s.tandem.rx.filter (fun f => f.src != p.src.toNat) } }
  | _ => s

/-- R741, R742, R695, R740: a frame arrives on a port: one that is not framed as ENCAP says, whose FCS or checksum is wrong, or that has an
uncorrectable FEC codeword, is dropped; the port counts such codewords (R764). While the
module is stopped it is held until resume. -/
def doPacket (op port : Nat) (p : Packet) (s : Dev) : Dev :=
  let p := { p with op := BitVec.ofNat 4 op }
  let s := if p.fec ≠ 0 ∧ getF s (fSO_PORT_STATE port) = 2 then satF s (fSO_PORT_FEC_UNCORR port) p.fec else s
  if getF s fSO_CFG_EN = 0 ∨ getF s (fSO_PORT_STATE port) ≠ 2 ∨ hubLost s (portHub port) = true ∨ p.intact = false ∨ p.fec ≠ 0 then s
  else if badFrame p then { s with tandem := { s.tandem with dropped := s.tandem.dropped + 1 } }
  else if whoaStopped s then { s with tandem := { s.tandem with heldIn := s.tandem.heldIn ++ [(port, p)] } }
  else packetIn port p (countHub s (portHub port) 0xC5 (32 + p.payload.length))

/-! ## Timers of a flow (R746, R748, R752, R754, R368) -/

/-- R758: the resend time in ns. -/
def rtoNs (s : Dev) : Nat := (if getF s fSO_RC_RTO_US = 0 then 50 else getF s fSO_RC_RTO_US) * 1000

/-- R748: a packet unacknowledged for RTO_US. -/
def doResendTimeout (eng m tc psn : Nat) (s : Dev) : Dev :=
  match txFlow s eng m tc with
  | none => s
  | some f =>
    match f.unacked.find? (fun q => q.pkt.psn.toNat == psn), f.port with
    | some q, some _ => resend eng m tc { s with now := max s.now (q.sentAt + rtoNs s) } q
    | _, _ => s

/-- R752: INC_US with no CNP. -/
def doRateIncrease (eng m tc : Nat) (s : Dev) : Dev :=
  match txFlow s eng m tc with
  | none => s
  | some f =>
    match f.port with
    | none => s
    | some p =>
      if getF s (fSO_TC_ECN_EN tc) = 0 then s
      else
        let s := { s with now := max s.now (f.rateAt + getF s fSO_RC_INC_US * 1000) }
        modTx s (isFlow eng m tc) (fun f => { f with rate := min (f.rate + getF s fSO_RC_RAI * 100) (portRate s p), rateAt := s.now })

/-- R754: a flow has had no UP port for 4 ms: its module is dead. -/
def doFlowFailExpiry (eng m tc : Nat) (s : Dev) : Dev :=
  match txFlow s eng m tc with
  | none => s
  | some f =>
    match f.waitAt, f.port with
    | some t, none => peerDies { s with now := max s.now (t + 4000000) } m
    | _, _ => s

/-- R368: no acknowledgement on a flow for 4 ms while packets wait for one. -/
def doPeerAckTimeout (eng m tc : Nat) (s : Dev) : Dev :=
  match txFlow s eng m tc with
  | none => s
  | some f => if f.unacked.isEmpty then s else peerDies { s with now := max s.now (f.ackAt + 4000000) } m

/-- R746: a context with every packet acknowledged for 1 ms is free, and a waiting new flow takes it. -/
def doFlowContextFree (eng m tc : Nat) (s : Dev) : Dev :=
  match txFlow s eng m tc with
  | none => s
  | some f =>
    if !f.unacked.isEmpty then s
    else
      let s := { s with now := max s.now (f.idleAt + 1000000) }
      launchAll (showFlows { s with tandem := { s.tandem with tx := s.tandem.tx.filter (fun x => !isFlow eng m tc x) } })

/-! ## Ports (R739, R754, R756) -/

/-- R739: a port is in service in its group's mode. -/
def portInMode (s : Dev) (p : Nat) : Bool :=
  match getF s (fSO_GRP_MODE (p / 4)) with
  | 1 => p % 4 == 0
  | 2 => p % 2 == 0
  | 3 => true
  | _ => false

/-- R754: a port leaves UP. -/
def doPortDown (p : Nat) (s : Dev) : Dev :=
  if getF s (fSO_PORT_STATE p) ≠ 2 then s else repin (setF s (fSO_PORT_STATE p) 3)

/-- R756: a port of a group in service reaches UP. -/
def doPortUp (p : Nat) (s : Dev) : Dev :=
  if !portInMode s p || getF s (fSO_PORT_STATE p) == 2 || hubLost s (portHub p) || s.pw.off != .on then s
  else repin (setF s (fSO_PORT_STATE p) 2)

/-! ## Set-up registers of the block (R744, R749, R755, R757, R760, R763, R768) -/

/-- R749, R757: a write of SO_CFG. EN is accepted only when both areas have at least 64 MiB. -/
def soCfgEff (port : Nat) (data : Word) (s : Dev) : Dev :=
  let small := [0, 1].any (fun h => decide (getF s (fSO_RTX_SIZE_MIB h) < 64))
  if data.getLsbD 50 && getF s fSO_CFG_EN == 0 && small then
    setupError (writeRegBy s offSO_CFG data (fun f => f.lsb != 50)) port offSO_CFG
  else repin (writeReg s offSO_CFG data)

/-- R739, R763: a write of SO_GRPg, only while EN is 0. Ports of a new mode begin to train. -/
def soGrpEff (port g : Nat) (data : Word) (s : Dev) : Dev :=
  if getF s fSO_CFG_EN = 1 then setupError s port (offSO_GRP g)
  else
    let was := getF s (fSO_GRP_MODE g)
    let s := writeReg s (offSO_GRP g) data
    if getF s (fSO_GRP_MODE g) = was then s
    else (List.range 4).foldl (fun s k => setF s (fSO_PORT_STATE (4 * g + k)) (if portInMode s (4 * g + k) then 1 else 0)) s

/-- R768: a write of SO_PEERm; flows that wait look for a port again. -/
def soPeerEff (m : Nat) (data : Word) (s : Dev) : Dev := repin (writeReg s (offSO_PEER m) data)

/-- R755: a write of SO_PEER_RESET: the flow contexts of the module are dropped with what they carried, FLOW_RESET is sent and DEAD is
cleared. The next flows begin at PSN 0. -/
def peerResetEff (data : Word) (s : Dev) : Dev :=
  let m := fld data 11 0
  let gone := s.peerOut.filter (fun q => peerMod q.pa == m && q.framed)
  let s := dropWrites s (fun pa _ => inWindow s m pa && gone.any (fun q => q.pa / 512 == pa / 512))
  let s := gone.foldl losePeer s
  let s := showFlows { s with tandem := { s.tandem with tx := s.tandem.tx.filter (fun f => f.mod != m) } }
  let s := match upPorts s m with
    | [] => s
    | p :: _ => sendPacket s p (newPacket s 9 0 m 0)
  launchAll (settlePeers (setF s (fSO_PEER_DEAD m) 0))

/-! ## The commands -/

/-- SO_ENABLE (R749): a write of SO_CFG. -/
def execSoEnable (port : Fin 2) (data : Word) (s : State) : Out' := upd s (setupWr port offSO_CFG data (soCfgEff port data))
/-- WRITE (R751). -/
def execWrite (port : Fin 48) (p : Packet) (s : State) : Out' := updM s (doPacket 1 port p)
/-- READ_REQ (R751). -/
def execReadReq (port : Fin 48) (p : Packet) (s : State) : Out' := updM s (doPacket 2 port p)
/-- READ_RSP (R751). -/
def execReadRsp (port : Fin 48) (p : Packet) (s : State) : Out' := updM s (doPacket 3 port p)
/-- TANDEM_REDUCE (R751). -/
def execTandemReduce (port : Fin 48) (p : Packet) (s : State) : Out' := updM s (doPacket 4 port p)
/-- ACK (R748). -/
def execAck (port : Fin 48) (p : Packet) (s : State) : Out' := updM s (doPacket 5 port p)
/-- NAK (R750). -/
def execNak (port : Fin 48) (p : Packet) (s : State) : Out' := updM s (doPacket 6 port p)
/-- CNP (R752). -/
def execCnp (port : Fin 48) (p : Packet) (s : State) : Out' := updM s (doPacket 7 port p)
/-- TIME (R753). -/
def execTime (port : Fin 48) (p : Packet) (s : State) : Out' := updM s (doPacket 8 port p)
/-- FLOW_RESET (R755). -/
def execFlowReset (port : Fin 48) (p : Packet) (s : State) : Out' := updM s (doPacket 9 port p)
/-- TIME_REQUEST (R753). -/
def execTimeRequest (s : State) : Out' := upd s doTimeRequest
/-- RESEND_TIMEOUT (R748). -/
def execResendTimeout (eng : BitVec 16) (m : BitVec 12) (tc : BitVec 3) (psn : BitVec 32) (s : State) : Out' :=
  updM s (doResendTimeout eng.toNat m.toNat tc.toNat psn.toNat)
/-- RATE_INCREASE (R752). -/
def execRateIncrease (eng : BitVec 16) (m : BitVec 12) (tc : BitVec 3) (s : State) : Out' := upd s (doRateIncrease eng.toNat m.toNat tc.toNat)
/-- PORT_DOWN (R754). -/
def execPortDown (port : Fin 48) (s : State) : Out' := updM s (doPortDown port)
/-- PORT_UP (R756). -/
def execPortUp (port : Fin 48) (s : State) : Out' := upd s (doPortUp port)
/-- FLOW_FAIL_EXPIRY (R754). -/
def execFlowFailExpiry (eng : BitVec 16) (m : BitVec 12) (tc : BitVec 3) (s : State) : Out' := updM s (doFlowFailExpiry eng.toNat m.toNat tc.toNat)
/-- PEER_RESET (R755): a write of SO_PEER_RESET. -/
def execPeerReset (port : Fin 2) (m : BitVec 12) (s : State) : Out' :=
  updM s (setupWr port offSO_PEER_RESET (m.setWidth 64) (peerResetEff (m.setWidth 64)))
/-- PEER_ACK_TIMEOUT (R368). -/
def execPeerAckTimeout (eng : BitVec 16) (m : BitVec 12) (tc : BitVec 3) (s : State) : Out' := updM s (doPeerAckTimeout eng.toNat m.toNat tc.toNat)
/-- FLOW_CONTEXT_FREE (R746). -/
def execFlowContextFree (eng : BitVec 16) (m : BitVec 12) (tc : BitVec 3) (s : State) : Out' := upd s (doFlowContextFree eng.toNat m.toNat tc.toNat)

end Sys2Proof.Machine
end

