-- ==== Sys2Proof/Machine/Setup.lean ====
section
/-! DEFINITION. Sys2Proof/Machine/Setup.lean: set-up writes in general (R23 to R30, R458, R459): what a write of any BAR0 register does,
half writes, access errors, the set-up lease, and the end of a Whoa stop, at which held writes act (R695, R698). -/

namespace Sys2Proof.Machine

open Sys2Proof

/-! ## The effect of a write, by block (R23) -/

/-- A write in a CH_ block (R502 to R511). -/
def chanWr (port off : Nat) (data : Word) (s : Dev) : Dev :=
  let c := (off - 0x100000) / 0x10000
  let x := off % 0x10000
  let n := x % 0x1000 / 0x40
  if x = 0x10 then chResetEff c data s
  else if x / 0x1000 = 1 then
    if x % 0x40 = 8 then sqCfgEff port c n data s else ringRegEff port (fCH_SQ_CFG_ENABLE c n) off data s
  else if x / 0x1000 = 2 then
    if x % 0x40 = 0x10 then cqCfgEff port c n data s else ringRegEff port (fCH_CQ_CFG_ENABLE c n) off data s
  else writeReg s off data

/-- A write in the SLC_ block (R552 to R567). -/
def sliceWr (port off : Nat) (data : Word) (s : Dev) : Dev :=
  let x := off - 0x200000
  if x < 0x4000 then
    let n := x / 0x400
    let k := x % 0x400
    if k = 0 then slcCtlEff port n data s
    else if k = 8 then slcCfgEff port n data s
    else if k = 0x10 then slcRgnEff port n data s
    else if k = 0x18 then slcChanEff port n data s
    else if k = 0x20 ∨ k = 0x28 ∨ (0x40 ≤ k ∧ k < 0x80) then slcHeldEff port n off data s
    else if k = 0x100 then dlogCtlEff port n data s
    else writeReg s off data
  else if off = offSLC_PG_CMD then pgCmdEff port data s
  else if 0x8000 ≤ x then
    let c := (x - 0x8000) / 0x1000
    if x % 0x1000 = 0 then cycCfgEff port c data s
    else if 0x800 ≤ x % 0x1000 then cycEntryEff port c off data s
    else writeReg s off data
  else writeReg s off data

/-- A write in the CD_ and MT_ blocks (R320 to R328, R407 to R418). -/
def memoryWr (port off : Nat) (data : Word) (s : Dev) : Dev :=
  if off = offCD_ORDER then orderEff port data s
  else if off = offCD_RANGE_CMD then rangeCmdEff port data s
  else if 0x300100 ≤ off ∧ off < 0x300180 then sliceCfgEff ((off - 0x300100) / 8) data s
  else if 0x400200 ≤ off ∧ off < 0x400280 ∧ off % 0x20 = 8 then farCtlEff port ((off - 0x400200) / 0x20) data s
  else if off = offMT_BACK_CTL then backCtlEff data s
  else if off = offMT_INJECT then injectEff port data s
  else writeReg s off data

/-- A write in the PW_ and FLT_ blocks (R603 to R613, R664 to R673). -/
def powerWr (port off : Nat) (data : Word) (s : Dev) : Dev :=
  let n := (off - 0x600100) / 0x40
  let k := off % 0x40
  if off = offPW_BUDGET then budgetEff port data s
  else if off = offPW_RAMP then rampEff port data s
  else if off < 0x600100 ∨ 0x600180 ≤ off then writeReg s off data
  else if k = 0x10 then erCfgEff port n data s
  else if k = 0x18 then erHeadEff port n data s
  else if k < 0x10 then ringRegEff port (fFLT_ER_CFG_ENABLE n) off data s
  else writeReg s off data

/-- A write in the OBS_ block (R704 to R718); RESUME is judged before. -/
def observeWr (port off : Nat) (data : Word) (s : Dev) : Dev :=
  let k := off % 0x40
  if off = offOBS_TSYNC_CFG then tsyncCfgEff port data s
  else if off = offOBS_TSYNC_STEP then tsyncStepEff port data s
  else if 0x700100 ≤ off ∧ off < 0x700580 then selEff off data s
  else if 0x702100 ≤ off ∧ off < 0x702180 then
    let b := (off - 0x702100) / 0x40
    if k = 0x10 then trbCfgEff port b data s
    else if k = 0x18 then trbHeadEff port b data s
    else if k < 0x10 then ringRegEff port (fOBS_TRB_CFG_ENABLE b) off data s
    else writeReg s off data
  else if off = offOBS_WHOA_CTL then (if data.getLsbD 0 then whoaStopEff port s else s)
  else if 0x703100 ≤ off ∧ off < 0x703180 ∧ k = 0x10 then dumpCtlEff ((off - 0x703100) / 0x40) data s
  else writeReg s off data

/-- A write in the SO_ block (R757 to R768). -/
def scaleOutWr (port off : Nat) (data : Word) (s : Dev) : Dev :=
  if off = offSO_CFG then soCfgEff port data s
  else if off = offSO_PEER_RESET then peerResetEff data s
  else if 0x800040 ≤ off ∧ off < 0x800050 then launchAll (writeReg s off data)
  else if 0x800100 ≤ off ∧ off < 0x800160 then soGrpEff port ((off - 0x800100) / 8) data s
  else if 0x820000 ≤ off then soPeerEff ((off - 0x820000) / 8) data s
  else writeReg s off data

/-- A write in the DL_ and SU_ blocks (R447 to R454, R636 to R642, R738, R797 to R800). -/
def startWr (img : Option Nat) (port off : Nat) (data : Word) (s : Dev) : Dev :=
  if 0x901000 ≤ off ∧ off < 0x901200 ∧ off % 0x20 = 0x10 then linkCtlEff port ((off - 0x901000) / 0x20) data (freeTrain s) (bumpFree s)
  else if off = offDL_BAY_CTL 0 then bayCtlEff port 0 data s
  else if off = offDL_BAY_CTL 1 then bayCtlEff port 1 data s
  else if off = offSU_RESET then suResetEff port img data s
  else if off = offSU_MBX_CTL then mbxCtlEff port data s
  else if 0xA01000 ≤ off ∧ off < 0xA02000 then mbxReqEff port off data s
  else if off = offSU_SYNCIO then syncioEff port data s
  else writeReg s off data

/-- R23: what a write of a register does, RESUME apart. -/
def regEffect (img : Option Nat) (port off : Nat) (data : Word) (s : Dev) : Dev :=
  match off / 0x100000 with
  | 1 => chanWr port off data s
  | 2 => sliceWr port off data s
  | 3 => memoryWr port off data s
  | 4 => memoryWr port off data s
  | 5 => powerWr port off data s
  | 6 => powerWr port off data s
  | 7 => observeWr port off data s
  | 8 => scaleOutWr port off data s
  | 9 => startWr img port off data s
  | 10 => startWr img port off data s
  | _ => writeReg s off data

/-! ## The end of a Whoa stop (R695, R696, R698) -/

/-- R695, R698: timers that were paused run on from where they stood: `d` is how long the module was stopped. -/
def shiftPaused (s : Dev) (d : Nat) : Dev :=
  let grp (g : Group) : Group := { g with hold := match g.hold with
    | .barrier sc b t e => .barrier sc b (t + d) e
    | .stuckBar t => .stuckBar (t + d)
    | h => h }
  let s := { s with cores := s.cores.map (fun e : Nat × Core => (e.1, { e.2 with groups := e.2.groups.map (fun g : Nat × Option Group => (g.1, g.2.map grp)), sb := e.2.sb.map (fun x : SbEntry => { x with since := x.since + d }) })) }
  let s := { s with cmds := s.cmds.map (fun c : Cmd => { c with deadline := c.deadline.map (fun t : Nat => t + d), stopReq := c.stopReq.map (fun t : Nat => t + d) }) }
  let s := modMs s (fun m => { m with adders := m.adders.map (fun a : AdderSector => { a with last := a.last + d }) })
  let s := (List.range 32).foldl (fun s r => modRgn s r (fun g => { g with entered := g.entered + d, req := g.req.map (fun q : SwitchReq => { q with since := q.since + d }) })) s
  let s := (List.range 16).foldl (fun s c => modCh s c (fun ch => { ch with lastDone := ch.lastDone + d, cqr := ch.cqr.map (fun e : Nat × CqRun => (e.1, { e.2 with first := e.2.first + d })) })) s
  { s with obs := { s.obs with dumps := s.obs.dumps.map (fun e : Nat × DumpRun => (e.1, { e.2 with since := e.2.since + d })) } }

/-- R695: a cyclic table continues at the position that the time base gives. A window whose end passed while the module was stopped is
over, with no overrun. -/
def resumeCyclic (s : Dev) (c : Nat) : Dev :=
  if getF s (fSLC_CYC_CFG_EN c) = 0 then s
  else
    let r := (getCh s c).cyc
    let new := cycPlace s c
    let still := match r.opened with
      | some e => r.frame == new.frame && decide ((timeBase s).toNat < frameStart s c (r.frame - 1) + entEnd s c e)
      | none => false
    if still then s
    else
      let s := modCh s c (fun ch => { ch with cyc := new })
      let s := { s with cmds := s.cmds.map (fun x : Cmd => if x.chan = c then { x with window := none } else x) }
      if r.opened.isNone && r.lead.isNone then s else (chanRegions s c).foldl (fun s q => freeRegion s c q) s

/-- A held set-up write acts; one that follows a write which stopped the module again is held again. -/
def replaySetup (img : Option Nat) (s : Dev) (h : Nat × Nat × Word) : Dev :=
  if whoaStopped s then { s with obs := { s.obs with heldSetup := s.obs.heldSetup ++ [h] } }
  else setupApply s h.1 h.2.1 h.2.2 (regEffect img h.1 h.2.1 h.2.2)

/-- R695, R696, R698: the module runs again: recorded drops first, then paused timers, cyclic tables, held set-up writes, BAR4 requests and
Tandem packets. -/
def finishResume (img : Option Nat) (s : Dev) : Dev :=
  let paused := s.now - s.obs.stoppedAt
  let rails := s.obs.heldRail
  let setup := s.obs.heldSetup
  let bar4 := s.obs.heldBar4
  let packets := s.tandem.heldIn
  let s := setF { s with obs := { s.obs with resuming := false, heldRail := [], heldSetup := [], heldBar4 := [] }, tandem := { s.tandem with heldIn := [] } } fOBS_WHOA_CTL_STOPPED 0
  let s := pushEvents (rails.foldl railDrop s)
  let s := shiftPaused s paused
  let s := (List.range 16).foldl resumeCyclic s
  let s := setup.foldl (replaySetup img) s
  let s := bar4.foldl (fun s h => match h.2.2.1 with
    | some d => doBar4Write h.1 h.2.1 d s
    | none => doBar4Read h.1 h.2.1 h.2.2.2 s) s
  let s := packets.foldl (fun s h => doPacket h.2.op.toNat h.1 h.2 s) s
  (List.range 32).foldl pokeRegion (settlePeers s)

/-- R698, R715: a write of RESUME: the module stops driving STOP_IO and resumes once no other module holds it. -/
def resumeEff (img : Option Nat) (port : Nat) (s : Dev) : Dev :=
  if !whoaStopped s then setupError s port offOBS_WHOA_CTL
  else
    let s := setF { s with obs := { s.obs with stopOut := false, resuming := true } } fSU_PINS_STOP s.obs.stopIn.toNat
    if s.obs.stopIn then s else finishResume img s

/-- R698: STOP_IO is released by the last module that held it. -/
def doStopIoRelease (img : Option Nat) (s : Dev) : Dev :=
  if !s.obs.stopIn then s
  else
    let s := setF { s with obs := { s.obs with stopIn := false } } fSU_PINS_STOP s.obs.stopOut.toNat
    if s.obs.resuming && whoaStopped s then finishResume img s else s

/-- R23, R715: what a write of a register does. -/
def setupEffect (img : Option Nat) (port off : Nat) (data : Word) (s : Dev) : Dev :=
  if off = offOBS_WHOA_CTL ∧ data.getLsbD 1 = true then
    let stopped := whoaStopped s
    let s := resumeEff img port s
    if stopped then s else regEffect img port off data s
  else regEffect img port off data s

/-! ## The lease (R458, R500) -/

/-- R458: a CLAIM of port A in the cycle of a CLAIM by which port B has just taken a free lease comes before it. -/
def tieWins (s : Dev) (port : Nat) (tie : Bool) : Bool := tie && port == 0 && getF s fID_SEM_OWNER == 2 && s.leaseFresh

/-- R458: a write of ID_SEM. -/
def semWrite (port : Nat) (tie : Bool) (data : Word) (s : Dev) : Dev :=
  let claim := data.getLsbD 0
  let release := data.getLsbD 1
  let len := fld data 9 4
  if claim && release then setupError s port offID_SEM
  else if claim then
    if len = 0 ∨ 60 < len then setupError s port offID_SEM
    else if leaseFree s || getF s fID_SEM_OWNER == port + 1 || tieWins s port tie then
      setF (setF { s with leaseEnd := s.now + 1000000000 * len, leaseFresh := leaseFree s } fID_SEM_OWNER (port + 1)) fID_SEM_REMAIN_MS (1000 * len)
    else s
  else if release then (if holdsLease s port then endLease s else setupError s port offID_SEM)
  else s

/-- R458: the lease expires. -/
def doLeaseExpiry (s : Dev) : Dev :=
  if getF s fID_SEM_OWNER = 0 then s else endLease { s with now := max s.now s.leaseEnd }

/-- R459: a whole register is written: ID_SEM is no set-up write. -/
def wholeWrite (img : Option Nat) (port off : Nat) (data : Word) (s : Dev) : Dev :=
  if off = offID_SEM then semWrite port false data s else setupArrives s port off data (setupEffect img port off data)

/-- R28 to R30, R67: a BAR0 write of 64 bits, or of 32 where `half` is set. The lower half is held for the upper. -/
def doSetupWrite (img : Option Nat) (port off : Nat) (half : Bool) (data : Word) (s : Dev) : Dev :=
  if !bar0Open s port then s
  else if !half then
    let s := dropHeld s port
    if off % 8 ≠ 0 then setupError s port off else wholeWrite img port off data s
  else if off % 8 = 4 then
    match (getPort s port).held with
    | some h =>
      if h.off = off - 4 then
        wholeWrite img port (off - 4) (BitVec.ofNat 64 (h.data + 2 ^ 32 * (data.toNat % 2 ^ 32))) (modPort s port (fun p => { p with held := none }))
      else setupError (dropHeld s port) port off
    | none => setupError s port off
  else
    let s := dropHeld s port
    if off % 8 ≠ 0 ∨ regAt s off = false then setupError s port off
    else modPort s port (fun p => { p with held := some { off := off, data := data.toNat % 2 ^ 32, since := s.now } })

/-- R500: ID_SEM as a port reads it now. -/
def showSem (s : Dev) (port : Nat) : Dev :=
  setF (if leaseFree s then endLease s else setF s fID_SEM_REMAIN_MS ((s.leaseEnd - s.now) / 1000000)) fID_SEM_SELF (port + 1)

/-- R30: what a read of a register returns: its word, in which WO fields are zero; OBS_TIME is the time base and ID_SEM shows the port and
the lease as it stands now (R500, R704). -/
def readWord (s : Dev) (port off : Nat) : Word :=
  if off = offOBS_TIME then timeBase s
  else
    let s := if off = offID_SEM then showSem s port else s
    match regSpecAt off with
    | some r => r.fields.foldl (fun w f => if f.acc = .wo then putFld w f.msb f.lsb 0 else w) (reg s off)
    | none => 0

/-- R28, R30: a legal read of a register or of one of its halves. A read of 64 bits discards a held lower half; one of 32 bits has no side
effect (log 46). -/
def bar0Read (port off len : Nat) (s : Dev) : Dev :=
  let s := if len = 8 then dropHeld s port else s
  emit s (.readData port (leBytes len ((readWord s port (off / 8 * 8)).toNat / 2 ^ (8 * (off % 8)))) false)

/-- R28 to R30, R67: a BAR0 access of `len` bytes that is no set-up write: one that no register serves, of another size or alignment or at
an offset with no register, is logged, and a read of it returns zeros; a legal read returns the register; a legal write is SETUP_WRITE's. -/
def doBar0AccessError (port off len : Nat) (write : Bool) (s : Dev) : Dev :=
  if !bar0Open s port then s
  else if (len = 4 ∨ len = 8) ∧ off % len = 0 ∧ regAt s (off / 8 * 8) = true then (if write then s else bar0Read port off len s)
  else
    let s := setupError (dropHeld s port) port off
    if write then s else emit s (.readData port (List.replicate len 0) false)

/-- R30: 1 µs passes without the upper half. -/
def doLowerHalfExpiry (port : Nat) (s : Dev) : Dev :=
  match (getPort s port).held with
  | some h => dropHeld { s with now := max s.now (h.since + 1000) } port
  | none => s

/-! ## The commands -/

/-- SETUP_WRITE (R23). -/
def execSetupWrite (port : Fin 2) (off : BitVec 26) (half : Bool) (data : Word) (s : State) : Out' :=
  updM s (doSetupWrite (seqImage s.sec) port off.toNat half data)
/-- BAR0_ACCESS_ERROR (R29). -/
def execBar0AccessError (port : Fin 2) (off : BitVec 26) (len : Fin 4097) (write : Bool) (s : State) : Out' :=
  upd s (doBar0AccessError port off.toNat len write)
/-- LOWER_HALF_EXPIRY (R30). -/
def execLowerHalfExpiry (port : Fin 2) (s : State) : Out' := upd s (doLowerHalfExpiry port)
/-- R458: a write of ID_SEM with CLAIM set and a lease length. -/
def doClaim (port lease : Nat) (tie : Bool) (s : Dev) : Dev :=
  if bar0Open s port then semWrite port tie (BitVec.ofNat 64 (1 + 16 * lease)) (dropHeld s port) else s

/-- CLAIM (R458). -/
def execClaim (port : Fin 2) (lease : BitVec 6) (s : State) (tie : Bool := false) : Out' := upd s (doClaim port lease.toNat tie)
/-- RELEASE (R458): a write of ID_SEM with RELEASE set. -/
def execRelease (port : Fin 2) (s : State) : Out' := upd s (doSetupWrite (seqImage s.sec) port offID_SEM false 2)
/-- LEASE_EXPIRY (R458). -/
def execLeaseExpiry (s : State) : Out' := upd s doLeaseExpiry
/-- RESUME (R698): a write of OBS_WHOA_CTL with RESUME set. -/
def execResume (port : Fin 2) (s : State) : Out' := updM s (doSetupWrite (seqImage s.sec) port offOBS_WHOA_CTL false 2)
/-- STOP_IO_RELEASE (R698). -/
def execStopIoRelease (s : State) : Out' := updM s (doStopIoRelease (seqImage s.sec))

end Sys2Proof.Machine
end

