-- ==== Sys2Proof/Machine/Sync.lean ====
section
/-! DEFINITION. Sys2Proof/Machine/Sync.lean: fences (R187 to R192, R348) and barriers (R193 to R197). -/

namespace Sys2Proof.Machine

open Sys2Proof

/-! ## Fences -/

/-- R171, R187: the fields of a fence: BID and res zero, KIND as the constructor has it, no reserved scope. -/
def fenceLegal (iw : IWord) (kind : Nat) : Bool := yRES iw == 0 && yBID iw == 0 && yKIND iw == kind && decide (ySCOPE iw < 6)

/-- R189: every earlier load, atomic and reserved load of the group has returned. -/
def loadsReturned (s : Dev) (core slot : Nat) : Bool := !((getCore s core).reqs.any (fun r => r.slot == slot))

/-- R187 to R192: a fence; `l` and `st` say whether it acts on loads and on stores. -/
def doFence (iw : IWord) (kind : Nat) (l st : Bool) (s : Dev) : Dev :=
  issue s iw 2 [] [] (fun s g =>
    if !fenceLegal iw kind then illegal s iw
    else if !execOnce g iw then skip s iw g
    else
      let sc := ySCOPE iw
      if yASYNC iw = 1 ∧ g.tok.any (fun e => e.2 != 0) then s
      else
        let s := if st && sc != 0 then sealFor s iw.core else s
        match (if st then releaseWait s iw.core iw.slot sc g else .done) with
        | .waiting => s
        | .lost st => storeLostAt s iw.core g.cmd st
        | .done =>
          if l && !loadsReturned s iw.core iw.slot then s
          else skip (if l && sc != 0 then l1Flash s iw.core else s) iw g)

/-! ## Barriers -/

/-- R193: whether two cores lie in one instance of a scope. -/
def sameScope (scope a b : Nat) : Bool :=
  match scope with
  | 0 => a == b
  | 1 => coreCluster a == coreCluster b
  | 2 => coreRegion a == coreRegion b
  | 3 => coreDie a == coreDie b
  | _ => true

/-- R193: the participants of a barrier: (core, slot, group). At core scope, the groups of the issuer's block. -/
def participants (cs : Tab Core) (core : Nat) (g : Group) (scope : Nat) : List (Nat × Nat × Group) :=
  cs.foldl (fun a e =>
    if sameScope scope core e.1 then
      a ++ (e.2.groups.filterMap (fun x => match x.2 with
        | some h => if h.cmd = g.cmd ∧ (scope ≠ 0 ∨ h.block = g.block) then some (e.1, x.1, h) else none
        | none => none))
    else a) []

/-- R195: a group has arrived at a barrier, or has ended. -/
def arrived (g : Group) (scope bid : Nat) : Bool :=
  match g.hold with
  | .barrier sc b _ _ => sc == scope && b == bid
  | .exited => true
  | _ => false

/-- R171, R193: legality of BAR: system scope and, without the cooperative flag, any scope wider than the core are
illegal. -/
def barLegal (s : Dev) (iw : IWord) (g : Group) : Bool :=
  let coop := match getCmd s g.cmd with
    | some c => kCoop c.desc
    | none => false
  yRES iw == 0 && yKIND iw == 0 && yASYNC iw == 0 && decide (ySCOPE iw < 5) && (ySCOPE iw == 0 || coop)

/-- Insert a RESUME entry directly below the top of the stack (R195). -/
def insertResume (e : StackEntry) : List StackEntry → List StackEntry
  | [] => [e]
  | t :: r => t :: e :: r

/-- R195 BAR. -/
def doBar (iw : IWord) (s : Dev) : Dev :=
  issue s iw 2 [] [] (fun s g =>
    if !barLegal s iw g then illegal s iw
    else if !execOnce g iw then skip s iw g
    else
      let id := (ySCOPE iw, yBID iw)
      if g.pend.isSome && g.pend != some id then raiseExc s iw.core iw.slot 0x08
      else
        let arr := g.arr ||| g.act
        let g1 := { g with pend := some id, arr := arr }
        if arr &&& g.live = g.live then
          match releaseWait s iw.core iw.slot id.1 g with
          | .waiting => sealFor (putGroup s iw g1) iw.core
          | .lost st => storeLostAt s iw.core g.cmd st
          | .done =>
            if markedPending s iw.core iw.slot then putGroup s iw g1
            else safePoint (putGroup (sealFor s iw.core) iw { g1 with hold := .barrier id.1 id.2 s.now false }) iw
        else
          match g.stack with
          | [] => safePoint (putGroup s iw { g1 with hold := .stuckBar s.now }) iw
          | t :: _ =>
            if t.kind = .join ∨ t.kind = .loop then safePoint (putGroup s iw { g1 with hold := .stuckBar s.now }) iw
            else if stackCap ≤ g.stack.length then raiseExc s iw.core iw.slot 0x06
            else
              let st := insertResume { kind := .resume, pc := g.pc + 8, mask := g.act } g.stack
              safePoint (applyPop s iw g1 (popNext g.live st)) iw)

/-- R194, R195: what a waiting group does when its barrier completes. -/
def passBarrier (s : Dev) (core slot : Nat) (g : Group) : Dev :=
  match g.hold with
  | .barrier _ _ _ atExit =>
    let h : Hold := if stopAsked s core g then .stopped else .run
    let g1 := { g with pend := none, arr := 0, hold := h }
    if atExit then
      match popNext g.live g.stack with
      | none => raiseExc s core slot 0x07
      | some (act, pc, st) => setGroup s core slot (some { g1 with act := act, pc := pc, stack := st })
    else setGroup s core slot (some { g1 with pc := g.pc + 8 })
  | _ => s

/-- R194: the barrier at which the group of a slot waits completes when every participant has arrived; each performs its
acquire. A participant whose state is saved holds it open (R197). -/
def doBarrierComplete (core slot : Nat) (s : Dev) : Dev :=
  if whoaStopped s then s
  else
    match getGroup s core slot with
    | none => s
    | some g =>
      match g.hold with
      | .barrier scope bid _ _ =>
        let ps := participants s.cores core g scope
        let savedPs := s.saved.flatMap (fun x => participants x.cores core g scope)
        if ps.all (fun p => arrived p.2.2 scope bid) && savedPs.isEmpty then
          let s := if scope = 0 then s else ((ps.map (fun p => p.1)).eraseDups).foldl (fun s c => l1Flash s c) s
          ps.foldl (fun s p => passBarrier s p.1 p.2.1 p.2.2) s
        else s
      | _ => s

/-- R196: cycles of the barrier watchdog of a KERNEL. -/
def wdCycles (d : Block64) : Nat :=
  let e := fld d (8 * 0x2C + 23) (8 * 0x2C + 19)
  2 ^ (if e = 0 then 24 else e)

/-- R196: the barrier watchdog of a waiting group expires: its command ends with BARRIER_STALL. Cycles are counted at
2.0 GHz (log 10). -/
def doBarrierWatchdog (core slot : Nat) (s : Dev) : Dev :=
  if whoaStopped s then s
  else
    match getGroup s core slot with
    | none => s
    | some g =>
      match getCmd s g.cmd with
      | none => s
      | some c =>
        let fire (since : Nat) : Dev := raiseExc { s with now := max s.now (since + wdCycles c.desc / 2) } core slot 0x09
        match g.hold with
        | .barrier _ _ since _ => fire since
        | .stuckBar since => fire since
        | _ => s

/-- FENCE.L (R189, R191). -/
def execFenceL (iw : IWord) (s : State) : Out' := upd s (doFence iw 1 true false)
/-- FENCE.S (R190). -/
def execFenceS (iw : IWord) (s : State) : Out' := upd s (doFence iw 2 false true)
/-- FENCE.LS (R192). -/
def execFenceLs (iw : IWord) (s : State) : Out' := upd s (doFence iw 3 true true)
/-- BAR (R195). -/
def execBar (iw : IWord) (s : State) : Out' := upd s (doBar iw)
/-- BARRIER_COMPLETE (R194). -/
def execBarrierComplete (core : Fin 768) (slot : Fin 16) (s : State) : Out' := upd s (doBarrierComplete core slot)
/-- BARRIER_WATCHDOG (R196). -/
def execBarrierWatchdog (core : Fin 768) (slot : Fin 16) (s : State) : Out' := upd s (doBarrierWatchdog core slot)

end Sys2Proof.Machine
end

