-- ==== Sys2Proof/Machine/Dispatch.lean ====
section
/-! DEFINITION. Sys2Proof/Machine/Dispatch.lean: one arm per command; each is one direct call of that command's meaning. -/

namespace Sys2Proof.Machine

open Sys2Proof

def exec (i : Instr) (s : State) : Host.Outcome State Fault Refusal :=
  match i with
  | .setupWrite port off half data => Sys2Proof.Machine.execSetupWrite port off half data s
  | .bar0AccessError port off len write => Sys2Proof.Machine.execBar0AccessError port off len write s
  | .lowerHalfExpiry port => Sys2Proof.Machine.execLowerHalfExpiry port s
  | .claim port lease tie => Sys2Proof.Machine.execClaim port lease s tie
  | .release port => Sys2Proof.Machine.execRelease port s
  | .leaseExpiry => Sys2Proof.Machine.execLeaseExpiry s
  | .doorbell port vf page off len data => Sys2Proof.Machine.execDoorbell port vf page off len data s
  | .ringFetch chan ring mapped => Sys2Proof.Machine.execRingFetch chan ring mapped s
  | .descriptorArrival chan ring descs => Sys2Proof.Machine.execDescriptorArrival chan ring descs s
  | .fetchFailure chan ring => Sys2Proof.Machine.execFetchFailure chan ring s
  | .dispatch chan => Sys2Proof.Machine.execDispatch chan s
  | .blockPlacement owner => Sys2Proof.Machine.execBlockPlacement owner s
  | .kernel key => Sys2Proof.Machine.execKernel key s
  | .copy op flaw => Sys2Proof.Machine.execCopy op s flaw
  | .fill op flaw => Sys2Proof.Machine.execFill op s flaw
  | .reduce op flaw => Sys2Proof.Machine.execReduce op s flaw
  | .gather op flaw => Sys2Proof.Machine.execGather op s flaw
  | .prefetch op flaw => Sys2Proof.Machine.execPrefetch op s flaw
  | .signal key => Sys2Proof.Machine.execSignal key s
  | .wait key => Sys2Proof.Machine.execWait key s
  | .waitReread key => Sys2Proof.Machine.execWaitReread key s
  | .fence key => Sys2Proof.Machine.execFence key s
  | .mark key => Sys2Proof.Machine.execMark key s
  | .modelSwitch key => Sys2Proof.Machine.execModelSwitch key s
  | .commandTimeout key => Sys2Proof.Machine.execCommandTimeout key s
  | .modUsExpiry chan cq => Sys2Proof.Machine.execModUsExpiry chan cq s
  | .recordWriteFailure chan cq => Sys2Proof.Machine.execRecordWriteFailure chan cq s
  | .dlDown port => Sys2Proof.Machine.execDlDown port s
  | .sqEnable port chan ring data => Sys2Proof.Machine.execSqEnable port chan ring data s
  | .sqDisable port chan ring data => Sys2Proof.Machine.execSqDisable port chan ring data s
  | .cqEnable port chan ring data => Sys2Proof.Machine.execCqEnable port chan ring data s
  | .cqDisable port chan ring data => Sys2Proof.Machine.execCqDisable port chan ring data s
  | .channelReset port chan => Sys2Proof.Machine.execChannelReset port chan s
  | .bar4Write port addr data flaw => Sys2Proof.Machine.execBar4Write port addr data s flaw
  | .bar4Read port addr len flaw => Sys2Proof.Machine.execBar4Read port addr len s flaw
  | .start port slice => Sys2Proof.Machine.execStart port slice s
  | .hobble port slice cache save => Sys2Proof.Machine.execHobble port slice cache save s
  | .hobbleForceAbort slice => Sys2Proof.Machine.execHobbleForceAbort slice s
  | .sliceReset port slice => Sys2Proof.Machine.execSliceReset port slice s
  | .remove port slice => Sys2Proof.Machine.execRemove port slice s
  | .tlbFlush port slice => Sys2Proof.Machine.execTlbFlush port slice s
  | .regionLeave port slice regions => Sys2Proof.Machine.execRegionLeave port slice regions s
  | .pageGroom port nfm1 => Sys2Proof.Machine.execPageGroom port nfm1 s
  | .pageGroomDone => Sys2Proof.Machine.execPageGroomDone s
  | .quantumExpiry region => Sys2Proof.Machine.execQuantumExpiry region s
  | .preemptGraceExpiry key => Sys2Proof.Machine.execPreemptGraceExpiry key s
  | .cyclicEnable port chan data => Sys2Proof.Machine.execCyclicEnable port chan data s
  | .frameStart chan => Sys2Proof.Machine.execFrameStart chan s
  | .windowLead chan => Sys2Proof.Machine.execWindowLead chan s
  | .windowOpen chan => Sys2Proof.Machine.execWindowOpen chan s
  | .windowClose chan => Sys2Proof.Machine.execWindowClose chan s
  | .dlogSync port slice data => Sys2Proof.Machine.execDlogSync port slice data s
  | .dlogStageWrite slice map word => Sys2Proof.Machine.execDlogStageWrite slice map word s
  | .nop iw => Sys2Proof.Machine.execNop iw s
  | .bra iw => Sys2Proof.Machine.execBra iw s
  | .split iw => Sys2Proof.Machine.execSplit iw s
  | .join iw => Sys2Proof.Machine.execJoin iw s
  | .loop iw => Sys2Proof.Machine.execLoop iw s
  | .breakI iw => Sys2Proof.Machine.execBreakI iw s
  | .exit iw => Sys2Proof.Machine.execExit iw s
  | .tokenWait iw => Sys2Proof.Machine.execTokenWait iw s
  | .trap iw => Sys2Proof.Machine.execTrap iw s
  | .salu iw => Sys2Proof.Machine.execSalu iw s
  | .scmp iw => Sys2Proof.Machine.execScmp iw s
  | .salui iw => Sys2Proof.Machine.execSalui iw s
  | .scmpi iw => Sys2Proof.Machine.execScmpi iw s
  | .mov iw => Sys2Proof.Machine.execMov iw s
  | .movi iw => Sys2Proof.Machine.execMovi iw s
  | .movhi iw => Sys2Proof.Machine.execMovhi iw s
  | .movsr iw => Sys2Proof.Machine.execMovsr iw s
  | .p2s iw => Sys2Proof.Machine.execP2s iw s
  | .vread iw => Sys2Proof.Machine.execVread iw s
  | .valu iw => Sys2Proof.Machine.execValu iw s
  | .valu64 iw => Sys2Proof.Machine.execValu64 iw s
  | .valui iw => Sys2Proof.Machine.execValui iw s
  | .falu iw => Sys2Proof.Machine.execFalu iw s
  | .falui iw => Sys2Proof.Machine.execFalui iw s
  | .dalu iw => Sys2Proof.Machine.execDalu iw s
  | .halu iw => Sys2Proof.Machine.execHalu iw s
  | .cvt iw => Sys2Proof.Machine.execCvt iw s
  | .cvtd iw => Sys2Proof.Machine.execCvtd iw s
  | .cvt2d iw => Sys2Proof.Machine.execCvt2d iw s
  | .fcmp iw => Sys2Proof.Machine.execFcmp iw s
  | .icmp iw => Sys2Proof.Machine.execIcmp iw s
  | .dcmp iw => Sys2Proof.Machine.execDcmp iw s
  | .sel iw => Sys2Proof.Machine.execSel iw s
  | .plog iw => Sys2Proof.Machine.execPlog iw s
  | .shfl iw => Sys2Proof.Machine.execShfl iw s
  | .bcast iw => Sys2Proof.Machine.execBcast iw s
  | .vote iw => Sys2Proof.Machine.execVote iw s
  | .ld iw => Sys2Proof.Machine.execLd iw s
  | .st iw => Sys2Proof.Machine.execSt iw s
  | .lds iw => Sys2Proof.Machine.execLds iw s
  | .sts iw => Sys2Proof.Machine.execSts iw s
  | .ldl iw => Sys2Proof.Machine.execLdl iw s
  | .stl iw => Sys2Proof.Machine.execStl iw s
  | .atom iw => Sys2Proof.Machine.execAtom iw s
  | .ldr iw => Sys2Proof.Machine.execLdr iw s
  | .stc iw => Sys2Proof.Machine.execStc iw s
  | .fenceL iw => Sys2Proof.Machine.execFenceL iw s
  | .fenceS iw => Sys2Proof.Machine.execFenceS iw s
  | .fenceLs iw => Sys2Proof.Machine.execFenceLs iw s
  | .bar iw => Sys2Proof.Machine.execBar iw s
  | .barrierComplete core slot => Sys2Proof.Machine.execBarrierComplete core slot s
  | .barrierWatchdog core slot => Sys2Proof.Machine.execBarrierWatchdog core slot s
  | .loadResponse core id => Sys2Proof.Machine.execLoadResponse core id s
  | .sbSend core => Sys2Proof.Machine.execSbSend core s
  | .sbOpenExpiry core seq => Sys2Proof.Machine.execSbOpenExpiry core seq s
  | .sbAck core seq => Sys2Proof.Machine.execSbAck core seq s
  | .mma iw => Sys2Proof.Machine.execMma iw s
  | .aload iw => Sys2Proof.Machine.execAload iw s
  | .drain iw => Sys2Proof.Machine.execDrain iw s
  | .matrixLaneStart core => Sys2Proof.Machine.execMatrixLaneStart core s
  | .mmaComplete core => Sys2Proof.Machine.execMmaComplete core s
  | .aloadComplete core => Sys2Proof.Machine.execAloadComplete core s
  | .drainComplete core => Sys2Proof.Machine.execDrainComplete core s
  | .dma iw => Sys2Proof.Machine.execDma iw s
  | .dmaOpComplete op => Sys2Proof.Machine.execDmaOpComplete op s
  | .fload iw => Sys2Proof.Machine.execFload iw s
  | .floadValidated cl => Sys2Proof.Machine.execFloadValidated cl s
  | .fswap iw => Sys2Proof.Machine.execFswap iw s
  | .fswapEffect cl => Sys2Proof.Machine.execFswapEffect cl s
  | .frun iw => Sys2Proof.Machine.execFrun iw s
  | .frunStart cl sram => Sys2Proof.Machine.execFrunStart cl s sram
  | .fabricBeat cl port sram => Sys2Proof.Machine.execFabricBeat cl port s sram
  | .runEnd cl sram => Sys2Proof.Machine.execRunEnd cl s sram
  | .homeRead core id fault => Sys2Proof.Machine.execHomeRead core id fault s
  | .homeWrite core seq fault => Sys2Proof.Machine.execHomeWrite core seq s fault
  | .missFill slice line resp => Sys2Proof.Machine.execMissFill slice line resp s
  | .flush port tagsel tag => Sys2Proof.Machine.execFlush port tagsel tag s
  | .invalidate port tagsel tag => Sys2Proof.Machine.execInvalidate port tagsel tag s
  | .flushInv port tagsel tag => Sys2Proof.Machine.execFlushInv port tagsel tag s
  | .rangeDone => Sys2Proof.Machine.execRangeDone s
  | .homeAtomic core id fault => Sys2Proof.Machine.execHomeAtomic core id s fault
  | .adderOperation core id flaw => Sys2Proof.Machine.execAdderOperation core id s flaw
  | .adderFlushExpiry sector => Sys2Proof.Machine.execAdderFlushExpiry sector s
  | .orderedReduction id => Sys2Proof.Machine.execOrderedReduction id s
  | .oredArm port slice data => Sys2Proof.Machine.execOredArm port slice data s
  | .heartbeatExpiry silent => Sys2Proof.Machine.execHeartbeatExpiry silent s
  | .modeWrite port mode => Sys2Proof.Machine.execModeWrite port mode s
  | .farWriteTimeout f => Sys2Proof.Machine.execFarWriteTimeout f s
  | .hostCreditTimeout port => Sys2Proof.Machine.execHostCreditTimeout port s
  | .scrubRead sector flaw => Sys2Proof.Machine.execScrubRead sector s flaw
  | .recover port f => Sys2Proof.Machine.execRecover port f s
  | .farRetrainDone f result => Sys2Proof.Machine.execFarRetrainDone f result s
  | .unlatch port f => Sys2Proof.Machine.execUnlatch port f s
  | .devloadExpiry f => Sys2Proof.Machine.execDevloadExpiry f s
  | .load port entries => Sys2Proof.Machine.execLoad port entries s
  | .inject port kind sector => Sys2Proof.Machine.execInject port kind sector s
  | .stackLoss stack => Sys2Proof.Machine.execStackLoss stack s
  | .linkTraining link found => Sys2Proof.Machine.execLinkTraining link found s
  | .laneRepair link module cause resends undelivered result => Sys2Proof.Machine.execLaneRepair link module cause resends undelivered result s
  | .retrain port link module result => Sys2Proof.Machine.execRetrain port link module result s
  | .bayAdmission bay desc => Sys2Proof.Machine.execBayAdmission bay desc s
  | .bayReset port bay data => Sys2Proof.Machine.execBayReset port bay data s
  | .bind port bay data => Sys2Proof.Machine.execBind port bay data s
  | .bayRequest bay req => Sys2Proof.Machine.execBayRequest bay req s
  | .bayOverPower bay => Sys2Proof.Machine.execBayOverPower bay s
  | .scanOut select ir => Sys2Proof.Machine.execScanOut select s ir
  | .reinTick m => Sys2Proof.Machine.execReinTick m s
  | .reinMissed => Sys2Proof.Machine.execReinMissed s
  | .curb vin iin => Sys2Proof.Machine.execCurb vin iin s
  | .curbRelease vin iin => Sys2Proof.Machine.execCurbRelease vin iin s
  | .brake => Sys2Proof.Machine.execBrake s
  | .brakeRelease => Sys2Proof.Machine.execBrakeRelease s
  | .thermalTrip sensor temp => Sys2Proof.Machine.execThermalTrip sensor temp s
  | .leak => Sys2Proof.Machine.execLeak s
  | .inputShutdown vin => Sys2Proof.Machine.execInputShutdown vin s
  | .energySettle m => Sys2Proof.Machine.execEnergySettle m s
  | .ageingTest core p low => Sys2Proof.Machine.execAgeingTest core p low s
  | .droop cl mv => Sys2Proof.Machine.execDroop cl mv s
  | .droopRelease cl => Sys2Proof.Machine.execDroopRelease cl s
  | .clockGate cl => Sys2Proof.Machine.execClockGate cl s
  | .powerGate region => Sys2Proof.Machine.execPowerGate region s
  | .selfRefresh die => Sys2Proof.Machine.execSelfRefresh die s
  | .clusterWake cl => Sys2Proof.Machine.execClusterWake cl s
  | .regionWake region => Sys2Proof.Machine.execRegionWake region s
  | .dieWake die => Sys2Proof.Machine.execDieWake die s
  | .budgetWrite port data => Sys2Proof.Machine.execBudgetWrite port data s
  | .rampWrite port data => Sys2Proof.Machine.execRampWrite port data s
  | .refclkLoss => Sys2Proof.Machine.execRefclkLoss s
  | .refclkValid => Sys2Proof.Machine.execRefclkValid s
  | .stand modId => Sys2Proof.Machine.execStand modId s
  | .primaryArbitration hnRunning => Sys2Proof.Machine.execPrimaryArbitration hnRunning s
  | .perstAssert port => Sys2Proof.Machine.execPerstAssert port s
  | .perstRelease port => Sys2Proof.Machine.execPerstRelease port s
  | .regionSelftestDone region pass => Sys2Proof.Machine.execRegionSelftestDone region pass s
  | .halterCutoff => Sys2Proof.Machine.execHalterCutoff s
  | .saddle pmin => Sys2Proof.Machine.execSaddle pmin s
  | .saddleTimeout => Sys2Proof.Machine.execSaddleTimeout s
  | .deviceReset port => Sys2Proof.Machine.execDeviceReset port s
  | .getInfo => Sys2Proof.Machine.execGetInfo s
  | .selftest => Sys2Proof.Machine.execSelftest s
  | .selftestResult => Sys2Proof.Machine.execSelftestResult s
  | .stageLog => Sys2Proof.Machine.execStageLog s
  | .fwQuery => Sys2Proof.Machine.execFwQuery s
  | .fwBegin => Sys2Proof.Machine.execFwBegin s
  | .fwWrite => Sys2Proof.Machine.execFwWrite s
  | .fwVerify => Sys2Proof.Machine.execFwVerify s
  | .fwActivate => Sys2Proof.Machine.execFwActivate s
  | .fwCommit => Sys2Proof.Machine.execFwCommit s
  | .fwAbort => Sys2Proof.Machine.execFwAbort s
  | .mailboxResponse => Sys2Proof.Machine.execMailboxResponse s
  | .updateIdleExpiry => Sys2Proof.Machine.execUpdateIdleExpiry s
  | .trialBootFailure => Sys2Proof.Machine.execTrialBootFailure s
  | .railFailure part => Sys2Proof.Machine.execRailFailure part s
  | .eventRingEnable port ring data => Sys2Proof.Machine.execEventRingEnable port ring data s
  | .eventRingHead port ring head => Sys2Proof.Machine.execEventRingHead port ring head s
  | .snapshot => Sys2Proof.Machine.execSnapshot s
  | .counterSample => Sys2Proof.Machine.execCounterSample s
  | .traceBufferEnable port buf data => Sys2Proof.Machine.execTraceBufferEnable port buf data s
  | .tsyncStep port delta => Sys2Proof.Machine.execTsyncStep port delta s
  | .syncEdge rising => Sys2Proof.Machine.execSyncEdge rising s
  | .holdoverExpiry => Sys2Proof.Machine.execHoldoverExpiry s
  | .timeRequest => Sys2Proof.Machine.execTimeRequest s
  | .whoaStop port => Sys2Proof.Machine.execWhoaStop port s
  | .stopIo => Sys2Proof.Machine.execStopIo s
  | .resume port => Sys2Proof.Machine.execResume port s
  | .dumpGo port hub data => Sys2Proof.Machine.execDumpGo port hub data s
  | .channelWatchdog chan => Sys2Proof.Machine.execChannelWatchdog chan s
  | .dumpFrozen hub => Sys2Proof.Machine.execDumpFrozen hub s
  | .resumeHeld port hub data => Sys2Proof.Machine.execResumeHeld port hub data s
  | .abortHeld port hub data => Sys2Proof.Machine.execAbortHeld port hub data s
  | .debugToken serial nonce sig => Sys2Proof.Machine.execDebugToken serial nonce sig s
  | .debugDisable => Sys2Proof.Machine.execDebugDisable s
  | .getTid => Sys2Proof.Machine.execGetTid s
  | .getPldmVersion type => Sys2Proof.Machine.execGetPldmVersion type s
  | .getPldmTypes => Sys2Proof.Machine.execGetPldmTypes s
  | .getPldmCommands type => Sys2Proof.Machine.execGetPldmCommands type s
  | .getSensorReading id => Sys2Proof.Machine.execGetSensorReading id s
  | .getStateSensorReadings id => Sys2Proof.Machine.execGetStateSensorReadings id s
  | .setNumericEffecterValue id value => Sys2Proof.Machine.execSetNumericEffecterValue id value s
  | .setStateEffecterStates id temps => Sys2Proof.Machine.execSetStateEffecterStates id temps s
  | .activateFirmware selfContained => Sys2Proof.Machine.execActivateFirmware selfContained s
  | .getVersion => Sys2Proof.Machine.execGetVersion s
  | .getCapabilities => Sys2Proof.Machine.execGetCapabilities s
  | .negotiateAlgorithms p384 sha384 secp384r1 gcm => Sys2Proof.Machine.execNegotiateAlgorithms p384 sha384 secp384r1 gcm s
  | .getDigests => Sys2Proof.Machine.execGetDigests s
  | .getCertificate slot => Sys2Proof.Machine.execGetCertificate slot s
  | .challenge slot => Sys2Proof.Machine.execChallenge slot s
  | .getMeasurements index => Sys2Proof.Machine.execGetMeasurements index s
  | .keyExchange => Sys2Proof.Machine.execKeyExchange s
  | .finish session => Sys2Proof.Machine.execFinish session s
  | .heartbeat session => Sys2Proof.Machine.execHeartbeat session s
  | .keyUpdate session => Sys2Proof.Machine.execKeyUpdate session s
  | .endSession session => Sys2Proof.Machine.execEndSession session s
  | .getDeviceInterfaceReport port slice => Sys2Proof.Machine.execGetDeviceInterfaceReport port slice s
  | .ideKm port session stream => Sys2Proof.Machine.execIdeKm port session stream s
  | .soEnable port data => Sys2Proof.Machine.execSoEnable port data s
  | .write port p => Sys2Proof.Machine.execWrite port p s
  | .readReq port p => Sys2Proof.Machine.execReadReq port p s
  | .readRsp port p => Sys2Proof.Machine.execReadRsp port p s
  | .tandemReduce port p => Sys2Proof.Machine.execTandemReduce port p s
  | .ack port p => Sys2Proof.Machine.execAck port p s
  | .nak port p => Sys2Proof.Machine.execNak port p s
  | .cnp port p => Sys2Proof.Machine.execCnp port p s
  | .time port p => Sys2Proof.Machine.execTime port p s
  | .flowReset port p => Sys2Proof.Machine.execFlowReset port p s
  | .resendTimeout eng m tc psn => Sys2Proof.Machine.execResendTimeout eng m tc psn s
  | .rateIncrease eng m tc => Sys2Proof.Machine.execRateIncrease eng m tc s
  | .portDown port => Sys2Proof.Machine.execPortDown port s
  | .portUp port => Sys2Proof.Machine.execPortUp port s
  | .flowFailExpiry eng m tc => Sys2Proof.Machine.execFlowFailExpiry eng m tc s
  | .peerReset port m => Sys2Proof.Machine.execPeerReset port m s
  | .dlUp port => Sys2Proof.Machine.execDlUp port s
  | .farLinkDown f => Sys2Proof.Machine.execFarLinkDown f s
  | .cxlEventRecord f deferred addr => Sys2Proof.Machine.execCxlEventRecord f deferred addr s
  | .peerAckTimeout eng m tc => Sys2Proof.Machine.execPeerAckTimeout eng m tc s
  | .flowContextFree eng m tc => Sys2Proof.Machine.execFlowContextFree eng m tc s
  | .refclkRestart => Sys2Proof.Machine.execRefclkRestart s
  | .managementPlaneRestart up => Sys2Proof.Machine.execManagementPlaneRestart up s
  | .stackTraining ok => Sys2Proof.Machine.execStackTraining ok s
  | .nearTierZeroing => Sys2Proof.Machine.execNearTierZeroing s
  | .farPortEnumeration f result => Sys2Proof.Machine.execFarPortEnumeration f result s
  | .hostCompletionTimeout r => Sys2Proof.Machine.execHostCompletionTimeout r s
  | .atsInvalidation port pasid page count => Sys2Proof.Machine.execAtsInvalidation port pasid page count s
  | .pageRequestResponse port pasid page ok => Sys2Proof.Machine.execPageRequestResponse port pasid page ok s
  | .configurationWrite port w => Sys2Proof.Machine.execConfigurationWrite port w s
  | .msixVectorUnmask port vf v => Sys2Proof.Machine.execMsixVectorUnmask port vf v s
  | .stopIoRelease => Sys2Proof.Machine.execStopIoRelease s
  | .frameOutPulseEnd => Sys2Proof.Machine.execFrameOutPulseEnd s
  | .platformEventAck => Sys2Proof.Machine.execPlatformEventAck s
  | .setEventReceiver eid => Sys2Proof.Machine.execSetEventReceiver eid s
  | .setEndpointId eid => Sys2Proof.Machine.execSetEndpointId eid s
  | .dynamicAddressAssignment pid addr => Sys2Proof.Machine.execDynamicAddressAssignment pid addr s
  | .debugNonce nonce => Sys2Proof.Machine.execDebugNonce nonce s
  | .lockInterface port slice => Sys2Proof.Machine.execLockInterface port slice s
  | .startInterface port slice => Sys2Proof.Machine.execStartInterface port slice s
  | .stopInterface port slice => Sys2Proof.Machine.execStopInterface port slice s
  | .requestUpdate len => Sys2Proof.Machine.execRequestUpdate len s
  | .updateComponent comp size => Sys2Proof.Machine.execUpdateComponent comp size s
  | .firmwareData offset data => Sys2Proof.Machine.execFirmwareData offset data s
  | .cancelUpdate => Sys2Proof.Machine.execCancelUpdate s

end Sys2Proof.Machine
end

