-- ==== Sys2Proof/Machine/Step.lean ====
section
/-! DEFINITION. Sys2Proof/Machine/Step.lean: one step of the machine: the command at the front of the queue, or the idling of an empty
queue. -/

namespace Sys2Proof.Machine

open Sys2Proof

/-- With no command waiting, time passes (R675; DESIGN CHOICE, log 1). -/
def idle (s : State) : State := { s with dev := tick s.dev }

/-- One step: the command at the front acts on the state with the rest of the queue; an empty queue idles. -/
def step (s : State) : Host.Outcome State Fault Refusal :=
  match s.pending with
  | [] => .next (idle s)
  | c :: rest => exec c { s with pending := rest }

/-- The command that a word spells, put at the front of the queue; the state itself where it spells none. -/
def State.withFetchWord (s : State) (nbits w : Nat) : State :=
  match decodeTableWord nbits w with
  | some c => { s with pending := c :: s.pending }
  | none => s

end Sys2Proof.Machine
end

