-- ==== Sys2Proof/Safety.lean ====
section
/-! DEFINITION. Sys2Proof/Safety.lean: the conditions and properties that statements about the machine are made of. -/

namespace Sys2Proof.Machine

open Sys2Proof

/-- The command has completed: the next state is `s` with the device `d`. The queue and the flash stay as they were. -/
abbrev Completes (c : Instr) (s : State) (d : Dev) : Prop := exec c s = .next { s with dev := d }

/-- `s` with the model's own mark, which a command that makes coherent requests sets anew, at `b`. -/
abbrev marked (s : State) (b : Bool) : State := { s with dev := { s.dev with ms := { s.dev.ms with blocked := b } } }

/-- A command that makes coherent requests: whatever the mark stood at, it completes with the device `d` where no home refuses a request;
where one is refused with retry the state stays as it was, for the command to be sent again (R313, log 8). -/
abbrev CompletesM (c : Instr) (s : State) (d : Dev) : Prop :=
  s.dev.ms.blocked = false → ∀ b, (d.ms.blocked = false → exec c (marked s b) = .next { s with dev := d })
    ∧ (d.ms.blocked = true → exec c (marked s b) = .next (marked s b))

/-- A 64-bit set-up write of a register reaches it and acts: BAR0 answers on the port, no lower half is held there, a register lies
at the offset, the port holds the lease, the module is Saddled and not stopped by Whoa, and no locked TDI holds the register (R23,
R28 to R30, R67, R458, R459, R628, R695, R735). -/
abbrev SetupTaken (s : Dev) (port off : Nat) : Prop :=
  bar0Open s port = true ∧ (getPort s port).held = none ∧ regAt s off = true ∧ holdsLease s port = true
    ∧ whoaStopped s = false ∧ stage s = 2 ∧ tdiHolds s off = false

/-- A group's instruction issues: nothing stops the group, the word carries no poison and its own row's opcode, the storage it reads has no
error, and no older write of a register it names is pending (R152, R170, R187, R206, R339). -/
abbrev Issues (s : Dev) (iw : IWord) (vs ss : List Nat) (g : Group) : Prop :=
  mayIssue s iw = some g ∧ iw.poison = false ∧ iw.opcode = none ∧ iw.sram = none ∧ busy g vs ss = false

/-- What a legal arithmetic instruction leaves: its group with the results, gone on to the next instruction; its command with the flags
and the poison it met (R77, R156, R206). -/
def arithEffect (s : Dev) (iw : IWord) (g : Group) (r : ArithRes) : Dev :=
  let s := putGroup s iw r.g.next
  let s := if r.fl = 0 then s else orFlags s g.cmd r.fl
  if r.poison then markPoison s g.cmd else s

/-- An arithmetic instruction `c` with issue event `code`, the registers it names and its operation completes with the operation's
result, counted once. -/
abbrev ArithCompletes (c : IWord → Instr) (code : Nat) (vs ss : IWord → List Nat) (op : Dev → Group → IWord → Option ArithRes) : Prop :=
  ∀ (s : State) (iw : IWord) (g : Group) (r : ArithRes), Issues s.dev iw (vs iw) (ss iw) g → op s.dev g iw = some r →
    Completes (c iw) s (countIssue (arithEffect s.dev iw g r) iw code g)

/-- A legal control instruction of a running group: it issues, its unused control fields are zero (R801), and some lane of the group
executes it (R154). -/
abbrev ControlRuns (s : Dev) (iw : IWord) (t1 t2 : Bool) (g : Group) : Prop :=
  Issues s iw [] [] g ∧ ctlLegal iw t1 t2 = true

/-- A load of lanes `la` goes out: its addresses resolve to accesses `l`, no range tracker entry stands against them, the core and its die
have the credits, TSO mode holds no load of the group back, and an acquire or volatile load meets no buffered store to its lines (R162, R173,
R176, R177, R262, R354, R355). -/
abbrev LoadGoes (s : Dev) (iw : IWord) (g : Group) (sh : LoadShape) (la : List (Nat × Nat)) (s1 : Dev) (l : List LaneAcc) : Prop :=
  la ≠ [] ∧ resolve s (cmdTag s g.cmd) sh.size false false la = (s1, .ok l) ∧ trkHit s1 iw.core sh.size l = false
    ∧ creditsFor s1 iw.core iw.slot (linesOf l).length = true
    ∧ (tso s1 && tsoLoadHeld s1 iw.core iw.slot (l.map (fun a => (a.pa / 512, a.attr)))) = false
    ∧ ((sh.acq || sh.vol) && sbBlocks s1 iw.core (linesOf l)) = false

/-- What a load that goes out leaves: one request per line, its registers pending, its group gone on. -/
def loadEffect (iw : IWord) (g : Group) (sh : LoadShape) (pz : Nat → Bool) (busyV busyS : List Nat) (s1 : Dev) (l : List LaneAcc) : Dev :=
  putGroup ((linesOf l).foldl (fun s ln => loadReq s iw g sh s1.nextKey l pz ln) (takeCredit s1 iw.core iw.slot)) iw { g.next with busyV := g.busyV ++ busyV, busyS := g.busyS ++ busyS }

/-- A store of lanes `la`, none of which it has stored before, finds room for every line: its addresses resolve, no range tracker entry
stands against them, a release's waits are over, and the buffer takes each line (R164, R177, R262, R345, R350). -/
abbrev StoreGoes (s : Dev) (iw : IWord) (g : Group) (size scope : Nat) (release : Bool) (la : List (Nat × Nat)) (val : Nat → Nat) (pz : Nat → Bool)
    (s1 s3 : Dev) (l : List LaneAcc) (m : BitVec 32) : Prop :=
  la ≠ [] ∧ g.stored = 0 ∧ resolve s (cmdTag s g.cmd) size true false la = (s1, .ok l) ∧ trkHit s1 iw.core size l = false
    ∧ (release = true → releaseWait s1 iw.core iw.slot scope g = .done)
    ∧ bufferLines iw g.cmd size release (l.map (fun a => { acc := a, val := val a.lane, poison := pz a.lane })) ((l.map (fun a => a.pa / 512)).eraseDups)
        (if release then sealFor s1 iw.core else s1, 0) = (s3, m)
    ∧ m ≠ 0 ∧ l.all (fun a => m.getLsbD a.lane) = true

/-- What such a store leaves: its command marked where a stored value is poisoned, and its group gone on. -/
def storeEffect (iw : IWord) (g : Group) (pz : Nat → Bool) (s3 : Dev) (l : List LaneAcc) (m : BitVec 32) : Dev :=
  putGroup (if l.any (fun a => pz a.lane && m.getLsbD a.lane) then markPoison s3 g.cmd else s3) iw { g.next with stored := 0 }

/-- A global atomic, LDR or STC goes out: its addresses resolve, no range tracker entry and no buffered store to its lines stands against
it, the core has the credits, the buffer is empty in TSO mode, and a release's waits are over (R162, R177, R179, R262, R353, R354). -/
abbrev AtomGoes (s : Dev) (iw : IWord) (g : Group) (write : Bool) (s1 : Dev) (l : List LaneAcc) : Prop :=
  lanesOf (execMask g iw) ≠ []
    ∧ resolve s (cmdTag s g.cmd) (4 * (1 + aW64 iw)) write true ((lanesOf (execMask g iw)).map (fun l => (l, atmAddr g iw l))) = (s1, .ok l)
    ∧ trkHit s1 iw.core (4 * (1 + aW64 iw)) l = false ∧ creditsFor s1 iw.core iw.slot (linesOf l).length = true
    ∧ (tso s1 = true → (getCore s1 iw.core).sb = []) ∧ sbBlocks s1 iw.core (linesOf l) = false
    ∧ (aORD iw / 2 = 1 → releaseWait s1 iw.core iw.slot (aSCOPE iw) g = .done)

/-- What it leaves: one request per line, its registers pending, its group gone on. -/
def atomEffect (iw : IWord) (g : Group) (kind : ReqKind) (busyV : List Nat) (s1 : Dev) (l : List LaneAcc) : Dev :=
  let s2 := takeCredit (if aORD iw / 2 = 1 then sealFor s1 iw.core else s1) iw.core iw.slot
  let s2 := (linesOf l).foldl (atomReq iw g kind (iVD iw) s1.nextKey l) (if kind = .stc then l.foldl (storeInval iw.core (4 * (1 + aW64 iw))) s2 else s2)
  putGroup (if l.any (fun a => atmPoison g iw a.lane) then markPoison s2 g.cmd else s2) iw { g.next with busyV := g.busyV ++ busyV }

/-- A request of a core reaches its home in service: the module runs, nothing was answered or queued, and the line's place is a tier (R286). -/
abbrev RequestReaches (s : Dev) (core id home : Nat) (r : MemReq) : Prop :=
  whoaStopped s = false ∧ getReq s core id = some r ∧ r.served = false ∧ r.waiting = false ∧ placeOf s (r.line * 512) = .tier
    ∧ homeAgent s (r.line * 512) r.attr.home = some home ∧ tagsFree s core home = true

/-- A read request reaches its home and is not refused: no older read comes before it, and the home holds nothing at its line (R303, R306, R313, R355,
R361, R527). -/
abbrev ReadReaches (s : Dev) (core id home : Nat) (r : MemReq) : Prop :=
  RequestReaches s core id home r ∧ isLoad r.kind = true ∧ readBehind s core r = false ∧ lineShut s home r.line = false

/-- An atomic, LDR or STC reaches its home, which takes it: no older operation comes before it, nothing is held at its line, its destination is not
dead, its tag is right, and the reduction unit has room (R276, R305, R306, R313, R357, R370). -/
abbrev AtomReaches (s : Dev) (core id home : Nat) (r : MemReq) : Prop :=
  RequestReaches s core id home r ∧ isLoad r.kind = false ∧ atomBehind s core r = false ∧ pgHeld s (r.line * 512) = false
    ∧ getF s fCD_STATUS_DROP_ACTIVE ≠ 1 ∧ s.ms.heldOps.any (fun q => q.home == home && q.line == r.line) = false
    ∧ deadPlace s (r.line * 512) r.attr = false ∧ lineCheck s home r.line r.tag (r.kind != .ldr) ≠ 2 ∧ redLoad s home + opSectors r ≤ 128

/-- The miss that a request opens at its home (R291). -/
def openMiss (home : Nat) (r : MemReq) (sectors : BitVec 8) (reqs : List Requester) : MissEntry :=
  { slice := home, line := r.line, backing := backingOf (r.line * 512) r.attr.home / 512, sectors := sectors, attr := r.attr, tag := r.tag, ret := 0, reqs := reqs }

/-- The operation that a request queues at its home (R303, R305). -/
def redOpOf (core home : Nat) (r : MemReq) : RedOp := { home := home, line := r.line, core := core, req := r.id, n := opSectors r }

/-- A range operation by register has begun: its lines and whether it takes one tag only are those of its start (R297, R328). -/
def rangeStarted (s : Dev) : Dev :=
  modMs s (fun m => { m with range := some (getF s fCD_RANGE_BASE_BASE, getF s fCD_RANGE_LEN_LINES, getF s fCD_RANGE_CMD_TAGSEL == 1) })

/-- An asynchronous instruction finds room: its queue has a place, its token is below 255, and the range tracker takes its ranges (R198, R262). -/
abbrev AsyncRoom (s : Dev) (iw : IWord) (g : Group) (queued limit : Nat) (qs : List TrkReq) : Prop :=
  queued < limit ∧ tokCount g (xTOK iw) ≠ 255 ∧ asyncReady s iw.core qs = true

/-- What a matrix instruction that enters its core's queue leaves (R120, R123, R262, R136, R206). -/
def mxQueued (s : Dev) (iw : IWord) (g : Group) (o : MxOp) (qs : List TrkReq) : Dev :=
  let s := trkTake s iw.core o.id g.cmd qs
  let s := if xcOP o.ctrl = 3 ∧ xcDEST o.ctrl = false then drainInval s iw.core o.a0 o.a1 else s
  let s := modCore s iw.core (fun c => { c with mq := c.mq ++ [o] })
  let s := modCmd (nameTile s iw.core g.cmd o.ctrl) g.cmd (fun c => { c with poisoned := c.poisoned || o.opPoison })
  putGroup { s with nextKey := s.nextKey + 1 } iw (tokRaise g.next (xTOK iw))

/-- A matrix instruction of an operation enters its core's queue: it is legal and executes, its control word names the operation, its
operands are valid and within the memory, and there is room. -/
abbrev MatrixGoes (s : Dev) (iw : IWord) (op : Nat) (g : Group) (o : MxOp) (qs : List TrkReq) : Prop :=
  Issues s iw [] (mxUses op iw) g ∧ xRES iw = 0 ∧ xSD1 iw % 2 = 0 ∧ execOnce g iw = true
    ∧ xcOP (getS g (xSC iw)) = op ∧ mxValid (getS g (xSC iw)) (getS g (xSD1 iw)) (getS g (xSD1 iw + 1)) (getS g (xSD2 iw)) (getS g (xSD2 iw + 1)) (xSD2 iw % 2 == 1) = true
    ∧ mxBeyond (getS g (xSC iw)) (getS g (xSD1 iw)) (getS g (xSD1 iw + 1)) (getS g (xSD2 iw)) (getS g (xSD2 iw + 1)) = none
    ∧ o = { id := s.nextKey, slot := iw.slot, cmd := g.cmd, tok := xTOK iw, ctrl := getS g (xSC iw), a0 := getS g (xSD1 iw), a1 := getS g (xSD1 iw + 1),
            b0 := getS g (xSD2 iw), b1 := getS g (xSD2 iw + 1), origin := getS g (xSD2 iw),
            reuseA := op == 1 && reuseMatch (getCore s iw.core) true (getS g (xSD1 iw)) (getS g (xSD1 iw + 1)),
            reuseB := op == 1 && reuseMatch (getCore s iw.core) false (getS g (xSD2 iw)) (getS g (xSD2 iw + 1)),
            dataA := 0, dataB := 0, pzA := false, pzB := false, staleA := false, staleB := false, opPoison := asyPoison g iw (mxUses op iw) }
    ∧ qs = mxRanges iw.core o.ctrl o.a0 o.a1 o.b0 o.b1 o.reuseA o.reuseB
    ∧ AsyncRoom s iw g (getCore s iw.core).mq.length 8 qs

/-- What a fabric instruction that enters its cluster's queue leaves (R198, R201, R206, R232, R262). -/
def fabQueued (s : Dev) (iw : IWord) (g : Group) (o : FabOp) (qs : List TrkReq) : Dev :=
  let s := modCl (trkTake s iw.core o.id g.cmd qs) (coreCluster iw.core) (fun c => { c with fabQ := c.fabQ ++ [o] })
  let s := if o.poison then markPoison s g.cmd else s
  fabPoke (putGroup { s with nextKey := s.nextKey + 1 } iw (tokRaise g.next (xTOK iw))) (coreCluster iw.core)

/-- A command of an opcode in a phase acts: the module and the command's slice run, and the command has not ended (R472, R522, R693). -/
abbrev CmdRuns (s : Dev) (key opcode : Nat) (p : CmdPhase) (c : Cmd) : Prop :=
  whoaStopped s = false ∧ getCmd s key = some c ∧ dOpcode c.desc = opcode ∧ c.phase = p ∧ c.status = none ∧ frozenSlice s c.tag = false

/-- A data-mover operation of an opcode moves its data: the module and its slice run, a channel's descriptor passes its engine's checks
and is among those the engine serves, TSO mode holds it behind no older operation of its engine, and no peer module it needs has all its ports down (R249 to
R253, R355, R515, R756). -/
abbrev MoverRuns (s : Dev) (opcode : Nat) (r : OpRef) (o : MvOp) : Prop :=
  whoaStopped s = false ∧ mvOp s r = some o ∧ dOpcode o.desc = opcode ∧ frozenSlice s o.tag = false
    ∧ (∀ key, r = .chan key → chanCheck s o = none ∧ engineServes s o = true) ∧ engineBehind s r o = false ∧ mvPeersDown s o = []

/-- The command has completed: device and flash are those of `t`, and the queue stays as it was. -/
abbrev CompletesTo (c : Instr) (s t : State) : Prop := exec c s = .next { t with pending := s.pending }

/-- Firmware holds a mailbox request of an opcode, of a length the opcode has, in a stage it is served in (R616, R639, R640). -/
abbrev MailAsked (s : State) (opc : Nat) (inHalter : Bool) (lens : Nat → Prop) : Prop :=
  mbxServed s.dev opc = true ∧ lens (mbxLen s.dev) ∧ (inHalter = true ∨ stage s.dev = 2)

/-- A frame is taken on a scale-out port: Tandem is enabled, the port is UP on a hub in service, the frame is whole (R741) and keeps R742, the module is not
stopped, and a packet that is not a request is addressed to it. -/
abbrev FrameTaken (s : Dev) (port : Nat) (p : Packet) : Prop :=
  getF s fSO_CFG_EN = 1 ∧ getF s (fSO_PORT_STATE port) = 2 ∧ hubLost s (portHub port) = false ∧ p.intact = true ∧ p.fec = 0 ∧ badFrame p = false ∧ whoaStopped s = false
    ∧ (p.op = 1 ∨ p.op = 2 ∨ p.op = 4 ∨ p.dst.toNat = getF s fSO_CFG_MODULE_ID)

/-- A request of a received flow is the flow's next and is performed: its frame is taken, no packet of the flow is held and none is
acknowledged with it, the page it reaches is not being groomed, and an export entry `e` gives its source the right to all its bytes, which
translate to `l` (R747, R748, R750, R526). `d1` is the device with the request held, `d2` that after translation. -/
abbrev RxGoes (s : Dev) (port : Nat) (p : Packet) (f : RxFlow) (d1 d2 : Dev) (e : Nat) (l : List RxPart) : Prop :=
  FrameTaken s port p ∧ (countHub s (portHub port) 0xC5 (32 + p.payload.length)).tandem.rx.find? (isRx p.eng.toNat p.src.toNat p.tc.toNat) = some f
    ∧ f.held = [] ∧ f.expect = p.psn.toNat ∧ p.ack = 0
    ∧ d1 = modRx (countHub s (portHub port) 0xC5 (32 + p.payload.length)) (isRx p.eng.toNat p.src.toNat p.tc.toNat) (fun f => { f with held := f.held ++ [p] })
    ∧ rxHeld d1 p = false ∧ p.dst.toNat = getF d1 fSO_CFG_MODULE_ID ∧ expMatch d1 p = some e ∧ expRight d1 e p.op.toNat ≠ 0
    ∧ rxParts (getF d1 (fSO_EXP0_SLICE e)) (p.op != 2) (packetLen p / 512 + 2) d1
        (getF d1 (fSO_EXP1_VA e) * 65536 + (p.addr.toNat - getF d1 (fSO_EXP0_OFF e) * 65536)) 0 (packetLen p) = (d2, .inr l)

/-- The flow goes on to the next PSN after the request `p` (R748). -/
def rxNext (s : Dev) (p : Packet) : Dev :=
  modRx s (isRx p.eng.toNat p.src.toNat p.tc.toNat) (fun f => { f with expect := (f.expect + 1) % 2 ^ 32, held := f.held.filter (fun x => x.psn != p.psn) })

/-- R730: FUSE_SVN counts 64 fuses, and a bank that holds a valid bundle is never below it, so a fallback never meets a refused SVN. -/
def FirmwareSafe (q : Sec) : Prop :=
  q.fuseSvn ≤ 64 ∧ (q.bankA.valid = true → q.fuseSvn ≤ q.bankA.svn ∧ q.bankA.svn ≤ 64) ∧ (q.bankB.valid = true → q.fuseSvn ≤ q.bankB.svn ∧ q.bankB.svn ≤ 64)

/-- The commands that may change flash or fuses: power-on, the restarts, a failed boot, and the update commands of both paths. -/
def flashCommand : Instr → Bool
  | .stand _ | .refclkRestart | .saddleTimeout | .setStateEffecterStates _ _ | .trialBootFailure => true
  | .fwBegin | .fwWrite | .fwVerify | .fwActivate | .fwCommit | .fwAbort | .updateIdleExpiry => true
  | .requestUpdate _ | .updateComponent _ _ | .firmwareData _ _ | .cancelUpdate | .activateFirmware _ => true
  | _ => false

/-- The port and the BAR0 offset of a command that is one 64-bit set-up write of a register (R459); ID_SEM is none. -/
def setupTarget : Instr → Option (Nat × Nat)
  | .setupWrite p off half _ => if half = false ∧ off.toNat % 8 = 0 ∧ off.toNat ≠ offID_SEM then some (p, off.toNat) else none
  | .resume p | .whoaStop p => some (p, offOBS_WHOA_CTL)
  | .eventRingEnable p r _ => some (p, offFLT_ER_CFG r)
  | .eventRingHead p r _ => some (p, offFLT_ER_STATE r)
  | .cyclicEnable p c _ => some (p, offSLC_CYC_CFG c)
  | .retrain p l _ _ => some (p, offDL_LINK_CTL l)
  | .bayReset p b _ | .bind p b _ => some (p, offDL_BAY_CTL b)
  | .recover p f | .unlatch p f => some (p, offMT_FAR_CTL f)
  | .load p _ => some (p, offMT_BACK_CTL)
  | .inject p _ _ => some (p, offMT_INJECT)
  | .traceBufferEnable p b _ => some (p, offOBS_TRB_CFG b)
  | .tsyncStep p _ => some (p, offOBS_TSYNC_STEP)
  | .dumpGo p h _ | .resumeHeld p h _ | .abortHeld p h _ => some (p, offOBS_DUMP_CTL h)
  | .budgetWrite p _ => some (p, offPW_BUDGET)
  | .rampWrite p _ => some (p, offPW_RAMP)
  | .deviceReset p => some (p, offSU_RESET)
  | .start p n | .hobble p n _ _ | .sliceReset p n | .remove p n | .tlbFlush p n => some (p, offSLC_CTL n)
  | .regionLeave p n _ => some (p, offSLC_RGNS n)
  | .pageGroom p _ => some (p, offSLC_PG_CMD)
  | .dlogSync p n _ => some (p, offSLC_DLOG_CTL n)
  | .flush p _ _ | .invalidate p _ _ | .flushInv p _ _ => some (p, offCD_RANGE_CMD)
  | .oredArm p n _ => some (p, offCD_SLICE_CFG n)
  | .modeWrite p _ => some (p, offCD_ORDER)
  | .soEnable p _ => some (p, offSO_CFG)
  | .peerReset p _ => some (p, offSO_PEER_RESET)
  | .sqEnable p c r _ | .sqDisable p c r _ => some (p, offCH_SQ_CFG c r)
  | .cqEnable p c r _ | .cqDisable p c r _ => some (p, offCH_CQ_CFG c r)
  | .channelReset p c => some (p, offCH_RESET c)
  | _ => none

/-- What an arithmetic instruction of group `g` leaves alone: flash, queue, registers of the device, memory, channels, ports, peers and every
other group, and of its own group all but the register files; the group goes on by one word. -/
def ArithKeeps (s t : State) (iw : IWord) (g h : Group) : Prop :=
  t.sec = s.sec ∧ t.pending = s.pending ∧ t.dev.regs = s.dev.regs ∧ t.dev.ms = s.dev.ms ∧ t.dev.clusters = s.dev.clusters ∧ t.dev.chans = s.dev.chans
    ∧ t.dev.ports = s.dev.ports ∧ t.dev.tandem = s.dev.tandem ∧ t.dev.flt = s.dev.flt ∧ t.dev.out = s.dev.out
    ∧ (∀ core slot, ¬(core = iw.core.val ∧ slot = iw.slot.val) → getGroup t.dev core slot = getGroup s.dev core slot)
    ∧ (∀ core, (getCore t.dev core).lm = (getCore s.dev core).lm ∧ (getCore t.dev core).sb = (getCore s.dev core).sb)
    ∧ getGroup t.dev iw.core iw.slot = some h ∧ h.pc = g.pc + 8
    ∧ { h with pc := g.pc, v := g.v, vp := g.vp, sr := g.sr, sp := g.sp, p := g.p, pp := g.pp } = g

/-- The group's vector registers are those of `g`. -/
abbrev VectorsKept (g h : Group) : Prop := h.v = g.v ∧ h.vp = g.vp
/-- The group's scalar registers are those of `g`. -/
abbrev ScalarsKept (g h : Group) : Prop := h.sr = g.sr ∧ h.sp = g.sp
/-- The group's predicate registers are those of `g`. -/
abbrev PredicatesKept (g h : Group) : Prop := h.p = g.p ∧ h.pp = g.pp

/-- An arithmetic instruction `c` that is legal changes scalar register `d iw` alone, and that only where it acts (R154). -/
abbrev ScalarFrame (c : IWord → Instr) (vs ss : IWord → List Nat) (op : Dev → Group → IWord → Option ArithRes) (d : IWord → Nat) : Prop :=
  ∀ (s t : State) (iw : IWord) (g : Group), Issues s.dev iw (vs iw) (ss iw) g → (op s.dev g iw).isSome = true → exec (c iw) s = .next t →
    ∃ h, ArithKeeps s t iw g h ∧ VectorsKept g h ∧ PredicatesKept g h
      ∧ (∀ n, n ≠ d iw → getS h n = getS g n ∧ getSP h n = getSP g n) ∧ (execMask g iw = 0 → ScalarsKept g h)

/-- An arithmetic instruction `c` that is legal changes the `n` vector registers from VD alone, in the lanes where it takes effect (R144);
vz is never written (R147). -/
abbrev VectorFrame (c : IWord → Instr) (vs : IWord → List Nat) (op : Dev → Group → IWord → Option ArithRes) (n : Nat) : Prop :=
  ∀ (s t : State) (iw : IWord) (g : Group), Issues s.dev iw (vs iw) [] g → (op s.dev g iw).isSome = true → exec (c iw) s = .next t →
    ∃ h, ArithKeeps s t iw g h ∧ ScalarsKept g h ∧ PredicatesKept g h
      ∧ (∀ r l, r < 256 → l < 32 → (¬(iVD iw ≤ r ∧ r < iVD iw + n) ∨ r = 255 ∨ (execMask g iw).getLsbD l = false) → getV h r l = getV g r l ∧ getVP h r l = getVP g r l)

/-- A compare or predicate instruction `c` that is legal changes predicate VD[2:0] alone, in the lanes where it takes effect; p7 is never
written (R147). -/
abbrev PredicateFrame (c : IWord → Instr) (vs : IWord → List Nat) (op : Dev → Group → IWord → Option ArithRes) : Prop :=
  ∀ (s t : State) (iw : IWord) (g : Group), Issues s.dev iw (vs iw) [] g → (op s.dev g iw).isSome = true → exec (c iw) s = .next t →
    ∃ h, ArithKeeps s t iw g h ∧ VectorsKept g h ∧ ScalarsKept g h
      ∧ (∀ n l, n < 8 → l < 32 → (n ≠ iVD iw % 8 ∨ n = 7 ∨ (execMask g iw).getLsbD l = false) → (getPmask h n).getLsbD l = (getPmask g n).getLsbD l ∧ (getPPmask h n).getLsbD l = (getPPmask g n).getLsbD l)

end Sys2Proof.Machine
end

