-- ==== Sys2Proof/Certificates/Slice0/Obligations.lean ====
section
/-! DEFINITION. Sys2Proof/Certificates/Slice0/Obligations.lean: the statements for the provers. First the rules of the whole machine, of set-up
writes, cores and memory; then, family by family, where each command completes and the exact state it leaves. -/

open Sys2Proof Sys2Proof.Machine

/-! ## The machine: steps, reset, firmware -/

/-- A step runs the command at the front of the queue on the device with the queue's rest. -/
def Obligations.StepRunsFrontCommand : Prop :=
  ∀ (c : Instr) (rest : List Instr) (s : State), s.pending = c :: rest → step s = exec c { s with pending := rest }

/-- The model's choice (logs 1 and 15): on an empty queue the block idles and model time advances by 1 ns; where a domain drop or a task of a
slice is in progress the step completes it, with its records: DROP_ACTIVE is cleared first (R313), then the tasks end in order (R519, R521,
R525). Where nothing is in progress, time alone passes. -/
def Obligations.EmptyQueueIdles : Prop :=
  ∀ s : State, s.pending = [] →
    step s = .next { s with dev := s.dev.todo.foldl endTask (passTime { s.dev with todo := [] }) }
    ∧ (s.dev.ms.drop = none → s.dev.todo = [] → step s = .next { s with dev := { s.dev with now := s.dev.now + 1 } })
    ∧ (∀ r, s.dev.ms.drop = some r → s.dev.todo = [] →
        step s = .next { s with dev := dropRecords (modMs (setF { s.dev with now := s.dev.now + 1 } fCD_STATUS_DROP_ACTIVE 0) (fun m => { m with drop := none })) r })
    ∧ (∀ (n : Fin 16), s.dev.ms.drop = none → s.dev.todo = [.stop n] → slState s.dev n = 4 →
        ∃ t, step s = .next t ∧ slState t.dev n = 1 ∧ t.dev.todo = [] ∧ ∀ o, o ≠ offSLC_CTL n → reg t.dev o = reg s.dev o)

/-- Every command answers a next state, leaves the queue as it was and, unless it is one of the firmware and power commands of
`flashCommand`, leaves flash and fuses as they were. -/
def Obligations.QueueAndFlashKept : Prop :=
  ∀ (c : Instr) (s : State), ∃ t, exec c s = .next t ∧ t.pending = s.pending ∧ (flashCommand c = false → t.sec = s.sec)

/-- The state after power is applied (R22, R458, R636, R675): nothing is queued, the time base reads 0, STAGE reads STAND, no port holds the
lease, no register differs from its reset value, memory lists nothing and is in its canonical form. -/
def Obligations.ResetState : Prop :=
  State.reset.pending = [] ∧ timeBase State.reset.dev = 0 ∧ stage State.reset.dev = 0 ∧ getF State.reset.dev fID_SEM_OWNER = 0
    ∧ (∀ off, reg State.reset.dev off = regReset off) ∧ reg State.reset.dev (offCH_CFG 3) = 0x08004E20
    ∧ State.reset.dev.ms.tier = [] ∧ State.reset.dev.ms.spad = [] ∧ Memory.wf State.reset.dev.ms = true

/-- Flash and fuses as shipped are safe: the model's banks of log 32. -/
def Obligations.FirmwareSafeAtReset : Prop := FirmwareSafe State.reset.sec

/-- R730: every step keeps the fuses within 64, and no bank that holds a valid bundle below FUSE_SVN: a fallback never meets a refused SVN. -/
def Obligations.FirmwareSafeKept : Prop := ∀ s t : State, FirmwareSafe s.sec → step s = .next t → FirmwareSafe t.sec

/-- R730: FUSE_SVN never falls and rises only by COMMIT. COMMIT acts on the TRIAL bank, or on the running one; it is accepted when both banks
are valid and neither SVN is below the new value, raises FUSE_SVN to that value, makes the bank ACTIVE, clears TRIAL and blows the slot-revoke
fuses of the bundle's REVOKE field, its own images' slots left; refused, it changes nothing but the mailbox. In a safe state (FirmwareSafeKept) a
fallback to a valid bank never meets a refused SVN. -/
def Obligations.FuseVersionRisesByCommit : Prop :=
  (∀ s t : State, step s = .next t → s.sec.fuseSvn ≤ t.sec.fuseSvn ∧ (t.sec.fuseSvn ≠ s.sec.fuseSvn → s.pending.head? = some .fwCommit))
  ∧ (∀ (s t : State) (b : Nat) (x : Bank), MailAsked s 0x0035 true (· = 0) → b = (if s.sec.trial = 0 then s.sec.run else s.sec.trial) → x = getBank s.sec b →
    exec .fwCommit s = .next t →
      (s.sec.bankA.valid = true → s.sec.bankB.valid = true → x.svn ≤ s.sec.bankA.svn → x.svn ≤ s.sec.bankB.svn →
        t.sec.fuseSvn = max s.sec.fuseSvn x.svn ∧ t.sec.active = b ∧ t.sec.trial = 0
          ∧ (∀ k, k < 4 → (t.sec.slotsRevoked.testBit k = true ↔ s.sec.slotsRevoked.testBit k = true ∨ (x.revoke.testBit k = true ∧ k ≠ x.bridleSlot ∧ k ≠ x.seqSlot)))
          ∧ t.sec.bankA = s.sec.bankA ∧ t.sec.bankB = s.sec.bankB ∧ t.dev.su.mbx = some { status := 0, payload := [] })
      ∧ (¬(s.sec.bankA.valid = true ∧ s.sec.bankB.valid = true ∧ x.svn ≤ s.sec.bankA.svn ∧ x.svn ≤ s.sec.bankB.svn) →
        t.sec = s.sec ∧ t.dev = { s.dev with su := { s.dev.su with mbx := some { status := 4, payload := [] } } }))
  ∧ (∀ (s : State) (b : Nat), FirmwareSafe s.sec → b = 1 ∨ b = 2 → (getBank s.sec b).valid = true → s.sec.fuseSvn ≤ 64 ∧ s.sec.fuseSvn ≤ (getBank s.sec b).svn)

/-- R54, R56: a restart of the management plane, down or up, resets no part of the data plane or the control plane: of the registers it changes
SU_FW and the pins alone, and cores, clusters, commands, channels, memory, ports and peers stay as they were. -/
def Obligations.BridleRestartLeavesOtherPlanes : Prop :=
  ∀ (s t : State) (up : Bool), exec (.managementPlaneRestart up) s = .next t →
    t.sec = s.sec ∧ t.pending = s.pending ∧ t.dev.now = s.dev.now ∧ t.dev.cores = s.dev.cores ∧ t.dev.clusters = s.dev.clusters ∧ t.dev.cmds = s.dev.cmds
      ∧ t.dev.chans = s.dev.chans ∧ t.dev.ms = s.dev.ms ∧ t.dev.ports = s.dev.ports ∧ t.dev.tandem = s.dev.tandem ∧ t.dev.peerOut = s.dev.peerOut
      ∧ t.dev.rgn = s.dev.rgn ∧ t.dev.pgq = s.dev.pgq ∧ t.dev.saved = s.dev.saved ∧ t.dev.flt = s.dev.flt ∧ t.dev.pw = s.dev.pw ∧ t.dev.su = s.dev.su
      ∧ t.dev.obs = s.dev.obs ∧ t.dev.bays = s.dev.bays ∧ t.dev.leaseEnd = s.dev.leaseEnd
      ∧ ∀ off, off ≠ offSU_FW → off ≠ offSU_PINS → reg t.dev off = reg s.dev off

/-! ## Set-up writes -/

/-- R11: a set-up write of a port without the lease, by whatever command, is dropped: the port's count in ID_DROP rises, saturating, and the
offset is recorded; every other register and every other part of the device, the error records among them, stays as it was. So is one made
as two halves, when its upper half arrives. -/
def Obligations.UnleasedWritesDropped : Prop :=
  (∀ (c : Instr) (s : State) (port off : Nat), setupTarget c = some (port, off) → bar0Open s.dev port = true → (getPort s.dev port).held = none →
    regAt s.dev off = true → holdsLease s.dev port = false →
      ∃ d, Completes c s d ∧ { d with regs := s.dev.regs, ms := { d.ms with blocked := s.dev.ms.blocked } } = s.dev ∧ (∀ o, o ≠ offID_DROP → reg d o = reg s.dev o)
        ∧ getF d fID_DROP_DROPS_A = (if port = 0 then min (getF s.dev fID_DROP_DROPS_A + 1) 0xFFFF else getF s.dev fID_DROP_DROPS_A)
        ∧ getF d fID_DROP_DROPS_B = (if port = 1 then min (getF s.dev fID_DROP_DROPS_B + 1) 0xFFFF else getF s.dev fID_DROP_DROPS_B)
        ∧ getF d fID_DROP_LAST_OFF = off % 2 ^ 26)
  ∧ (∀ (s : State) (port : Fin 2) (off : BitVec 26) (data : Word) (h : HeldHalf), bar0Open s.dev port = true → (getPort s.dev port).held = some h →
    off.toNat % 8 = 4 → h.off = off.toNat - 4 → off.toNat - 4 ≠ offID_SEM → regAt s.dev (off.toNat - 4) = true → holdsLease s.dev port = false →
      CompletesM (.setupWrite port off true data) s (dropWrite (modPort s.dev port (fun p => { p with held := none })) port (off.toNat - 4)))

/-- R26: a write of a reserved encoding leaves its field as it was, in whatever register the field lies; and so it does through a set-up write
of a register of the PW_ block. -/
def Obligations.ReservedEncodingsIgnored : Prop :=
  (∀ (s : Dev) (off : Nat) (r : RegSpec) (f : FieldSpec) (val : Word), regSpecAt off = some r → f ∈ r.fields → (f.acc = .rw ∨ f.acc = .rwl) →
    legalEnc f (fld val f.msb f.lsb) = false → fld (reg (writeReg s off val) off) f.msb f.lsb = fld (reg s off) f.msb f.lsb)
  ∧ (∀ (s : State) (port : Fin 2) (off : BitVec 26) (r : RegSpec) (f : FieldSpec) (val : Word), SetupTaken s.dev port off.toNat → off.toNat % 8 = 0 →
    off.toNat / 0x100000 = 5 → off.toNat ≠ offPW_BUDGET → off.toNat ≠ offPW_RAMP → regSpecAt off.toNat = some r → f ∈ r.fields → (f.acc = .rw ∨ f.acc = .rwl) →
    legalEnc f (fld val f.msb f.lsb) = false →
      ∃ d, Completes (.setupWrite port off false val) s d ∧ fld (reg d off.toNat) f.msb f.lsb = fld (reg s.dev off.toNat) f.msb f.lsb)

/-- R29: a BAR0 access of another size or alignment: a read returns zeros, a write has no effect, and each is logged as a set-up access error. -/
def Obligations.OddAccessesLogged : Prop :=
  ∀ (s : State) (port : Fin 2) (off : BitVec 26) (len : Fin 4097), bar0Open s.dev port = true → (getPort s.dev port).held = none →
    ¬((len.val = 4 ∨ len.val = 8) ∧ off.toNat % len.val = 0) →
      Completes (.bar0AccessError port off len true) s (setupError s.dev port off.toNat)
      ∧ Completes (.bar0AccessError port off len false) s (emit (setupError s.dev port off.toNat) (.readData port (List.replicate len.val 0) false))
      ∧ (off.toNat % 8 ≠ 0 → ∀ data, CompletesM (.setupWrite port off false data) s (setupError s.dev port off.toNat))

/-- R804, of submission and completion rings: while ENABLE is 1, a write that leaves it 1 changes nothing; one that clears it acts on ENABLE alone,
which ends the ring's state; and either is logged where it would change another field. -/
def Obligations.EnabledRingsHeld : Prop :=
  ∀ (s : State) (port : Fin 2) (chan : Fin 16) (ring : Fin 64) (data : Word) (d : Dev),
    (SetupTaken s.dev port (offCH_SQ_CFG chan ring) → getF s.dev (fCH_SQ_CFG_ENABLE chan ring) = 1 →
      (d = (if othersChange s.dev (offCH_SQ_CFG chan ring) (data ||| 1) then setupError s.dev port (offCH_SQ_CFG chan ring) else s.dev) →
        Completes (.sqEnable port chan ring data) s d)
      ∧ (d = (if othersChange s.dev (offCH_SQ_CFG chan ring) (putFld data 0 0 0) then setupError s.dev port (offCH_SQ_CFG chan ring) else s.dev) →
        Completes (.sqDisable port chan ring data) s
          (setF (setF (setF (modCh d chan (fun ch => { ch with reads := ch.reads.filter (fun r => r.ring != ring.val) })) (fCH_SQ_CFG_ENABLE chan ring) 0) (fCH_SQ_STATE_STATE chan ring) 0) (fCH_SQ_STATE_CAUSE chan ring) 0)))
    ∧ (SetupTaken s.dev port (offCH_CQ_CFG chan ring) → getF s.dev (fCH_CQ_CFG_ENABLE chan ring) = 1 → cqNamed s.dev chan ring = false →
      (d = (if othersChange s.dev (offCH_CQ_CFG chan ring) (data ||| 1) then setupError s.dev port (offCH_CQ_CFG chan ring) else s.dev) →
        Completes (.cqEnable port chan ring data) s d))

/-- R518: while a slice is neither FREE nor STOPPED, a write of SLC_n_RGN, SLC_n_CHAN, SLC_n_PASIDk, SLC_n_PTBASE or SLC_n_CTXTAB is ignored and
logged, and a write of SLC_n_CFG that would change PIN_KIB leaves it and is logged. -/
def Obligations.SliceRegistersHeld : Prop :=
  ∀ (s : State) (port : Fin 2) (n : Fin 16) (off : BitVec 26) (data : Word), SetupTaken s.dev port off.toNat → 2 ≤ getF s.dev (fSLC_CTL_STATE n) →
    ((off.toNat = offSLC_RGNS n ∨ off.toNat = offSLC_CHAN n ∨ off.toNat = offSLC_PTBASE n ∨ off.toNat = offSLC_CTXTAB n ∨ ∃ k : Fin 8, off.toNat = offSLC_PASID n k) →
      CompletesM (.setupWrite port off false data) s (setupError s.dev port off.toNat))
    ∧ (off.toNat = offSLC_CFG n → fld data 44 32 ≠ getF s.dev (fSLC_CFG_PIN_KIB n) →
      CompletesM (.setupWrite port off false data) s (writeRegBy (setupError s.dev port off.toNat) off.toNat data (fun f => f.lsb != 32)))

/-! ## The cores -/

/-- R152, R170, R171, R206: an instruction of a group that may not issue changes nothing yet, whatever it is; so does an arithmetic one that names a
register with an older write pending. A word fetched with poison raises INSTRUCTION_POISON (0x0B), one whose opcode the map does not list
the illegal-instruction exception (0x01), and one that carries another row's opcode is that row's. -/
def Obligations.WaitingInstructionsChangeNothing : Prop :=
  (∀ (c : IWord → Instr) (s : State) (iw : IWord),
    c ∈ [Instr.nop, .bra, .split, .join, .loop, .breakI, .exit, .tokenWait, .trap, .salu, .scmp, .salui, .scmpi, .mov, .movi, .movhi, .movsr, .p2s, .vread, .valu, .valu64, .valui,
      .falu, .falui, .dalu, .halu, .cvt, .cvtd, .cvt2d, .fcmp, .icmp, .dcmp, .sel, .plog, .shfl, .bcast, .vote, .fenceL, .fenceS, .fenceLs, .bar,
      .mma, .aload, .drain, .fload, .fswap, .frun] →
    (mayIssue s.dev iw = none → Completes (c iw) s s.dev)
    ∧ (∀ g, mayIssue s.dev iw = some g →
      (iw.poison = true → Completes (c iw) s (raiseExc s.dev iw.core iw.slot 0x0B))
      ∧ (∀ b, iw.poison = false → iw.opcode = some b → Completes (c iw) s (if opListed b then s.dev else raiseExc s.dev iw.core iw.slot 0x01))))
  ∧ (∀ (c : IWord → Instr) (s : State) (iw : IWord), c ∈ [Instr.ld, .st, .lds, .sts, .atom, .ldr, .stc, .dma] →
    (mayIssue s.dev iw = none → CompletesM (c iw) s s.dev)
    ∧ (∀ g, mayIssue s.dev iw = some g →
      (iw.poison = true → CompletesM (c iw) s (raiseExc s.dev iw.core iw.slot 0x0B))
      ∧ (∀ b, iw.poison = false → iw.opcode = some b → CompletesM (c iw) s (if opListed b then s.dev else raiseExc s.dev iw.core iw.slot 0x01))))
  ∧ (∀ (s : State) (iw : IWord) (g : Group), mayIssue s.dev iw = some g → iw.poison = false → iw.opcode = none →
    (busy g [] [sSD iw, sSA iw, sSB iw] = true → Completes (.salu iw) s s.dev ∧ Completes (.scmp iw) s s.dev)
    ∧ (busy g (usesVR iw 1 1 1 1) [] = true → Completes (.valu iw) s s.dev ∧ Completes (.falu iw) s s.dev ∧ Completes (.cvt iw) s s.dev)
    ∧ (busy g (usesVR iw 2 2 2 2) [] = true → Completes (.dalu iw) s s.dev))

/-- R154: where its predicate is true in no active lane, a legal scalar-slot or asynchronous instruction has no effect but that its group goes on:
control, fences, scalar loads and stores, matrix, DMA and fabric instructions. (The scalar arithmetic ones: `ScalarArithmeticFrame`.) -/
def Obligations.GuardedOffDoesNothing : Prop :=
  ∀ (s : State) (iw : IWord) (g : Group), execMask g iw = 0 →
    (Issues s.dev iw [] [] g → ctlLegal iw false false = true →
      Completes (.join iw) s (countIssue (skip s.dev iw g) iw 4 g) ∧ Completes (.exit iw) s (countIssue (skip s.dev iw g) iw 4 g)
        ∧ Completes (.trap iw) s (countIssue (skip s.dev iw g) iw 4 g))
    ∧ (Issues s.dev iw [] [] g → ctlLegal iw true false = true → Completes (.loop iw) s (countIssue (skip s.dev iw g) iw 4 g))
    ∧ (Issues s.dev iw [] [] g → ctlLegal iw false true = true → cT2 iw < 2 ^ 16 → Completes (.tokenWait iw) s (countIssue (skip s.dev iw g) iw 4 g))
    ∧ (Issues s.dev iw [] [] g →
      (fenceLegal iw 1 = true → Completes (.fenceL iw) s (countIssue (skip s.dev iw g) iw 2 g))
      ∧ (fenceLegal iw 2 = true → Completes (.fenceS iw) s (countIssue (skip s.dev iw g) iw 2 g))
      ∧ (fenceLegal iw 3 = true → Completes (.fenceLs iw) s (countIssue (skip s.dev iw g) iw 2 g))
      ∧ (barLegal s.dev iw g = true → Completes (.bar iw) s (countIssue (skip s.dev iw g) iw 2 g)))
    ∧ (Issues s.dev iw [] [iVD iw, mSB iw] g → ldsLegal iw = true →
      (scopeLegal (mORD iw) (mSCOPE iw) true = true → mL1H iw < 3 → CompletesM (.lds iw) s (countIssue (skip s.dev iw g) iw 4 g))
      ∧ (scopeLegal (mORD iw) (mSCOPE iw) false = true → mL1H iw = 0 → mDEAD iw = 0 → CompletesM (.sts iw) s (countIssue (skip s.dev iw g) iw 4 g)))
    ∧ (xRES iw = 0 → xSD1 iw % 2 = 0 →
      (Issues s.dev iw [] (mxUses 1 iw) g → Completes (.mma iw) s (countIssue (skip s.dev iw g) iw 3 g))
      ∧ (Issues s.dev iw [] (mxUses 2 iw) g → Completes (.aload iw) s (countIssue (skip s.dev iw g) iw 3 g))
      ∧ (Issues s.dev iw [] (mxUses 3 iw) g → Completes (.drain iw) s (countIssue (skip s.dev iw g) iw 3 g)))
    ∧ (Issues s.dev iw [] ((List.range 8).map (fun i => xSC iw + i)) g → xRES iw = 0 → xSD1 iw = 0 → xSD2 iw = 0 → xSC iw % 8 = 0 →
      CompletesM (.dma iw) s (countIssue (skip s.dev iw g) iw 3 g))
    ∧ (Issues s.dev iw [] [xSD1 iw, xSD1 iw + 1] g → xRES iw = 0 → xSC iw = 0 → xSD2 iw = 0 → xSD1 iw % 2 = 0 → Completes (.fload iw) s (countIssue (skip s.dev iw g) iw 3 g))
    ∧ (Issues s.dev iw [] [] g → xRES iw = 0 → xSC iw = 0 → xSD1 iw = 0 → xSD2 iw = 0 → Completes (.fswap iw) s (countIssue (skip s.dev iw g) iw 3 g))
    ∧ (Issues s.dev iw [] [xSC iw, xSD1 iw, xSD2 iw] g → xRES iw = 0 → Completes (.frun iw) s (countIssue (skip s.dev iw g) iw 3 g))

/-- The frame of the scalar arithmetic instructions and VOTE: SD alone changes, only where the instruction acts, and nothing outside the group's
registers but its command's marks and the counters. -/
def Obligations.ScalarArithmeticFrame : Prop :=
  ScalarFrame .salu (fun _ => []) (fun iw => [sSD iw, sSA iw, sSB iw]) (fun _ g iw => opSalu g iw) sSD
  ∧ ScalarFrame .scmp (fun _ => []) (fun iw => [sSD iw, sSA iw, sSB iw]) (fun _ g iw => opScmp g iw) sSD
  ∧ ScalarFrame .salui (fun _ => []) (fun iw => [sSD iw, sSA iw]) (fun _ g iw => opSalui g iw) sSD
  ∧ ScalarFrame .scmpi (fun _ => []) (fun iw => [sSD iw, sSA iw]) (fun _ g iw => opScmpi g iw) sSD
  ∧ ScalarFrame .mov (fun _ => []) (fun iw => [sSD iw, sSA iw]) (fun _ g iw => opMov g iw) sSD
  ∧ ScalarFrame .movi (fun _ => []) (fun iw => [sSD iw]) (fun _ g iw => opMovi g iw) sSD
  ∧ ScalarFrame .movhi (fun _ => []) (fun iw => [sSD iw, sSA iw]) (fun _ g iw => opMovhi g iw) sSD
  ∧ ScalarFrame .movsr (fun _ => []) (fun iw => [sSD iw]) (fun s g iw => opMovsr (timeBase s) (flagsOf s iw) g iw) sSD
  ∧ ScalarFrame .p2s (fun _ => []) (fun iw => [sSD iw]) (fun _ g iw => opP2s g iw) sSD
  ∧ ScalarFrame .vread (fun iw => [sMOD iw % 256]) (fun iw => [sSD iw]) (fun _ g iw => opVread g iw) sSD
  ∧ ScalarFrame .vote (fun _ => []) (fun iw => [iVD iw % 64]) (fun _ g iw => opVote g iw) iVD

/-- The frame of the vector arithmetic, conversion and lane instructions and of the compares: VD alone changes, or predicate VD[2:0], and in the
lanes where the instruction takes effect (R144, R147). -/
def Obligations.VectorArithmeticFrame : Prop :=
  VectorFrame .valu (fun iw => usesVR iw 1 1 1 1) (fun _ g iw => opValu g iw) 1
  ∧ VectorFrame .valu64 (fun iw => usesVR iw 2 2 2 0) (fun _ g iw => opValu64 g iw) 2
  ∧ VectorFrame .valui (fun iw => usesVR iw 1 1 0 0) (fun _ g iw => opValui g iw) 1
  ∧ VectorFrame .falu (fun iw => usesVR iw 1 1 1 1) (fun _ g iw => opFalu g iw) 1
  ∧ VectorFrame .falui (fun iw => usesVR iw 1 1 0 0) (fun _ g iw => opFalui g iw) 1
  ∧ VectorFrame .dalu (fun iw => usesVR iw 2 2 2 2) (fun _ g iw => opDalu g iw) 2
  ∧ VectorFrame .halu (fun iw => usesVR iw 1 1 1 1) (fun _ g iw => opHalu g iw) 1
  ∧ VectorFrame .cvt (fun iw => usesVR iw 1 1 1 1) (fun s g iw => opCvt (seedOf s iw) g iw) 1
  ∧ VectorFrame .cvtd (fun iw => usesVR iw 1 2 1 1) (fun s g iw => opCvtd (seedOf s iw) g iw) 1
  ∧ VectorFrame .cvt2d (fun iw => usesVR iw 2 1 0 0) (fun _ g iw => opCvt2d g iw) 2
  ∧ VectorFrame .sel (fun iw => usesVR iw 1 1 1 0) (fun _ g iw => opSel g iw) 1
  ∧ VectorFrame .shfl (fun iw => usesVR iw 1 1 1 0) (fun _ g iw => opShfl g iw) 1
  ∧ VectorFrame .bcast (fun iw => usesVR iw 1 1 0 0) (fun _ g iw => opBcast g iw) 1
  ∧ PredicateFrame .fcmp (fun iw => usesVR iw 0 1 1 0) (fun _ g iw => opFcmp g iw)
  ∧ PredicateFrame .icmp (fun iw => usesVR iw 0 1 1 0) (fun _ g iw => opIcmp g iw)
  ∧ PredicateFrame .dcmp (fun iw => usesVR iw 0 2 2 0) (fun _ g iw => opDcmp g iw)
  ∧ PredicateFrame .plog (fun _ => []) (fun _ g iw => opPlog g iw)

/-- R802, SALU and VALU: each function code gives the result of its operation on 64-bit scalars, and on 32-bit lanes, in two's complement. -/
def Obligations.IntegerResults : Prop :=
  (∀ (s : State) (iw : IWord) (g : Group) (a b w : Word), Issues s.dev iw [] [sSD iw, sSA iw, sSB iw] g → execOnce g iw = true → sSC iw = 0 →
    a = getS g (sSA iw) → b = getS g (sSB iw) → getSP g (sSA iw) = false → getSP g (sSB iw) = false → predPoisonAny g iw = false →
    ((sMOD iw = 0 ∧ w = a + b) ∨ (sMOD iw = 1 ∧ w = a - b) ∨ (sMOD iw = 2 ∧ w = a * b) ∨ (sMOD iw = 3 ∧ w = BitVec.ofInt 64 (a.toInt * b.toInt / 2 ^ 64))
      ∨ (sMOD iw = 19 ∧ w = BitVec.ofNat 64 (a.toNat * b.toNat / 2 ^ 64)) ∨ (sMOD iw = 4 ∧ w = a <<< (b.toNat % 64)) ∨ (sMOD iw = 5 ∧ w = a >>> (b.toNat % 64))
      ∨ (sMOD iw = 6 ∧ w = a.sshiftRight (b.toNat % 64)) ∨ (sMOD iw = 7 ∧ w = a &&& b) ∨ (sMOD iw = 8 ∧ w = a ||| b) ∨ (sMOD iw = 9 ∧ w = a ^^^ b)
      ∨ (sMOD iw = 10 ∧ w = if a.toInt ≤ b.toInt then a else b) ∨ (sMOD iw = 11 ∧ w = if a.toInt ≤ b.toInt then b else a)
      ∨ (sMOD iw = 26 ∧ w = if a.toNat ≤ b.toNat then a else b) ∨ (sMOD iw = 27 ∧ w = if a.toNat ≤ b.toNat then b else a)) →
      Completes (.salu iw) s (countIssue (putGroup s.dev iw (setS g (sSD iw) w false).next) iw 4 g))
  ∧ (∀ (s t : State) (iw : IWord) (g : Group), Issues s.dev iw (usesVR iw 1 1 1 1) [] g → iTYP iw = 0 → iRND iw = 0 → iSAT iw = 0 → iVC iw = 0 → iMOD iw ≤ 12 →
    legV g (iVD iw) = true → legV g (iVA iw) = true → legV g (iVB iw) = true → legV g 0 = true → iVD iw ≠ 255 → exec (.valu iw) s = .next t →
      ∃ h, getGroup t.dev iw.core iw.slot = some h ∧ ∀ (l : Nat) (a b w : BitVec 32), l < 32 → (execMask g iw).getLsbD l = true → a = getV g (iVA iw) l → b = getV g (iVB iw) l →
        w = getV h (iVD iw) l →
          (iMOD iw = 0 → w = a + b) ∧ (iMOD iw = 1 → w = a - b) ∧ (iMOD iw = 2 → w = a * b) ∧ (iMOD iw = 3 → w = BitVec.ofInt 32 (a.toInt * b.toInt / 2 ^ 32))
          ∧ (iMOD iw = 4 → w = a * b + getV g 0 l) ∧ (iMOD iw = 5 → w = a <<< (b.toNat % 32)) ∧ (iMOD iw = 6 → w = a >>> (b.toNat % 32))
          ∧ (iMOD iw = 7 → w = a.sshiftRight (b.toNat % 32)) ∧ (iMOD iw = 8 → w = a &&& b) ∧ (iMOD iw = 9 → w = a ||| b) ∧ (iMOD iw = 10 → w = a ^^^ b)
          ∧ (iMOD iw = 11 → w = if a.toInt ≤ b.toInt then a else b) ∧ (iMOD iw = 12 → w = if a.toInt ≤ b.toInt then b else a))

/-- R94: a NaN converts to the canonical NaN of a floating-point target that has one, with no flag; to E2M1 or an integer format it gives 0 and
sets NV: in every conversion, and lane by lane in CVT. -/
def Obligations.NaNConverts : Prop :=
  (∀ (src dst : NumFmt) (mode : Rnd) (sat : Bool) (r bits : Nat), decodeVal src bits = .nan →
    convertBits src dst mode sat r bits =
      match dst with
      | .fp32 => (0x7FC00000, 0) | .bf16 => (0x7FC0, 0) | .fp16 => (0x7E00, 0) | .e4m3 => (0x7F, 0) | .e5m2 => (0x7E, 0) | .fp64 => (0x7FF8000000000000, 0)
      | .e2m1 | .int32 | .int8 | .int4 | .t2 => (0, flagNV))
  ∧ (∀ (s t : State) (iw : IWord) (g : Group) (src dst : NumFmt), Issues s.dev iw (usesVR iw 1 1 1 1) [] g → fmtOfCode (iMOD iw % 16) = some src → fmtOfCode (iTYP iw) = some dst →
    (opCvt (seedOf s.dev iw) g iw).isSome = true → iVD iw ≠ 255 → exec (.cvt iw) s = .next t →
      ∃ h, getGroup t.dev iw.core iw.slot = some h ∧ ∀ l, l < 32 → (execMask g iw).getLsbD l = true → decodeVal src ((getV g (iVA iw) l).toNat % 2 ^ fmtBits src) = .nan →
        (getV h (iVD iw) l).toNat = match dst with
          | .fp32 => 0x7FC00000 | .bf16 => 0x7FC0 | .fp16 => 0x7E00 | .e4m3 => 0x7F | .e5m2 => 0x7E | _ => 0)

/-- R85: the split of a finite FP32 operand takes the low 12 bits of its 24-bit significand from the rest, exactly: hi + lo is the operand, at
the operand's sign; a subnormal operand may have hi zero and lo not. -/
def Obligations.SplitIsExact : Prop :=
  (∀ (bits : Nat) (sg : Bool) (m : Nat) (q : Int), decodeVal .fp32 bits = .fin sg m q →
    m < 2 ^ 24 ∧ split32 (.fin sg m q) = ((sg, m >>> 12, q + 12), (sg, m &&& 0xFFF, q)) ∧ (m >>> 12) * 2 ^ 12 + (m &&& 0xFFF) = m)
  ∧ (∃ (bits m : Nat) (q : Int), decodeVal .fp32 bits = .fin false m q ∧ (split32 (.fin false m q)).1.2.1 = 0 ∧ (split32 (.fin false m q)).2.2.1 ≠ 0)

/-- R158: JOIN makes the live lanes of the topmost entry that has any the active ones; SPLIT parts the active lanes between what stays active and
what it pushes, losing none; BREAK that empties the active mask goes to an entry with live lanes: no pop makes a dead lane active, none leaves
the group with no active lane. -/
def Obligations.PopsGiveLiveLanes : Prop :=
  (∀ (s : State) (iw : IWord) (g : Group) (act : BitVec 32) (pc : Word) (st : List StackEntry), ControlRuns s.dev iw false false g → execOnce g iw = true →
    popNext g.live g.stack = some (act, pc, st) →
      Completes (.join iw) s (countIssue (putGroup s.dev iw { g with act := act, pc := pc, stack := st }) iw 4 g)
        ∧ act ≠ 0 ∧ act &&& ~~~g.live = 0 ∧ st.length < g.stack.length ∧ ∃ dropped e, g.stack = dropped ++ e :: st ∧ act = e.mask &&& g.live ∧ pc = e.pc ∧ ∀ x ∈ dropped, x.mask &&& g.live = 0)
  ∧ (∀ (s t : State) (iw : IWord) (g : Group), ControlRuns s.dev iw true true g → g.stack.length + 2 ≤ 32 → g.act ≠ 0 → exec (.split iw) s = .next t →
      ∃ h pushed, getGroup t.dev iw.core iw.slot = some h ∧ h.stack = pushed ++ { kind := .join, pc := target g (cT2 iw), mask := g.act } :: g.stack ∧ h.act ≠ 0
        ∧ h.act ||| (pushed.map (fun e => e.mask)).foldl (· ||| ·) 0 = g.act ∧ h.act &&& (pushed.map (fun e => e.mask)).foldl (· ||| ·) 0 = 0)
  ∧ (∀ (live : BitVec 32) (st st' : List StackEntry) (act : BitVec 32) (pc : Word), popToLoop live st = some (act, pc, st') →
      act ≠ 0 ∧ act &&& ~~~live = 0 ∧ st'.length < st.length)

/-! ## Memory -/

/-- R384: a write of a tier sector that its die and stack can take stores the masked bytes and no other byte; poisoned data sets the sector's
poison bit, a write of the whole sector with clean data clears it, and a partial clean write keeps it; every other sector's bit stays. A write to a
far port leaves as one CXL.mem request with its byte mask (R393), and of the registers only counters of the OBS_ block may change. -/
def Obligations.TierSectorWrites : Prop :=
  ∀ (s : Dev) (b : Nat) (x : BitVec 512) (mask : Nat) (poison : Bool) (d : Dev), b % 64 = 0 → mask < 2 ^ 64 → d = tierStore s b x mask poison →
    tierDead s b = false →
      (∀ a, tabGet (fun _ => 0) d.ms.tier a = if b ≤ a ∧ a < b + 64 ∧ mask.testBit (a - b) = true then BitVec.ofNat 8 (x.toNat / 2 ^ (8 * (a - b))) else tabGet (fun _ => 0) s.ms.tier a)
      ∧ (poison = true → d.ms.tierPoison.contains (b / 64) = true)
      ∧ (poison = false → mask = 2 ^ 64 - 1 → d.ms.tierPoison.contains (b / 64) = false)
      ∧ (poison = false → mask ≠ 2 ^ 64 - 1 → d.ms.tierPoison.contains (b / 64) = s.ms.tierPoison.contains (b / 64))
      ∧ (∀ k, k ≠ b / 64 → d.ms.tierPoison.contains k = s.ms.tierPoison.contains k)
      ∧ d.ms.spad = s.ms.spad ∧ d.ms.lines = s.ms.lines ∧ d.cores = s.cores ∧ d.cmds = s.cmds
      ∧ (∀ off, off < 0x700000 ∨ 0x800000 ≤ off → reg d off = reg s off)
      ∧ (isFar b = true → d.out = s.out ++ [.cxl (farPort b) true ((b - 0x010000000000) % 2 ^ 39) x (BitVec.ofNat 64 mask) poison])
      ∧ (isFar b = false → d.out = s.out)

/-- R619 step 7: NEAR_TIER_ZEROING leaves every near byte zero and unpoisoned, and every far byte as it was. -/
def Obligations.NearZeroingClears : Prop :=
  ∀ (s t : State), s.dev.su.begun = true → stepDone s.dev 5 = true → stepDone s.dev 7 = false → exec .nearTierZeroing s = .next t →
    ∀ a, tabGet (fun _ => 0) t.dev.ms.tier a = if isNear a then 0 else tabGet (fun _ => 0) s.dev.ms.tier a

/-! ## Completion: what each command does where it acts -/

/-- The set-up path (R23, R29, R30, R458, R698): a taken 64-bit write acts on its register; a lower half is held, and the upper half that follows
makes the write of both; a legal read returns the register and discards a held half; a refused access is logged and read as zeros; a held half
expires; the lease is claimed, released and expires; and a resume or the release of STOP_IO ends a stop. -/
def Obligations.SetupCompletes : Prop :=
  (∀ (s : State) (port : Fin 2) (off : BitVec 26) (data : Word),
    SetupTaken s.dev port off.toNat → off.toNat % 8 = 0 → off.toNat ≠ offID_SEM →
      CompletesM (.setupWrite port off false data) s (setupEffect (seqImage s.sec) port off.toNat data s.dev))
  ∧ (∀ (s : State) (port : Fin 2) (off : BitVec 26) (data : Word), bar0Open s.dev port = true → (getPort s.dev port).held = none →
    regAt s.dev off.toNat = true → off.toNat % 8 = 0 → s.dev.ms.blocked = false →
      Completes (.setupWrite port off true data) s
        (modPort s.dev port (fun p => { p with held := some { off := off.toNat, data := data.toNat % 2 ^ 32, since := s.dev.now } })))
  ∧ (∀ (s : State) (port : Fin 2) (off : BitVec 26) (data : Word) (h : HeldHalf) (d : Dev), bar0Open s.dev port = true →
    (getPort s.dev port).held = some h → off.toNat = h.off + 4 → off.toNat % 8 = 4 → h.off ≠ offID_SEM →
    d = modPort s.dev port (fun p => { p with held := none }) → SetupTaken d port h.off →
      CompletesM (.setupWrite port off true data) s
        (setupEffect (seqImage s.sec) port h.off (BitVec.ofNat 64 (h.data + 2 ^ 32 * (data.toNat % 2 ^ 32))) d))
  ∧ (∀ (s : State) (port : Fin 2) (off : BitVec 26) (len : Fin 4097),
    bar0Open s.dev port = true → len.val = 4 ∨ len.val = 8 → off.toNat % len.val = 0 → regAt s.dev (off.toNat / 8 * 8) = true →
      Completes (.bar0AccessError port off len false) s (bar0Read port off.toNat len s.dev))
  ∧ (∀ (s : State) (port : Fin 2) (off : BitVec 26) (len : Fin 4097) (write : Bool),
    bar0Open s.dev port = true → (getPort s.dev port).held = none →
    ¬((len.val = 4 ∨ len.val = 8) ∧ off.toNat % len.val = 0 ∧ regAt s.dev (off.toNat / 8 * 8) = true) →
      Completes (.bar0AccessError port off len write) s
        (if write then setupError s.dev port off.toNat
         else emit (setupError s.dev port off.toNat) (.readData port (List.replicate len.val 0) false)))
  ∧ (∀ (s : State) (port : Fin 2) (h : HeldHalf), (getPort s.dev port).held = some h →
      Completes (.lowerHalfExpiry port) s
        (setupError (modPort { s.dev with now := max s.dev.now (h.since + 1000) } port (fun p => { p with held := none })) port h.off))
  ∧ (∀ (s : State) (port : Fin 2) (lease : BitVec 6),
    bar0Open s.dev port = true → (getPort s.dev port).held = none → lease.toNat ≠ 0 → lease.toNat ≤ 60 →
    (leaseFree s.dev = true ∨ getF s.dev fID_SEM_OWNER = port.val + 1) →
      ∀ tie, Completes (.claim port lease tie) s
        (setF (setF { s.dev with leaseEnd := s.dev.now + 1000000000 * lease.toNat, leaseFresh := leaseFree s.dev } fID_SEM_OWNER (port.val + 1))
          fID_SEM_REMAIN_MS (1000 * lease.toNat)))
  ∧ (∀ (s : State) (port : Fin 2) (lease : BitVec 6),
    bar0Open s.dev port = true → (getPort s.dev port).held = none → lease.toNat ≠ 0 → lease.toNat ≤ 60 →
    leaseFree s.dev = false → getF s.dev fID_SEM_OWNER ≠ port.val + 1 → Completes (.claim port lease false) s s.dev)
  ∧ (∀ (s : State) (port : Fin 2),
    bar0Open s.dev port = true → (getPort s.dev port).held = none → holdsLease s.dev port = true →
      Completes (.release port) s (setF (setF s.dev fID_SEM_OWNER 0) fID_SEM_REMAIN_MS 0))
  ∧ (∀ (s : State), getF s.dev fID_SEM_OWNER ≠ 0 →
      Completes .leaseExpiry s
        (setF (setF { s.dev with now := max s.dev.now s.dev.leaseEnd } fID_SEM_OWNER 0) fID_SEM_REMAIN_MS 0))
  ∧ (∀ (s : State) (port : Fin 2),
    bar0Open s.dev port = true → (getPort s.dev port).held = none → regAt s.dev offOBS_WHOA_CTL = true →
    holdsLease s.dev port = true → whoaStopped s.dev = true → stage s.dev = 2 → tdiHolds s.dev offOBS_WHOA_CTL = false →
    s.dev.obs.stopIn = false →
      CompletesM (.resume port) s
        (finishResume (seqImage s.sec) (setF { s.dev with obs := { s.dev.obs with stopOut := false, resuming := true } } fSU_PINS_STOP 0)))
  ∧ (∀ (s : State) (d : Dev), s.dev.obs.stopIn = true →
    d = setF { s.dev with obs := { s.dev.obs with stopIn := false } } fSU_PINS_STOP s.dev.obs.stopOut.toNat →
      CompletesM .stopIoRelease s (if s.dev.obs.resuming = true ∧ whoaStopped d = true then finishResume (seqImage s.sec) d else d))

/-- Doorbells, fetches and dispatch (R468, R471 to R476): a doorbell of an ACTIVE ring moves its index; a descriptor read whose page is mapped, or
that carries no PASID, goes out, where its port has a read free (R455), and one whose page is not mapped waits for the page request it sends;
arrived descriptors are held and HEAD advances past them; a failed read puts an ACTIVE ring in ERROR; and of the channel's heads the one it
serves first is dispatched. -/
def Obligations.RingsComplete : Prop :=
  (∀ (s : State) (port : Fin 2) (vf : Option (Fin 16)) (page off : Fin 4096) (len : Fin 65) (data : Word),
    pageAnswers s.dev port vf page = true → off.val = 0 → len.val = 8 → fld data 63 32 = 0 → fld data 31 16 < 64 →
    (page.val % 256 = fld data 31 16 ∨ page.val % 256 = 64) →
    getF s.dev (fCH_SQ_STATE_STATE (page.val / 256) (fld data 31 16)) = 1 →
    fld data 15 0 < 2 ^ getF s.dev (fCH_SQ_CFG_LOG2SZ (page.val / 256) (fld data 31 16)) →
      Completes (.doorbell port vf page off len data) s
        (setF s.dev (fCH_SQ_STATE_TAIL (page.val / 256) (fld data 31 16)) (fld data 15 0)))
  ∧ (∀ (s : State) (port : Fin 2) (vf : Option (Fin 16)) (page off : Fin 4096) (len : Fin 65) (data : Word),
    pageAnswers s.dev port vf page = true → off.val = 0 → len.val = 8 → fld data 63 32 = 0 → 64 ≤ fld data 31 16 → fld data 31 16 < 128 →
    (page.val % 256 = fld data 31 16 - 64 ∨ page.val % 256 = 64) →
    getF s.dev (fCH_CQ_STATE_STATE (page.val / 256) (fld data 31 16 - 64)) = 1 →
    fld data 15 0 < 2 ^ getF s.dev (fCH_CQ_CFG_LOG2SZ (page.val / 256) (fld data 31 16 - 64)) →
      Completes (.doorbell port vf page off len data) s
        (setF s.dev (fCH_CQ_STATE_HEAD (page.val / 256) (fld data 31 16 - 64)) (fld data 15 0)))
  ∧ (∀ (s : State) (chan : Fin 16) (ring : Fin 64) (mapped : Bool) (start k p : Nat) (key : Nat × Nat),
    p = portOf (getF s.dev (fCH_SQ_CFG_PORT chan ring)) → key = (getF s.dev (fCH_SQ_CFG_PASID chan ring), ringPage s.dev chan ring start) →
    chanLive s.dev chan ring = true → getF s.dev (fCH_SQ_STATE_STATE chan ring) = 1 →
    portUp s.dev p = true → nextRead s.dev chan ring = (start, k) → k ≠ 0 →
      ((ringPasid s.dev chan ring = none ∨ mapped = true ∨ (getPort s.dev p).atc.contains key = true) →
        (portReads s.dev p < 768 → Completes (.ringFetch chan ring mapped) s
          (emit (modCh (if (ringPasid s.dev chan ring).isSome then atcPut s.dev p key else s.dev) chan
            (fun ch => { ch with reads := ch.reads ++ [{ ring := ring, index := start, count := k, pri := false }] })) (.fetch p chan ring start k)))
        ∧ (768 ≤ portReads s.dev p → Completes (.ringFetch chan ring mapped) s s.dev))
      ∧ ((ringPasid s.dev chan ring).isSome = true → mapped = false → (getPort s.dev p).atc.contains key = false →
        (getPort s.dev p).pageReqs.length < 256 → (getPort s.dev p).pageReqs.contains key = false →
          Completes (.ringFetch chan ring mapped) s
            (emit (modPort (modCh s.dev chan (fun ch => { ch with reads := ch.reads ++ [{ ring := ring, index := start, count := k, pri := true }] })) p
              (fun x => { x with pageReqs := x.pageReqs ++ [key] })) (.ats p 0 (key.1 + 2 ^ 20 * key.2)))))
  ∧ (∀ (s : State) (chan : Fin 16) (ring : Fin 64) (descs : List Block64) (r : FetchRead),
    (getCh s.dev chan).reads.find? (fun x => x.ring == ring.val) = some r → r.pri = false → descs.length = r.count → whoaStopped s.dev = false →
    getF s.dev (fCH_SQ_STATE_STATE chan ring) = 1 →
      Completes (.descriptorArrival chan ring descs) s
        (setF (modCh (dropRead s.dev chan ring) chan (fun ch => { ch with fetched := ch.fetched ++ (descs.zip (List.range r.count)).map (fun e => { ring := ring, index := (r.index + e.2) % 2 ^ getF s.dev (fCH_SQ_CFG_LOG2SZ chan ring), desc := e.1, requeued := false : Fetched }) }))
          (fCH_SQ_STATE_HEAD chan ring) ((r.index + r.count) % 2 ^ getF s.dev (fCH_SQ_CFG_LOG2SZ chan ring))))
  ∧ (∀ (s : State) (chan : Fin 16) (ring : Fin 64),
    (getCh s.dev chan).reads.any (fun r => r.ring == ring.val) = true → getF s.dev (fCH_SQ_STATE_STATE chan ring) = 1 →
      Completes (.fetchFailure chan ring) s
        (ringError (modCh s.dev chan (fun ch => { ch with reads := ch.reads.filter (fun r => r.ring != ring.val) })) chan ring 1 false))
  ∧ (∀ (s : State) (chan : Fin 16) (tag : Nat) (f : Fetched) (heads : List (Nat × Fetched)),
    ¬(stage s.dev = 1 ∧ stepDone s.dev 12 = true) →
    heads = (List.range 64).filterMap (fun n => ringHead s.dev chan n) → (∀ h ∈ heads, coopWaits s.dev chan h.1 h.2 = false) →
    firstBy (fun h => ringOrder s.dev chan h.2.ring) heads = some (tag, f) →
      Completes (.dispatch chan) s (dispatchNow s.dev chan tag f))

/-- Ends of waits and of rings (R476, R494 to R496, R504): a command timeout fails the command with TIMEOUT; an interrupt moderation time
sends the message; a failed record write puts the completion ring in ERROR; a lost link takes its work with it; a channel reset
ends its schedule and its commands with ABORTED. -/
def Obligations.ChannelEventsComplete : Prop :=
  (∀ (s : State) (key d : Nat) (c : Cmd), getCmd s.dev key = some c → c.deadline = some d → whoaStopped s.dev = false → c.saved = false →
    frozenSlice s.dev c.tag = false → c.status = none →
      Completes (.commandTimeout key) s (failCmd { s.dev with now := max s.dev.now d } key 0x03))
  ∧ (∀ (s : State) (chan : Fin 16) (cq : Fin 64),
    (getCqr s.dev chan cq).count ≠ 0 → getF s.dev (fCH_CQ_CFG_MOD_US chan cq) ≠ 0 → getF s.dev (fCH_CQ_CFG_IRQ_EN chan cq) = 1 →
    getF s.dev (fCH_CQ_STATE_STATE chan cq) = 1 → whoaStopped s.dev = false →
      Completes (.modUsExpiry chan cq) s
        (cqMessage { s.dev with now := max s.dev.now ((getCqr s.dev chan cq).first + 1000 * getF s.dev (fCH_CQ_CFG_MOD_US chan cq)) } chan cq))
  ∧ (∀ (s : State) (chan : Fin 16) (cq : Fin 64), getF s.dev (fCH_CQ_STATE_STATE chan cq) = 1 →
      Completes (.recordWriteFailure chan cq) s (ringError s.dev chan cq 4 true))
  ∧ (∀ (s : State) (port : Fin 2), portUp s.dev port = true → Completes (.dlDown port) s (linkDown s.dev port))
  ∧ (∀ (s : State) (port : Fin 2) (chan : Fin 16), SetupTaken s.dev port (offCH_RESET chan) →
      Completes (.channelReset port chan) s
        (let s1 := setReg (stopCyclic (setF s.dev (fCH_RESET_BUSY chan) 1) chan) (offSLC_CYC_STAT chan) 0
         let s2 := ((s1.cmds.filter (fun x => x.chan == chan.val)).map (fun x => x.key)).foldl (fun s k => failCmd s k 0x05) s1
         (List.range 32).foldl pokeRegion (tryChanReset s2 chan)))

/-- Enabling and disabling rings (R462, R463, R506, R510): a ring whose settings are in order becomes ACTIVE, with nothing carried over; a
ring that is disabled returns to DISABLED with its cause cleared, and its outstanding reads are dropped. -/
def Obligations.RingEnablesComplete : Prop :=
  (∀ (s : State) (port : Fin 2) (chan : Fin 16) (ring : Fin 64) (data : Word) (s1 : Dev),
    SetupTaken s.dev port (offCH_SQ_CFG chan ring) → getF s.dev (fCH_SQ_CFG_ENABLE chan ring) = 0 →
    s1 = writeReg s.dev (offCH_SQ_CFG chan ring) (data ||| 1) →
    6 ≤ getF s1 (fCH_SQ_CFG_LOG2SZ chan ring) → getF s1 (fCH_SQ_CFG_LOG2SZ chan ring) ≤ 16 →
    (getF s1 (fCH_SQ_CFG_PORT chan ring) = 1 ∨ getF s1 (fCH_SQ_CFG_PORT chan ring) = 2) →
    getF s1 (fCH_CQ_STATE_STATE chan (getF s1 (fCH_SQ_CFG_CQ chan ring))) = 1 → pasidOk s1 chan (getF s1 (fCH_SQ_CFG_PASID chan ring)) = true →
      Completes (.sqEnable port chan ring data) s
        (setSqr (setF (setF s1 (fCH_SQ_STATE_STATE chan ring) 1) (fCH_SQ_STATE_CAUSE chan ring) 0) chan ring { failed := false, aborting := false }))
  ∧ (∀ (s : State) (port : Fin 2) (chan : Fin 16) (ring : Fin 64) (data : Word),
    SetupTaken s.dev port (offCH_SQ_CFG chan ring) → getF s.dev (fCH_SQ_CFG_ENABLE chan ring) = 1 →
    othersChange s.dev (offCH_SQ_CFG chan ring) (putFld data 0 0 0) = false →
      Completes (.sqDisable port chan ring data) s
        (setF (setF (setF (modCh s.dev chan (fun ch => { ch with reads := ch.reads.filter (fun r => r.ring != ring.val) }))
          (fCH_SQ_CFG_ENABLE chan ring) 0) (fCH_SQ_STATE_STATE chan ring) 0) (fCH_SQ_STATE_CAUSE chan ring) 0))
  ∧ (∀ (s : State) (port : Fin 2) (chan : Fin 16) (ring : Fin 64) (data : Word) (s1 : Dev),
    SetupTaken s.dev port (offCH_CQ_CFG chan ring) → getF s.dev (fCH_CQ_CFG_ENABLE chan ring) = 0 →
    s1 = writeReg s.dev (offCH_CQ_CFG chan ring) (data ||| 1) →
    6 ≤ getF s1 (fCH_CQ_CFG_LOG2SZ chan ring) → getF s1 (fCH_CQ_CFG_LOG2SZ chan ring) ≤ 16 →
    (getF s1 (fCH_CQ_CFG_PORT chan ring) = 1 ∨ getF s1 (fCH_CQ_CFG_PORT chan ring) = 2) →
    (getF s1 (fCH_CQ_CFG_VFV chan ring) = 0 ∨ getF s1 (fCH_CQ_CFG_VECTOR chan ring) < 64) →
    pasidOk s1 chan (getF s1 (fCH_CQ_CFG_PASID chan ring)) = true →
      Completes (.cqEnable port chan ring data) s
        (setCqr (setF (setF s1 (fCH_CQ_STATE_STATE chan ring) 1) (fCH_CQ_STATE_CAUSE chan ring) 0) chan ring { count := 0, first := 0 }))
  ∧ (∀ (s : State) (port : Fin 2) (chan : Fin 16) (ring : Fin 64) (data : Word),
    SetupTaken s.dev port (offCH_CQ_CFG chan ring) → getF s.dev (fCH_CQ_CFG_ENABLE chan ring) = 1 →
    othersChange s.dev (offCH_CQ_CFG chan ring) (putFld data 0 0 0) = false → cqNamed s.dev chan ring = false →
      Completes (.cqDisable port chan ring data) s
        (setF (setF (setF s.dev (fCH_CQ_CFG_ENABLE chan ring) 0) (fCH_CQ_STATE_STATE chan ring) 0) (fCH_CQ_STATE_CAUSE chan ring) 0))

/-- Kernels and model switches (R480 to R482, R530, R531, R540): a kernel whose descriptor is in order is running with every block that a
core takes placed, a cooperative one with all of its blocks at once; a waiting block is placed; a model switch saves and loads the
selected clusters and completes. -/
def Obligations.KernelsComplete : Prop :=
  (∀ (s : State) (key : Nat) (c c2 : Cmd) (d : Dev), CmdRuns s.dev key 1 .dispatched c → kernelBad s.dev c = false → kCoop c.desc = false →
    d = placeAll 6144 (modCmd s.dev key (fun c => { c with phase := .running })) c.tag → getCmd d key = some c2 → c2.nextBlock ≠ 0 →
      Completes (.kernel key) s d)
  ∧ (∀ (s : State) (key : Nat) (c : Cmd) (d : Dev), CmdRuns s.dev key 1 .dispatched c → kernelBad s.dev c = false → kCoop c.desc = true →
    placeWhole (kNblk c.desc) s.dev key = some d →
      Completes (.kernel key) s (modCmd d key (fun c => { c with phase := .running })))
  ∧ (∀ (s : State) (owner : Fin 18) (d : Dev), whoaStopped s.dev = false → (ownerTags owner).any (frozenSlice s.dev) = false →
    (ownerTags owner).findSome? (placeNext s.dev) = some d → Completes (.blockPlacement owner) s d)
  ∧ (∀ (s : State) (key pin : Nat) (cls : List Nat) (c : Cmd) (r : MsRes), CmdRuns s.dev key 0x0C .dispatched c → msBad s.dev c = false →
    (msSelects s.dev c.tag c.desc).all (regionIdle s.dev c.tag) = true → pin = getF s.dev (fSLC_CFG_PIN_KIB c.tag) * 1024 →
    cls = (msSelects s.dev c.tag c.desc).flatMap regionClusters →
    r = (cls.zip (List.range cls.length)).foldl (msCluster c pin) { dev := s.dev, err := none, lost := false, poison := false } →
    r.err = none → r.lost = false → r.poison = false →
      CompletesM (.modelSwitch key) s (finishCmd (launchFor 0x200 key r.dev) key))

/-- The commands a channel carries out itself (R483 to R485, R487 to R489): a SIGNAL updates its word in the tiers or a scratchpad, or sets
one in host memory, and completes; a WAIT completes when its word meets COND and waits on when it does not, at dispatch and at each re-read; a FENCE completes after its range
operation; a MARK writes its trace record, of its dispatch time, and completes. -/
def Obligations.ChannelCommandsComplete : Prop :=
  (∀ (s : State) (key pa : Nat) (c : Cmd) (s1 s2 : Dev) (attr : PageAttr) (d : LineData) (m : BitVec 8) (w : WrRes),
    CmdRuns s.dev key 8 .dispatched c → c.key = key → sgADDR c.desc % 8 = 0 → translate s.dev c.tag (sgADDR c.desc) true = (s1, .ok pa attr) →
    placeOf s1 pa = .tier →
    cohRmw s1 c.tag pa attr { kind := .op false, need := BitVec.ofNat 8 (maskSectors (255 * 2 ^ (pa % 512))), mask := 255 * 2 ^ (pa % 512), poison := 0, thr := noThread, f := signalLine (sgOP c.desc) (pa % 512) (sgVALUE c.desc) } = (s2, d, m, w) →
    w.err = none → w.lost = false →
      CompletesM (.signal key) s (finishCmd (dlogStage s2 c.tag .tier pa) key))
  ∧ (∀ (s : State) (key pa cl o : Nat) (c : Cmd) (s1 s2 : Dev) (attr : PageAttr) (d : LineData) (m : BitVec 8),
    CmdRuns s.dev key 8 .dispatched c → c.key = key → sgADDR c.desc % 8 = 0 → translate s.dev c.tag (sgADDR c.desc) true = (s1, .ok pa attr) →
    placeOf s1 pa = .spad cl o → dieLost s1 (cl / 24) = false → spadOwner s1 c.tag cl = true →
    spadRmw s1 cl o (255 * 2 ^ (pa % 512)) 0 noThread (signalLine (sgOP c.desc) (o % 512) (sgVALUE c.desc)) = (s2, d, m) →
      CompletesM (.signal key) s (finishCmd s2 key))
  ∧ (∀ (s : State) (key pa port h : Nat) (c : Cmd) (s1 s2 : Dev) (attr : PageAttr) (w : WrRes),
    CmdRuns s.dev key 8 .dispatched c → c.key = key → sgADDR c.desc % 8 = 0 → translate s.dev c.tag (sgADDR c.desc) true = (s1, .ok pa attr) →
    placeOf s1 pa = .host port h → c.tag < 0x20 → sgOP c.desc = 0 →
    writePa s1 none c.tag pa attr (BitVec.ofNat 4096 (sgVALUE c.desc * 2 ^ (8 * (pa % 512)))) (255 * 2 ^ (pa % 512)) 0 noThread key = (s2, w) →
    w.err = none → w.lost = false →
      CompletesM (.signal key) s (finishCmd s2 key))
  ∧ (∀ (s : State) (key pa : Nat) (c : Cmd) (s1 s2 : Dev) (attr : PageAttr) (r : AccRes) (again : Bool),
    CmdRuns s.dev key 9 (if again then .running else .dispatched) c → c.key = key → sgADDR c.desc % 8 = 0 →
    translate s.dev c.tag (sgADDR c.desc) false = (s1, .ok pa attr) → placeOf s1 pa = .tier → c.tag < 0x10 →
    readPa s1 none c.tag pa 8 attr = (s2, r) → r.err = none → anyPoison r.bytes = false →
      CompletesM (if again then .waitReread key else .wait key) s
        (if waitMet c.desc (accNat r.bytes) then finishCmd s2 key else modCmd s2 key (fun c => { c with phase := .running })))
  ∧ (∀ (s : State) (key : Nat) (c : Cmd), CmdRuns s.dev key 0x0A .dispatched c → fnROP c.desc = 0 →
      CompletesM (.fence key) s (finishCmd s.dev key))
  ∧ (∀ (s : State) (key : Nat) (c : Cmd) (d : Dev), CmdRuns s.dev key 0x0A .dispatched c → fnROP c.desc ≠ 0 → fenceBad c.desc = false →
    fenceRange (ropOf (fnROP c.desc)) (key + 1) c.tag 130 s.dev (fnADDR c.desc) (fnLINES c.desc) = (d, none) →
      CompletesM (.fence key) s (finishCmd d key))
  ∧ (∀ (s : State) (key : Nat) (c : Cmd), CmdRuns s.dev key 0x0B .dispatched c →
      Completes (.mark key) s
        (finishCmd (traceAt s.dev (chanHub c.chan) { kind := 1, job := dJob c.desc, layer := dLayer c.desc, op := dOp c.desc, slice := tagByte c.tag, chan := c.chan, status := 0, info := c.index, payload := fld c.desc 191 128 } c.tStart) key))

/-- The data movers (R255 to R261, R267 to R269): an operation whose every run succeeds moves its data, with last-use marks on a copy's or a
reduction's sources, and its command notes the flags and poison it met, while one that loses a write ends its command with STORE_LOST and one
that fails an access ends it with that access's outcome; when its writes are acknowledged it completes. -/
def Obligations.MoversComplete : Prop :=
  (∀ (s : State) (op : OpRef) (f : Flaw) (o : MvOp) (d : Dev) (t : MvRes), MoverRuns (flawIn f s.dev) 2 op o →
    inFlight o.id (fun s => (markSources o (((srcRuns o.desc).zip (dstRuns o.desc)).foldl (copyRun o) (s, MvRes.start)).2.runs
      (((srcRuns o.desc).zip (dstRuns o.desc)).foldl (copyRun o) (s, MvRes.start)).1, (((srcRuns o.desc).zip (dstRuns o.desc)).foldl (copyRun o) (s, MvRes.start)).2))
      (flawIn f s.dev) = (d, t) →
      CompletesM (.copy op f) s (flawOut f (moverEnds op o t d)))
  ∧ (∀ (s : State) (op : OpRef) (f : Flaw) (o : MvOp) (d : Dev) (t : MvRes), MoverRuns (flawIn f s.dev) 3 op o →
    inFlight o.id (fun s => (dstRuns o.desc).foldl (fillRun o) (s, MvRes.start)) (flawIn f s.dev) = (d, t) →
      CompletesM (.fill op f) s (flawOut f (moverEnds op o t d)))
  ∧ (∀ (s : State) (op : OpRef) (f : Flaw) (o : MvOp) (d : Dev) (t : MvRes), MoverRuns (flawIn f s.dev) 4 op o →
    inFlight o.id (fun s => (markSources o (((srcRuns o.desc).zip (dstRuns o.desc)).foldl (reduceRun o) (s, MvRes.start)).2.runs
      (((srcRuns o.desc).zip (dstRuns o.desc)).foldl (reduceRun o) (s, MvRes.start)).1, (((srcRuns o.desc).zip (dstRuns o.desc)).foldl (reduceRun o) (s, MvRes.start)).2))
      (flawIn f s.dev) = (d, t) →
      CompletesM (.reduce op f) s (flawOut f (moverEnds op o t d)))
  ∧ (∀ (s : State) (op : OpRef) (f : Flaw) (o : MvOp) (d : Dev) (t : MvRes), MoverRuns (flawIn f s.dev) 5 op o →
    inFlight o.id (fun s => (List.range (mvN1 o.desc)).foldl (gatherStep o) (s, MvRes.start)) (flawIn f s.dev) = (d, t) →
      CompletesM (.gather op f) s (flawOut f (moverEnds op o t d)))
  ∧ (∀ (s : State) (op : OpRef) (f : Flaw) (o : MvOp) (d : Dev) (t : MvRes), MoverRuns (flawIn f s.dev) 6 op o →
    inFlight o.id (fun s => ((runLines o.desc (srcRuns o.desc)).map (fun l => l * 512)).foldl (prefetchLine o) (s, MvRes.start)) (flawIn f s.dev) = (d, t) →
      CompletesM (.prefetch op f) s (flawOut f (moverEnds op o t d)))
  ∧ (∀ (s : State) (key e : Nat) (c : Cmd), whoaStopped s.dev = false → getCmd s.dev key = some c → isMover (dOpcode c.desc) = true →
    c.moved = true → c.phase ≠ .draining → orderedLeft s.dev key = false → engineOf s.dev c.tag c.chan c.desc = some e →
      Completes (.dmaOpComplete (.chan key)) s (if e < 100 then pokeRegion (finishCmd (farDone s.dev key) key) e else finishCmd (farDone s.dev key) key))
  ∧ (∀ (s : State) (cl : Fin 192) (id : Nat) (o : DmaOp), whoaStopped s.dev = false → (getCl s.dev cl).dmaQ.find? (fun o => o.id == id) = some o →
    o.phase = .moved → orderedLeft s.dev id = false → peerBusy s.dev o.cmd = false →
      Completes (.dmaOpComplete (.cluster cl id)) s
        (pokeCore (tokenDone (trkRelease (farDone (modCl s.dev cl (fun c => { c with dmaQ := c.dmaQ.filter (fun x => x.id != id) })) id) o.core id (fun _ => true))
          o.core o.slot o.tok o.cmd) o.core))

/-- The DMA instruction and ordered reductions (R198, R199, R262, R308): a DMA instruction whose fields are legal, whose descriptor is in
order, and for which the queue, the token and the range tracker have room, takes its tracker entries, queues its operation with the
command's identifiers and raises its token; an ordered operation of the expected rank is applied, and so are the buffered ones after it;
one of another rank waits in the reorder buffer. -/
def Obligations.DmaAndOrderedComplete : Prop :=
  (∀ (s : State) (iw : IWord) (g : Group) (c : Cmd) (d : Block64) (o : DmaOp) (qs : List TrkReq) (d1 d2 : Dev),
    Issues s.dev iw [] ((List.range 8).map (fun i => xSC iw + i)) g → xRES iw = 0 → xSD1 iw = 0 → xSD2 iw = 0 → xSC iw % 8 = 0 → execOnce g iw = true →
    getCmd s.dev g.cmd = some c → d = regDesc g c (xSC iw) → isMover (dOpcode d) = true → mvInvalid s.dev c.tag d (512 * 1024) = false →
    mcastRefused s.dev c.tag c.chan d = false → (getCl s.dev (coreCluster iw.core)).dmaQ.length < 16 → tokCount g (xTOK iw) ≠ 255 →
    qs = mvReqs s.dev c.tag d → asyncReady s.dev iw.core qs = true →
    o = { id := s.dev.nextKey, core := iw.core, slot := iw.slot, cmd := g.cmd, tok := xTOK iw, desc := d, phase := .queued,
          poison := asyPoison g iw ((List.range 8).map (fun i => xSC iw + i)) } →
    d1 = modCl (mvInval (trkTake s.dev iw.core o.id g.cmd qs) iw.core c.tag d) (coreCluster iw.core) (fun x => { x with dmaQ := x.dmaQ ++ [o] }) →
    d2 = (if o.poison then markPoison d1 g.cmd else d1) →
      CompletesM (.dma iw) s (countIssue (putGroup { d2 with nextKey := d2.nextKey + 1 } iw (tokRaise g.next (xTOK iw))) iw 3 g))
  ∧ (∀ (s : State) (id n e e2 : Nat) (q : OrdOp) (d : Dev), whoaStopped s.dev = false → s.dev.ms.ordSent.find? (fun q => q.id == id) = some q →
    n = getF s.dev (fCD_SLICE_CFG_ORED_NM1 q.slice) + 1 → e = ((ordEntry s.dev q.home (q.pa / 64)).map (fun x => x.expect)).getD 0 →
    ((ordEntry s.dev q.home (q.pa / 64)).isSome = true ∨ (s.dev.ms.ordSectors.filter (fun x => x.home == q.home)).length < 1024) → q.rank = e →
    ordChain n q.home (q.pa / 64) (s.dev.ms.reorder.length + 1)
      (ordApply (modMs s.dev (fun m => { m with ordSent := m.ordSent.filter (fun x => x.id != id) })) q) ((e + 1) % n) = (d, e2) →
      CompletesM (.orderedReduction id) s (ordSet d q.home (q.pa / 64) e2 q.slice))
  ∧ (∀ (s : State) (id e : Nat) (q : OrdOp), whoaStopped s.dev = false → s.dev.ms.ordSent.find? (fun q => q.id == id) = some q →
    e = ((ordEntry s.dev q.home (q.pa / 64)).map (fun x => x.expect)).getD 0 →
    ((ordEntry s.dev q.home (q.pa / 64)).isSome = true ∨ (s.dev.ms.ordSectors.filter (fun x => x.home == q.home)).length < 1024) → q.rank ≠ e →
    (s.dev.ms.reorder.filter (fun x => x.home == q.home)).length < 256 →
      CompletesM (.orderedReduction id) s
        (ordSet (modMs s.dev (fun m => { m with ordSent := m.ordSent.filter (fun x => x.id != id), reorder := m.reorder ++ [q] })) q.home (q.pa / 64) e q.slice))

/-- What else arrives on a host port (R285, R357, R455, R456, R476, R495, R522): accesses through BAR4, which the memory system serves or
refuses, and which a stopped module holds, ATS invalidations, the host's answers to page requests, completion timeouts, configuration writes, and
the unmasking of a vector. -/
def Obligations.HostPortsComplete : Prop :=
  (∀ (s : State) (port : Fin 2) (addr : Nat) (data : List Byte) (f : Flaw) (d : Dev) (w : WrRes), portUp (flawIn f s.dev) port = true →
    whoaStopped (flawIn f s.dev) = false →
    writeBytesVa (wakeWindow (flawIn f s.dev) addr) none 0x10 0 addr (data.map (fun b => (b, false))) = (d, w) →
      CompletesM (.bar4Write port addr data f) s (flawOut f
        (if w.err.isSome then bar4Error (countHub d port 0xC1 data.length) port addr else launch (0x200 + port.val) (countHub d port 0xC1 data.length))))
  ∧ (∀ (s : State) (port : Fin 2) (addr len : Nat) (f : Flaw) (d : Dev) (r : AccRes), portUp (flawIn f s.dev) port = true →
    whoaStopped (flawIn f s.dev) = false → readBytesVa (wakeWindow (flawIn f s.dev) addr) none 0x10 addr len = (d, r) →
      CompletesM (.bar4Read port addr len f) s (flawOut f
        (if r.err.isSome then emit (bar4Error (launch (0x200 + port.val) d) port addr) (.readData port [] false)
         else emit (launch (0x200 + port.val) d) (.readData port (r.bytes.map (fun b => b.1)) (anyPoison r.bytes)))))
  ∧ (∀ (s : State) (port : Fin 2) (addr len : Nat) (data : List Byte), portUp s.dev port = true → whoaStopped s.dev = true →
      CompletesM (.bar4Write port addr data) s { s.dev with obs := { s.dev.obs with heldBar4 := s.dev.obs.heldBar4 ++ [(port.val, addr, some data, data.length)] } }
      ∧ CompletesM (.bar4Read port addr len) s { s.dev with obs := { s.dev.obs with heldBar4 := s.dev.obs.heldBar4 ++ [(port.val, addr, none, len)] } })
  ∧ (∀ (s : State) (port : Fin 2) (pasid page count : Nat), portUp s.dev port = true →
      Completes (.atsInvalidation port pasid page count) s
        (emit (modPort s.dev port (fun x => { x with atc := x.atc.filter (fun e => !(e.1 == pasid && decide (page ≤ e.2) && decide (e.2 < page + count))) })) (.ats port 1 pasid)))
  ∧ (∀ (s : State) (port : Fin 2) (pasid page : Nat) (d : Dev), (getPort s.dev port).pageReqs.contains (pasid, page) = true →
    d = modPort s.dev port (fun x => { x with pageReqs := x.pageReqs.filter (fun e => e != (pasid, page)) }) →
      Completes (.pageRequestResponse port pasid page true) s
        ((priWaiters s.dev port (pasid, page)).foldl (fun s e => emit (modCh s e.1 (fun ch => { ch with reads := updFirst (fun r => r == e.2) (fun r => { r with pri := false }) ch.reads }))
          (.fetch port e.1 e.2.ring e.2.index e.2.count)) (atcPut d port (pasid, page)))
      ∧ Completes (.pageRequestResponse port pasid page false) s ((priWaiters s.dev port (pasid, page)).foldl (fun s e => fetchFails s e.1 e.2.ring) d))
  ∧ (∀ (s : State) (chan : Fin 16) (ring : Fin 64),
    (getCh s.dev chan).reads.any (fun r => r.ring == ring.val) = true → getF s.dev (fCH_SQ_STATE_STATE chan ring) = 1 →
      CompletesM (.hostCompletionTimeout (.fetch chan ring)) s
        (ringError (modCh s.dev chan (fun ch => { ch with reads := ch.reads.filter (fun r => r.ring != ring.val) })) chan ring 1 false))
  ∧ (∀ (s : State) (core : Fin 768) (id p h : Nat) (q : MemReq), (getCore s.dev core).reqs.find? (fun q => q.id == id) = some q →
    placeOf s.dev (q.line * 512) = .host p h → q.served = false →
      CompletesM (.hostCompletionTimeout (.load core id)) s
        (tryTlb (modReq { s.dev with free := s.dev.free + 8 } core q.id (fun r => { r with served := true, waiting := false, data := (List.range 8).foldl (fun d i => putSector d i (Config.poisonData (s.dev.free + i))) (0 : LineData), poison := q.sectors })) q.tag))
  ∧ (∀ (s : State) (port : Fin 2), portUp s.dev port = true →
      (∀ fn on, Completes (.configurationWrite port (.msixEnable fn on)) s (modPort s.dev port (fun x => { x with msixEn := putBit x.msixEn fn on })))
      ∧ (∀ vf v, Completes (.configurationWrite port (.maskVector vf v)) s
          (modPort s.dev port (fun x => { x with msixOff := if x.msixOff.contains (vecKey (vf.map Fin.val) v) then x.msixOff else x.msixOff ++ [vecKey (vf.map Fin.val) v] })))
      ∧ (∀ on, Completes (.configurationWrite port (.vfEnable on)) s (modPort s.dev port (fun x => { x with vfEn := on })))
      ∧ (∀ on, Completes (.configurationWrite port (.atomicEnable on)) s (modPort s.dev port (fun x => { x with atomicEn := on }))))
  ∧ (∀ (s : State) (port : Fin 2) (vf : Option (Fin 16)) (v : Fin 2048) (d : Dev), portUp s.dev port = true →
    (getPort s.dev port).msixOff.contains (vecKey (vf.map Fin.val) v) = true →
    d = modPort s.dev port (fun x => { x with msixOff := x.msixOff.filter (fun e => e != vecKey (vf.map Fin.val) v), pendingVec := x.pendingVec.filter (fun e => e != vecKey (vf.map Fin.val) v) }) →
      Completes (.msixVectorUnmask port vf v) s
        (if (getPort s.dev port).pendingVec.contains (vecKey (vf.map Fin.val) v) then sendMsix d port (vf.map Fin.val) v else d))

/-- Slice commands (R514, R519 to R525): START of a slice whose checks pass takes its regions and channels, and it runs as time passes; HOBBLE
begins to Hobble it, saving its work where SAVE is set; the Hobble's bound aborts what remains; RESET grooms a stopped slice, which is then
stopped again as time passes; REMOVE grooms it and takes its regions, channels and PASIDs, and it is then free; each takes the slice's locked
TDI out of its trusted state first (R735); TLB_FLUSH drops its translations; a region it gives up is groomed. -/
def Obligations.SliceCommandsComplete : Prop :=
  (∀ (s : State) (port : Fin 2) (slice : Fin 16) (s1 : Dev), SetupTaken s.dev port (offSLC_CTL slice) → slState s.dev slice ≤ 1 → starting s.dev slice = false →
    s1 = readCtxTab (writeReg s.dev (offSLC_CTL slice) (slcWord 1 0 false)) slice → startCheck s1 slice = none →
      CompletesM (.start port slice) s (startSlice s1 slice))
  ∧ (∀ (s : State) (port : Fin 2) (slice : Fin 16) (cache : Fin 4) (save : Bool), SetupTaken s.dev port (offSLC_CTL slice) → slState s.dev slice = 2 →
    dumping s.dev slice = false → starting s.dev slice = false →
      CompletesM (.hobble port slice cache save) s (hobbleSlice (tdiLeaves (writeReg s.dev (offSLC_CTL slice) (slcWord 2 cache save)) slice) slice))
  ∧ (∀ (s : State) (slice : Fin 16) (d : Dev), slState s.dev slice = 3 →
    d = ((s.dev.cmds.filter (fun c => c.tag == slice.val && !c.saved)).map (fun c => c.key)).foldl (fun s k => failCmd s k 0x05) s.dev →
      CompletesM (.hobbleForceAbort slice) s (tryHobble ((residentRegions d slice).foldl trySwitch d) slice))
  ∧ (∀ (s : State) (port : Fin 2) (slice : Fin 16), SetupTaken s.dev port (offSLC_CTL slice) → slState s.dev slice = 1 →
    dumping s.dev slice = false → starting s.dev slice = false →
      CompletesM (.sliceReset port slice) s (resetSlice (tdiLeaves (writeReg s.dev (offSLC_CTL slice) (slcWord 3 0 false)) slice) slice)
      ∧ CompletesM (.remove port slice) s (removeSlice (tdiLeaves (writeReg s.dev (offSLC_CTL slice) (slcWord 4 0 false)) slice) slice))
  ∧ (∀ (s : State) (port : Fin 2) (slice : Fin 16), SetupTaken s.dev port (offSLC_CTL slice) → (slState s.dev slice = 1 ∨ slState s.dev slice = 2) →
    starting s.dev slice = false →
      CompletesM (.tlbFlush port slice) s (flushTlb (writeReg s.dev (offSLC_CTL slice) (slcWord 5 0 false)) slice))
  ∧ (∀ (s : State) (port : Fin 2) (slice : Fin 16) (regions : BitVec 32), SetupTaken s.dev port (offSLC_RGNS slice) → slFixed s.dev slice = false →
      CompletesM (.regionLeave port slice regions) s
        (showBounds (writeReg (((bitsOf 32 (getF s.dev (fSLC_RGNS_REGIONS slice))).filter (fun r => !(BitVec.ofNat 64 regions.toNat).getLsbD r)).foldl
          (fun s r => regionLeaves s slice r) s.dev) (offSLC_RGNS slice) (BitVec.ofNat 64 regions.toNat))))
  ∧ (∀ (s : Dev) (slice : Nat),
      endTask s (.run slice) = runSlice s slice
      ∧ (slState s slice = 4 → endTask s (.stop slice) = setF s (fSLC_CTL_STATE slice) 1 ∧ endTask s (.free slice) = showBounds (setF s (fSLC_CTL_STATE slice) 0)))

/-- Page grooming, regions in time, and dirty logging (R526, R528, R534, R535, R550): a groom request of good frames is queued; the front
one's frames are zeroed and leave the dirty map; a quantum's expiry asks the next holder's switch; a command that has not reached its
safe points in time is aborted or requeued; SYNC and the staging time write staged bits to the host. -/
def Obligations.RegionTimesComplete : Prop :=
  (∀ (s : State) (port : Fin 2) (nfm1 : BitVec 16), SetupTaken s.dev port offSLC_PG_CMD → s.dev.pgq.length < 16 →
    (List.range (nfm1.toNat + 1)).any (fun i => frameBad s.dev (getF s.dev fSLC_PG_BASE_FRAME + i)) = false →
      Completes (.pageGroom port nfm1) s
        (showPg { (setF (writeReg s.dev offSLC_PG_CMD (BitVec.ofNat 64 (nfm1.toNat * 2 ^ 32 + 1))) fSLC_PG_CMD_ERR 0) with
          pgq := s.dev.pgq ++ [(getF s.dev fSLC_PG_BASE_FRAME, nfm1.toNat + 1)] }))
  ∧ (∀ (s : State) (f n : Nat) (rest : List (Nat × Nat)), s.dev.pgq = (f, n) :: rest → (List.range n).find? (fun i => frameBad s.dev (f + i)) = none →
      CompletesM .pageGroomDone s
        (showPg (clearMap (zeroFrames { s.dev with pgq := rest } (fun x => decide (f ≤ x) && decide (x < f + n))) (fun x => decide (f ≤ x) && decide (x < f + n)))))
  ∧ (∀ (s : State) (region : Fin 32) (a b : Nat) (d : Dev), whoaStopped s.dev = false → residentOf s.dev region = some a →
    (getRgn s.dev region).req = none → (getRgn s.dev region).window = none → nextHolder s.dev a region = some b →
    d = { s.dev with now := max s.dev.now ((getRgn s.dev region).entered + 1000 * getF s.dev (fSLC_CFG_QUANTUM_US a)) } →
      CompletesM (.quantumExpiry region) s (trySwitch (askSwitch d region { slice := a, ctx := 0, enter := some b, since := d.now }) region))
  ∧ (∀ (s : State) (key t : Nat) (c : Cmd) (late : List (Nat × Core)), whoaStopped s.dev = false → getCmd s.dev key = some c → c.stopReq = some t →
    c.status = none → late = s.dev.cores.filter (fun e => (coreGroups e.2).any (fun g => g.cmd == key && !groupHalted g)) → late ≠ [] →
      CompletesM (.preemptGraceExpiry key) s
        (((late.map (fun e => coreRegion e.1)).eraseDups).foldl pokeRegion (abortOrRequeue { s.dev with now := max s.dev.now (t + 100000) } key)))
  ∧ (∀ (s : State) (port : Fin 2) (slice : Fin 16) (data : Word) (d : Dev), SetupTaken s.dev port (offSLC_DLOG_CTL slice) →
    (data.getLsbD 0 || data.getLsbD 1 || data.getLsbD 2) = false →
    d = (((writeReg s.dev (offSLC_DLOG_CTL slice) (data ||| 16)).dlog.filter (fun e => e.1 == slice.val)).map (fun e => (e.2.1, e.2.2 / 64))).eraseDups.foldl
      (fun s w => dlogWord s slice w.1 w.2) (writeReg s.dev (offSLC_DLOG_CTL slice) (data ||| 16)) →
      Completes (.dlogSync port slice data) s (setF d (fSLC_DLOG_CTL_BUSY slice) (if d.dlog.any (fun e => e.1 == slice.val) then 1 else 0)))
  ∧ (∀ (s : State) (slice : Fin 16) (map : Fin 3) (word : Nat), (dlogWord s.dev slice map word).dlog.any (fun e => e.1 == slice.val) = false →
      Completes (.dlogStageWrite slice map word) s (setF (dlogWord s.dev slice map word) (fSLC_DLOG_CTL_BUSY slice) 0))

/-- Cyclic schedules (R543 to R547, R567, R783): a good table starts at the position its time base gives; a frame starts once the last one's
windows are over; an EXCLUSIVE window's lead clears every region of the slice; the next window opens and closes, with what it leaves
behind ended or marked late; the frame pulse ends. -/
def Obligations.CyclicComplete : Prop :=
  (∀ (s : State) (port : Fin 2) (chan : Fin 16) (data w : Word) (d : Dev), SetupTaken s.dev port (offSLC_CYC_CFG chan) →
    w = data ||| BitVec.ofNat 64 (2 ^ 63) → cycOk (writeReg s.dev (offSLC_CYC_CFG chan) w) chan = true → getF s.dev (fSLC_CYC_CFG_EN chan) = 0 →
    d = setF (writeReg (stopCyclic s.dev chan) (offSLC_CYC_CFG chan) w) (fSLC_CYC_STAT_FRAMES chan) 0 →
      Completes (.cyclicEnable port chan data) s (modCh d chan (fun ch => { ch with cyc := cycPlace d chan })))
  ∧ (∀ (s : State) (chan : Fin 16) (r : CycRun), r = (getCh s.dev chan).cyc → cycRuns s.dev chan = true → r.opened = none →
    (cycUsed s.dev chan).length ≤ r.next → getF s.dev fSU_SYNCIO_MODE ≠ 3 →
      Completes (.frameStart chan) s
        (modCh (satF (advanceTo s.dev (frameStart s.dev chan r.frame)) (fSLC_CYC_STAT_FRAMES chan) 1) chan (fun ch => { ch with cyc := { r with frame := r.frame + 1, next := 0 } })))
  ∧ (∀ (s : State) (chan : Fin 16) (r : CycRun) (e k : Nat) (d : Dev), r = (getCh s.dev chan).cyc → leadEntry s.dev chan = some (e, k) → cycRuns s.dev chan = true →
    r.opened = none → r.lead = none → getF s.dev (fSLC_CYC_E_KIND chan e) = 1 →
    d = modCh (advanceTo s.dev (frameStart s.dev chan k + entStart s.dev chan e - leadNs s.dev chan)) chan (fun ch => { ch with cyc := { r with lead := some e } }) →
      Completes (.windowLead chan) s ((chanRegions d chan).foldl (fun s q => leadRegion s chan q) d))
  ∧ (∀ (s : State) (chan : Fin 16) (r : CycRun) (e : Nat) (rest : List Nat), r = (getCh s.dev chan).cyc → cycRuns s.dev chan = true → r.opened = none → r.frame ≠ 0 →
    (cycUsed s.dev chan).drop r.next = e :: rest → getF s.dev (fSLC_CYC_E_KIND chan e) ≠ 1 →
      Completes (.windowOpen chan) s
        (modCh (advanceTo s.dev (frameStart s.dev chan (r.frame - 1) + entStart s.dev chan e)) chan (fun ch => { ch with cyc := { r with next := e + 1, lead := none, opened := some e } })))
  ∧ (∀ (s : State) (chan : Fin 16) (r : CycRun) (e : Nat) (d : Dev), r = (getCh s.dev chan).cyc → cycRuns s.dev chan = true → r.opened = some e →
    d = modCh (advanceTo s.dev (frameStart s.dev chan (r.frame - 1) + entEnd s.dev chan e)) chan (fun ch => { ch with cyc := { r with opened := none } }) →
    (d.cmds.filter (fun x => x.chan == chan.val && x.window == some e && x.status.isNone)) = [] →
      Completes (.windowClose chan) s ((chanRegions d chan).foldl (fun s q => freeRegion s chan q) (reserveShort d chan)))
  ∧ (∀ (s : State), s.dev.pins.syncOut = true →
      Completes .frameOutPulseEnd s
        (setF { s.dev with now := max s.dev.now (s.dev.pins.syncAt + 1000 * getF s.dev fSU_SYNCIO_PW_US), pins := { s.dev.pins with syncOut := false } } fSU_PINS_SYNC 0))

/-- The scalar arithmetic instructions (R152, R155, R157, R802): each that issues and is legal writes its operation's result to its
group, which goes on, and adds its flags and poison to its command. -/
def Obligations.ScalarArithmeticCompletes : Prop :=
  ArithCompletes .salu 4 (fun _ => []) (fun iw => [sSD iw, sSA iw, sSB iw]) (fun _ g iw => opSalu g iw)
  ∧ ArithCompletes .scmp 4 (fun _ => []) (fun iw => [sSD iw, sSA iw, sSB iw]) (fun _ g iw => opScmp g iw)
  ∧ ArithCompletes .salui 4 (fun _ => []) (fun iw => [sSD iw, sSA iw]) (fun _ g iw => opSalui g iw)
  ∧ ArithCompletes .scmpi 4 (fun _ => []) (fun iw => [sSD iw, sSA iw]) (fun _ g iw => opScmpi g iw)
  ∧ ArithCompletes .mov 4 (fun _ => []) (fun iw => [sSD iw, sSA iw]) (fun _ g iw => opMov g iw)
  ∧ ArithCompletes .movi 4 (fun _ => []) (fun iw => [sSD iw]) (fun _ g iw => opMovi g iw)
  ∧ ArithCompletes .movhi 4 (fun _ => []) (fun iw => [sSD iw, sSA iw]) (fun _ g iw => opMovhi g iw)
  ∧ ArithCompletes .movsr 4 (fun _ => []) (fun iw => [sSD iw]) (fun s g iw => opMovsr (timeBase s) (flagsOf s iw) g iw)
  ∧ ArithCompletes .p2s 4 (fun _ => []) (fun iw => [sSD iw]) (fun _ g iw => opP2s g iw)
  ∧ ArithCompletes .vread 4 (fun iw => [sMOD iw % 256]) (fun iw => [sSD iw]) (fun _ g iw => opVread g iw)

/-- The vector arithmetic instructions (R152, R155 to R157, R802), as the scalar ones. -/
def Obligations.VectorArithmeticCompletes : Prop :=
  ArithCompletes .valu 2 (fun iw => usesVR iw 1 1 1 1) (fun _ => []) (fun _ g iw => opValu g iw)
  ∧ ArithCompletes .valu64 2 (fun iw => usesVR iw 2 2 2 0) (fun _ => []) (fun _ g iw => opValu64 g iw)
  ∧ ArithCompletes .valui 2 (fun iw => usesVR iw 1 1 0 0) (fun _ => []) (fun _ g iw => opValui g iw)
  ∧ ArithCompletes .falu 2 (fun iw => usesVR iw 1 1 1 1) (fun _ => []) (fun _ g iw => opFalu g iw)
  ∧ ArithCompletes .falui 2 (fun iw => usesVR iw 1 1 0 0) (fun _ => []) (fun _ g iw => opFalui g iw)
  ∧ ArithCompletes .dalu 2 (fun iw => usesVR iw 2 2 2 2) (fun _ => []) (fun _ g iw => opDalu g iw)
  ∧ ArithCompletes .halu 2 (fun iw => usesVR iw 1 1 1 1) (fun _ => []) (fun _ g iw => opHalu g iw)
  ∧ ArithCompletes .cvt 2 (fun iw => usesVR iw 1 1 1 1) (fun _ => []) (fun s g iw => opCvt (seedOf s iw) g iw)
  ∧ ArithCompletes .cvtd 2 (fun iw => usesVR iw 1 2 1 1) (fun _ => []) (fun s g iw => opCvtd (seedOf s iw) g iw)
  ∧ ArithCompletes .cvt2d 2 (fun iw => usesVR iw 2 1 0 0) (fun _ => []) (fun _ g iw => opCvt2d g iw)
  ∧ ArithCompletes .fcmp 2 (fun iw => usesVR iw 0 1 1 0) (fun _ => []) (fun _ g iw => opFcmp g iw)
  ∧ ArithCompletes .icmp 2 (fun iw => usesVR iw 0 1 1 0) (fun _ => []) (fun _ g iw => opIcmp g iw)
  ∧ ArithCompletes .dcmp 2 (fun iw => usesVR iw 0 2 2 0) (fun _ => []) (fun _ g iw => opDcmp g iw)
  ∧ ArithCompletes .sel 2 (fun iw => usesVR iw 1 1 1 0) (fun _ => []) (fun _ g iw => opSel g iw)
  ∧ ArithCompletes .plog 2 (fun _ => []) (fun _ => []) (fun _ g iw => opPlog g iw)
  ∧ ArithCompletes .shfl 2 (fun iw => usesVR iw 1 1 1 0) (fun _ => []) (fun _ g iw => opShfl g iw)
  ∧ ArithCompletes .bcast 2 (fun iw => usesVR iw 1 1 0 0) (fun _ => []) (fun _ g iw => opBcast g iw)
  ∧ ArithCompletes .vote 2 (fun _ => []) (fun iw => [iVD iw % 64]) (fun _ g iw => opVote g iw)

/-- Control (R158, R801, R123, R198, R205): NOP and a WAIT whose tokens are zero go on; a uniform BRA goes to its target or on; SPLIT pushes
its JOIN entry and, where lanes part, an ELSE entry; LOOP pushes its entry; JOIN pops to the topmost entry with live lanes; BREAK takes
its lanes out of the loop; EXIT retires the active lanes, and a group with none left ends; TRAP raises its exception unless debug is
authorised. -/
def Obligations.ControlCompletes : Prop :=
  (∀ (s : State) (iw : IWord) (g : Group), ControlRuns s.dev iw false false g →
      Completes (.nop iw) s (countIssue (putGroup s.dev iw g.next) iw 4 g))
  ∧ (∀ (s : State) (iw : IWord) (g : Group), ControlRuns s.dev iw true false g →
    (g.act &&& predMask g iw = 0 → Completes (.bra iw) s (countIssue (putGroup (condPoison s.dev iw g) iw g.next) iw 4 g))
    ∧ (g.act &&& predMask g iw = g.act → g.act ≠ 0 → Completes (.bra iw) s (countIssue (putGroup (condPoison s.dev iw g) iw { g with pc := target g (cT1 iw) }) iw 4 g)))
  ∧ (∀ (s : State) (iw : IWord) (g : Group) (t f : BitVec 32) (j : StackEntry), ControlRuns s.dev iw true true g →
    t = g.act &&& predMask g iw → f = g.act &&& ~~~(predMask g iw) → j = { kind := .join, pc := target g (cT2 iw), mask := g.act } → g.stack.length + 2 ≤ 32 →
    (t = 0 → Completes (.split iw) s (countIssue (putGroup (condPoison s.dev iw g) iw { g with stack := j :: g.stack, act := f, pc := target g (cT1 iw) }) iw 4 g))
    ∧ (t ≠ 0 → f = 0 → Completes (.split iw) s (countIssue (putGroup (condPoison s.dev iw g) iw { g with stack := j :: g.stack, act := t, pc := g.pc + 8 }) iw 4 g))
    ∧ (t ≠ 0 → f ≠ 0 → Completes (.split iw) s
        (countIssue (putGroup (condPoison s.dev iw g) iw { g with stack := { kind := .els, pc := target g (cT1 iw), mask := f } :: j :: g.stack, act := t, pc := g.pc + 8 }) iw 4 g)))
  ∧ (∀ (s : State) (iw : IWord) (g : Group) (act : BitVec 32) (pc : Word) (st : List StackEntry), ControlRuns s.dev iw false false g → execOnce g iw = true →
    popNext g.live g.stack = some (act, pc, st) →
      Completes (.join iw) s (countIssue (putGroup s.dev iw { g with act := act, pc := pc, stack := st }) iw 4 g))
  ∧ (∀ (s : State) (iw : IWord) (g : Group), ControlRuns s.dev iw true false g → execOnce g iw = true → g.stack.length < 32 →
      Completes (.loop iw) s (countIssue (putGroup s.dev iw { g with stack := { kind := .loop, pc := target g (cT1 iw), mask := g.act } :: g.stack, pc := g.pc + 8 }) iw 4 g))
  ∧ (∀ (s : State) (iw : IWord) (g : Group) (b : BitVec 32), ControlRuns s.dev iw false false g → g.stack.any (fun e => e.kind == .loop) = true →
    b = g.act &&& predMask g iw →
    (g.act &&& ~~~b ≠ 0 →
      Completes (.breakI iw) s (countIssue (putGroup (condPoison s.dev iw g) iw { g with stack := maskToLoop b g.stack, act := g.act &&& ~~~b, pc := g.pc + 8 }) iw 4 g))
    ∧ (∀ (act : BitVec 32) (pc : Word) (st : List StackEntry), g.act &&& ~~~b = 0 → popToLoop g.live (maskToLoop b g.stack) = some (act, pc, st) →
      Completes (.breakI iw) s (countIssue (putGroup (condPoison s.dev iw g) iw { g with act := act, pc := pc, stack := st }) iw 4 g)))
  ∧ (∀ (s : State) (iw : IWord) (g : Group), ControlRuns s.dev iw false false g → execOnce g iw = true →
    (g.live &&& ~~~g.act = 0 →
      Completes (.exit iw) s
        (countIssue (pokeCore (blockEnd (putGroup s.dev iw { g with live := 0, act := 0, hold := .exited, stack := [], pend := none, arr := 0 }) iw.core iw.slot) iw.core) iw 4 g))
    ∧ (∀ (act : BitVec 32) (pc : Word) (st : List StackEntry), g.live &&& ~~~g.act ≠ 0 → g.pend = none → popNext (g.live &&& ~~~g.act) g.stack = some (act, pc, st) →
      Completes (.exit iw) s
        (countIssue (safePoint (putGroup s.dev iw { g with live := g.live &&& ~~~g.act, act := act, pc := pc, stack := st }) iw) iw 4 g)))
  ∧ (∀ (s : State) (iw : IWord) (g : Group), ControlRuns s.dev iw false true g → cT2 iw < 2 ^ 16 - 1 → execOnce g iw = true →
    (bitsOf 16 (cT2 iw)).any (fun k => tabGet (fun _ => 0) g.tok k != 0) = false →
      Completes (.tokenWait iw) s (countIssue (putGroup s.dev iw g.next) iw 4 g))
  ∧ (∀ (s : State) (iw : IWord) (g : Group), ControlRuns s.dev iw false false g → execOnce g iw = true →
    (debugOn s.dev = false → Completes (.trap iw) s (countIssue (raiseExc s.dev iw.core iw.slot 0x0A) iw 4 g))
    ∧ (debugOn s.dev = true → Completes (.trap iw) s (countIssue (whoaStop (putGroup s.dev iw g.next) 2) iw 4 g)))

/-- Loads and stores of global memory (R162, R164, R173, R174, R176 to R178): a load sends one request per line and leaves its registers pending;
a store enters its lines into the buffer. The vector forms act on the executing lanes, the scalar forms once. -/
def Obligations.GlobalAccessesComplete : Prop :=
  (∀ (s : State) (iw : IWord) (g : Group) (sh : LoadShape) (d : Dev) (l : List LaneAcc),
    Issues s.dev iw (coverV (iVD iw) (sizeRegs (mSIZE iw)) ++ coverV (iVA iw) (1 + mAMODE iw)) [mSB iw] g → ldLegal g iw = true → memHeld s.dev iw.core iw.slot (mORD iw == 1) = false →
    sh = { vd := iVD iw, size := sizeBytes (mSIZE iw), sext := mSEXT iw == 1, scalar := false, acq := mORD iw == 1, vol := mORD iw == 2, scope := mSCOPE iw, l1h := mL1H iw, dead := mDEAD iw == 1 } →
    LoadGoes s.dev iw g sh ((lanesOf (execMask g iw)).map (fun l => (l, memAddr g iw l))) d l →
      CompletesM (.ld iw) s (countIssue (loadEffect iw g sh (addrPoison g iw) (coverV (iVD iw) (sizeRegs (mSIZE iw))) [] d l) iw 2 g))
  ∧ (∀ (s : State) (iw : IWord) (g : Group) (sh : LoadShape) (d : Dev) (l : List LaneAcc),
    Issues s.dev iw [] [iVD iw, mSB iw] g → ldsLegal iw = true → scopeLegal (mORD iw) (mSCOPE iw) true = true → mL1H iw < 3 → execOnce g iw = true → memHeld s.dev iw.core iw.slot (mORD iw == 1) = false →
    sh = { vd := iVD iw, size := sizeBytes (mSIZE iw), sext := false, scalar := true, acq := mORD iw == 1, vol := mORD iw == 2, scope := mSCOPE iw, l1h := mL1H iw, dead := mDEAD iw == 1 } →
    LoadGoes s.dev iw g sh [(0, wrapNat 64 (((getS g (mSB iw)).toNat : Int) + mOFF iw))] d l →
      CompletesM (.lds iw) s (countIssue (loadEffect iw g sh (fun _ => getSP g (mSB iw) || predPoisonAny g iw) [] [iVD iw] d l) iw 4 g))
  ∧ (∀ (s : State) (iw : IWord) (g : Group) (d d3 : Dev) (l : List LaneAcc) (m : BitVec 32) (pz : Nat → Bool),
    Issues s.dev iw (coverV (iVD iw) (sizeRegs (mSIZE iw)) ++ coverV (iVA iw) (1 + mAMODE iw)) [mSB iw] g → ldLegal g iw = true → mSEXT iw = 0 → scopeLegal (mORD iw) (mSCOPE iw) false = true →
    mL1H iw = 0 → mDEAD iw = 0 → memHeld s.dev iw.core iw.slot (mORD iw == 1) = false → pz = (fun l => addrPoison g iw l || getVPn g (iVD iw) l (sizeRegs (mSIZE iw))) →
    StoreGoes s.dev iw g (sizeBytes (mSIZE iw)) (mSCOPE iw) (mORD iw == 1) ((lanesOf (execMask g iw)).map (fun l => (l, memAddr g iw l)))
      (fun l => getVn g (iVD iw) l (sizeRegs (mSIZE iw))) pz d d3 l m →
      CompletesM (.st iw) s (countIssue (storeEffect iw g pz d3 l m) iw 2 g))
  ∧ (∀ (s : State) (iw : IWord) (g : Group) (d d3 : Dev) (l : List LaneAcc) (m : BitVec 32) (pz : Nat → Bool),
    Issues s.dev iw [] [iVD iw, mSB iw] g → ldsLegal iw = true → scopeLegal (mORD iw) (mSCOPE iw) false = true → mL1H iw = 0 → mDEAD iw = 0 → execOnce g iw = true →
    memHeld s.dev iw.core iw.slot (mORD iw == 1) = false → pz = (fun _ => getSP g (mSB iw) || getSP g (iVD iw) || predPoisonAny g iw) →
    StoreGoes s.dev iw g (sizeBytes (mSIZE iw)) (mSCOPE iw) (mORD iw == 1) [(0, wrapNat 64 (((getS g (mSB iw)).toNat : Int) + mOFF iw))]
      (fun _ => (getS g (iVD iw)).toNat) pz d d3 l m →
      CompletesM (.sts iw) s (countIssue (storeEffect iw g pz d3 l m) iw 4 g))

/-- Local memory and atomics (R160, R161, R175, R179, R182 to R184): a load of local memory writes each lane's element, a store each lane's
value, an atomic updates each lane's element in ascending order of lanes; a global atomic, LDR or STC sends one request per line. -/
def Obligations.LocalAndAtomicComplete : Prop :=
  (∀ (s : State) (iw : IWord) (g g2 : Group) (b : Block) (l : List LaneAcc) (pz : Bool),
    Issues s.dev iw (coverV (iVD iw) (sizeRegs (mSIZE iw)) ++ coverV (iVA iw) 1) [mSB iw] g → ldLegal g iw = true → lmLegal iw = true → memHeld s.dev iw.core iw.slot false = false →
    blockOf s.dev iw.core iw.slot = some b → lmAddrs b (sizeBytes (mSIZE iw)) ((lanesOf (execMask g iw)).map (fun l => (l, memAddr g iw l))) = .ok l →
    l.foldl (fun (acc : Group × Bool) a =>
      (setVn acc.1 (iVD iw) a.lane ((lmRead (getCore s.dev iw.core) (b.lmBase * 1024) a.va (sizeBytes (mSIZE iw))).2 || addrPoison g iw a.lane) (sizeRegs (mSIZE iw))
        (extElem (sizeBytes (mSIZE iw)) (mSEXT iw == 1) (lmRead (getCore s.dev iw.core) (b.lmBase * 1024) a.va (sizeBytes (mSIZE iw))).1),
        acc.2 || ((lmRead (getCore s.dev iw.core) (b.lmBase * 1024) a.va (sizeBytes (mSIZE iw))).2 || addrPoison g iw a.lane))) (g, false) = (g2, pz) → pz = false →
      Completes (.ldl iw) s
        (countIssue (putGroup (countCore s.dev iw.core 0x0C (lmReplays (sizeBytes (mSIZE iw)) (l.map (fun a => (a.lane, a.va))))) iw g2.next) iw 2 g))
  ∧ (∀ (s : State) (iw : IWord) (g : Group) (b : Block) (l : List LaneAcc),
    Issues s.dev iw (coverV (iVD iw) (sizeRegs (mSIZE iw)) ++ coverV (iVA iw) 1) [mSB iw] g → ldLegal g iw = true → lmLegal iw = true → mSEXT iw = 0 → memHeld s.dev iw.core iw.slot false = false →
    blockOf s.dev iw.core iw.slot = some b → lmAddrs b (sizeBytes (mSIZE iw)) ((lanesOf (execMask g iw)).map (fun l => (l, memAddr g iw l))) = .ok l →
    l.any (fun a => addrPoison g iw a.lane || getVPn g (iVD iw) a.lane (sizeRegs (mSIZE iw))) = false →
      Completes (.stl iw) s
        (countIssue (putGroup (countCore (modCore s.dev iw.core (fun c => l.foldl (fun c a =>
            lmWrite c (b.lmBase * 1024) a.va (sizeBytes (mSIZE iw)) (getVn g (iVD iw) a.lane (sizeRegs (mSIZE iw))) (addrPoison g iw a.lane || getVPn g (iVD iw) a.lane (sizeRegs (mSIZE iw)))) c))
          iw.core 0x0C (lmReplays (sizeBytes (mSIZE iw)) (l.map (fun a => (a.lane, a.va))))) iw g.next) iw 2 g))
  ∧ (∀ (s : State) (iw : IWord) (g g2 : Group) (b : Block) (c : Core) (l : List LaneAcc) (fl : ArithFlags), Issues s.dev iw (atmUses iw (1 + aW64 iw)) [mSB iw] g → atomLegal g iw = true →
    memHeld s.dev iw.core iw.slot (aORD iw != 0) = false → aSPACE iw = 1 → blockOf s.dev iw.core iw.slot = some b →
    lmAddrs b (4 * (1 + aW64 iw)) ((lanesOf (execMask g iw)).map (fun l => (l, atmAddr g iw l))) = .ok l → atomLanes s.dev iw g b l = (c, g2, false, fl) →
      CompletesM (.atom iw) s
        (countIssue (countCore (orFlags (putGroup (setCore s.dev iw.core c) iw g2.next) g.cmd fl) iw.core 0x0C (lmReplays (4 * (1 + aW64 iw)) (l.map (fun a => (a.lane, a.va))))) iw 2 g))
  ∧ (∀ (s : State) (iw : IWord) (g : Group) (d : Dev) (l : List LaneAcc), Issues s.dev iw (atmUses iw (1 + aW64 iw)) [mSB iw] g → atomLegal g iw = true →
    memHeld s.dev iw.core iw.slot (aORD iw != 0) = false → aSPACE iw ≠ 1 → AtomGoes s.dev iw g true d l →
      CompletesM (.atom iw) s (countIssue (atomEffect iw g .atom (coverV (iVD iw) (1 + aW64 iw)) d l) iw 2 g))
  ∧ (∀ (s : State) (iw : IWord) (g : Group) (d : Dev) (l : List LaneAcc), Issues s.dev iw (atmUses iw (1 + aW64 iw)) [mSB iw] g → resvLegal g iw false = true →
    memHeld s.dev iw.core iw.slot (aORD iw != 0) = false → AtomGoes s.dev iw g false d l →
      CompletesM (.ldr iw) s (countIssue (atomEffect iw g .ldr (coverV (iVD iw) (1 + aW64 iw)) d l) iw 2 g))
  ∧ (∀ (s : State) (iw : IWord) (g : Group) (d : Dev) (l : List LaneAcc), Issues s.dev iw (atmUses iw 1) [mSB iw] g → resvLegal g iw true = true →
    memHeld s.dev iw.core iw.slot (aORD iw != 0) = false → AtomGoes s.dev iw g true d l →
      CompletesM (.stc iw) s (countIssue (atomEffect iw g .stc (coverV (iVD iw) 1) d l) iw 2 g))

/-- Fences and barriers (R187 to R196): a fence of no store goes on once its group's loads have returned, with the L1 invalidated beyond core
scope; a fence of stores once they have been performed; a barrier of a group that has arrived whole is entered; it completes when every
participant has arrived; its watchdog raises the exception. -/
def Obligations.SynchronisationCompletes : Prop :=
  (∀ (s : State) (iw : IWord) (g : Group) (d : Dev), Issues s.dev iw [] [] g → execOnce g iw = true → (yASYNC iw = 1 → g.tok.any (fun e => e.2 != 0) = false) →
    d = (if ySCOPE iw != 0 then sealFor s.dev iw.core else s.dev) →
    (fenceLegal iw 1 = true → loadsReturned s.dev iw.core iw.slot = true →
      Completes (.fenceL iw) s (countIssue (putGroup (if ySCOPE iw != 0 then l1Flash s.dev iw.core else s.dev) iw g.next) iw 2 g))
    ∧ (fenceLegal iw 2 = true → releaseWait d iw.core iw.slot (ySCOPE iw) g = .done →
      Completes (.fenceS iw) s (countIssue (putGroup d iw g.next) iw 2 g))
    ∧ (fenceLegal iw 3 = true → releaseWait d iw.core iw.slot (ySCOPE iw) g = .done →
      loadsReturned d iw.core iw.slot = true →
      Completes (.fenceLs iw) s
        (countIssue (putGroup (if ySCOPE iw != 0 then l1Flash d iw.core else d) iw g.next) iw 2 g)))
  ∧ (∀ (s : State) (iw : IWord) (g : Group), Issues s.dev iw [] [] g → barLegal s.dev iw g = true → execOnce g iw = true → (g.pend = none ∨ g.pend = some (ySCOPE iw, yBID iw)) →
    (g.arr ||| g.act) &&& g.live = g.live → releaseWait s.dev iw.core iw.slot (ySCOPE iw) g = .done → markedPending s.dev iw.core iw.slot = false →
      Completes (.bar iw) s
        (countIssue (safePoint (putGroup (sealFor s.dev iw.core) iw
          { g with pend := some (ySCOPE iw, yBID iw), arr := g.arr ||| g.act, hold := .barrier (ySCOPE iw) (yBID iw) s.dev.now false }) iw) iw 2 g))
  ∧ (∀ (s : State) (core : Fin 768) (slot : Fin 16) (g : Group) (scope bid since : Nat) (atExit : Bool) (ps : List (Nat × Nat × Group)), whoaStopped s.dev = false →
    getGroup s.dev core slot = some g → g.hold = .barrier scope bid since atExit → ps = participants s.dev.cores core g scope →
    s.dev.saved.flatMap (fun x => participants x.cores core g scope) = [] → ps.all (fun p => arrived p.2.2 scope bid) = true →
      Completes (.barrierComplete core slot) s
        (ps.foldl (fun s p => passBarrier s p.1 p.2.1 p.2.2) (if scope = 0 then s.dev else ((ps.map (fun p => p.1)).eraseDups).foldl (fun s c => l1Flash s c) s.dev)))
  ∧ (∀ (s : State) (core : Fin 768) (slot : Fin 16) (g : Group) (c : Cmd) (scope bid since : Nat) (atExit : Bool), whoaStopped s.dev = false →
    getGroup s.dev core slot = some g → getCmd s.dev g.cmd = some c → (g.hold = .barrier scope bid since atExit ∨ g.hold = .stuckBar since) →
      Completes (.barrierWatchdog core slot) s (raiseExc { s.dev with now := max s.dev.now (since + wdCycles c.desc / 2) } core slot 0x09))

/-- Requests at their homes (R286, R290 to R292, R301 to R303, R356, R388): a read that its home can serve is served, one that misses opens or joins
its line's miss; a miss filled serves its readers, then the operations queued on its line; an atomic is performed at its home, is queued on a
fill, or waits for the near-memory adder, which performs it; a load whose last response has come writes its registers. -/
def Obligations.HomeRequestsComplete : Prop :=
  (∀ (s : State) (core : Fin 768) (id home : Nat) (r : MemReq), ReadReaches s.dev core id home r →
    (∀ (d : Dev) (a : RdRes), readMisses s.dev core r home = false → lineRead s.dev core r.tag (r.line * 512) r.attr r.sectors = (d, a) →
      CompletesM (.homeRead core id .ok) s (answerRead d core r a))
    ∧ (readMisses s.dev core r home = true → s.dev.ms.misses.find? (fun m => m.slice == home && m.line == r.line) = none →
      (s.dev.ms.misses.filter (fun m => m.slice == home)).length < 256 →
      CompletesM (.homeRead core id .ok) s
        (modReq (modMs s.dev (fun x => { x with misses := x.misses ++ [openMiss home r r.sectors [.core core r.id]] })) core r.id (fun r => { r with waiting := true })))
    ∧ (∀ m : MissEntry, readMisses s.dev core r home = true → s.dev.ms.misses.find? (fun m => m.slice == home && m.line == r.line) = some m →
      m.reqs.length + (s.dev.ms.redQ.filter (fun q => q.home == home && q.line == r.line)).length < 64 →
      CompletesM (.homeRead core id .ok) s
        (modReq (modMs s.dev (fun x => { x with misses := updFirst (fun m => m.slice == home && m.line == r.line) (fun m => { m with reqs := m.reqs ++ [.core core r.id] }) x.misses }))
          core r.id (fun r => { r with waiting := true }))))
  ∧ (∀ (s : State) (slice : Fin 32) (line : Nat) (resp : CxlResp) (d d1 d2 : Dev) (m : MissEntry) (held : List HeldOp) (ops : List RedOp) (live : List (Nat × MemReq)),
    whoaStopped s.dev = false → d = modMs s.dev (fun m => { m with resp := some (line, resp) }) →
    d.ms.misses.find? (fun m => m.slice == slice.val && m.line == line) = some m → (isNear (m.backing * 512) = true → d.pw.sleeping.getLsbD (nField (m.backing * 512) 39 37) = false) →
    adderPending d line = false → ops = d.ms.redQ.filter (fun q => q.home == m.slice && q.line == m.line) → takeHeld d m.slice m.line = (d1, held) →
    d2 = setPin (modMs d1 (fun x => { x with misses := x.misses.filter (fun e => !(e.slice == m.slice && e.line == m.line)), redQ := x.redQ.filter (fun q => !(q.home == m.slice && q.line == m.line)) })) m.slice m.line 0 →
    live = m.reqs.filterMap (fun q => match q with
      | .core c i => (getReq d2 c i).map (fun r => (c, r))) →
      (live = [] → ops = [] → CompletesM (.missFill slice line resp) s
        (modMs (settleDrains (releaseHeld (cohRead d2 none m.tag (m.line * 512) m.attr m.sectors .demand).1 m.slice m.line held)) (fun m => { m with resp := none })))
      ∧ (live ≠ [] ∨ ops ≠ [] → CompletesM (.missFill slice line resp) s
        (modMs (settleDrains (releaseHeld (ops.foldl (fun s q => match getReq s q.core q.req with
            | some r => performAtom cohRmw s q.core r
            | none => s)
          (live.foldl (fun s q => serveRead s q.1 q.2) ((live.drop 1).foldl (fun s q => countRegion s (coreRegion q.1) (if isFar (512 * m.line) then 0x44 else 0x43) 1) d2))) m.slice m.line held))
          (fun m => { m with resp := none }))))
  ∧ (∀ (s : State) (core : Fin 768) (id home : Nat) (r : MemReq), AtomReaches s.dev core id home r →
    (rmwPlace s.dev home r.line r.attr (opKind r) r.sectors = .adder → CompletesM (.homeAtomic core id .ok) s
      (modReq (modMs s.dev (fun x => { x with adderQ := x.adderQ ++ [redOpOf core home r] })) core r.id (fun r => { r with waiting := true })))
    ∧ (rmwPlace s.dev home r.line r.attr (opKind r) r.sectors = .fill → s.dev.ms.misses.find? (fun m => m.slice == home && m.line == r.line) = none →
      missFull s.dev home r.line = false → CompletesM (.homeAtomic core id .ok) s
      (modReq (modMs (pinFor (modMs s.dev (fun x => { x with misses := x.misses ++ [openMiss home r 255 []] })) home r) (fun x => { x with redQ := x.redQ ++ [redOpOf core home r] }))
        core r.id (fun r => { r with waiting := true })))
    ∧ (∀ (d : Dev) (a : AtomRes), (rmwPlace s.dev home r.line r.attr (opKind r) r.sectors = .held ∨ rmwPlace s.dev home r.line r.attr (opKind r) r.sectors = .drop) →
      atomServe cohRmw s.dev core r.tag r = (d, a) → CompletesM (.homeAtomic core id .ok) s (answerAtom d core r a)))
  ∧ (∀ (s : State) (core : Fin 768) (id : Nat) (r : MemReq) (q : RedOp) (d d2 : Dev) (a : AtomRes), whoaStopped s.dev = false → getReq s.dev core id = some r →
    s.dev.ms.adderQ.find? (fun q => q.line == r.line) = some q → q.core = core.val → q.req = id → isNear (backingOf (r.line * 512) r.attr.home) = true →
    d = modMs (countDie s.dev (nField (backingOf (r.line * 512) r.attr.home) 39 37) 0x83 (bitsOf 8 r.sectors.toNat).length)
      (fun m => { m with adderQ := m.adderQ.filter (fun q => !(q.core == core.val && q.req == id)) }) →
    atomServe adderRmw d core r.tag r = (d2, a) →
      CompletesM (.adderOperation core id .none) s (answerAtom d2 core r a))
  ∧ (∀ (s : State) (core : Fin 768) (id : Nat) (r : MemReq) (d d2 : Dev) (rs : List MemReq), whoaStopped s.dev = false → getReq s.dev core id = some r → r.served = true → r.returned = false →
    d = modReq (if r.l1alloc = 0 ∨ r.sectors = 0 ∨ tso s.dev = true then s.dev
      else l1Fill s.dev core r.line r.va (mergeBytes 512 r.data r.fwd r.fwdMask.toNat) r.sectors (r.poison ||| r.fwdPoison) (r.l1alloc == 2)) core id (fun r => { r with returned := true }) →
    rs = (getCore d core).reqs.filter (fun x => x.instr == r.instr) → rs.all (fun x => x.returned) = true →
    d2 = loadMarks (modCore (writeBack' d core rs) core (fun c => { c with reqs := c.reqs.filter (fun x => x.instr != r.instr) })) rs →
      CompletesM (.loadResponse core id) s (pokeCore (if r.acq && r.scope != 0 then l1Flash d2 core else d2) core))

/-- The store buffer (R348 to R353): the oldest entry that may go is sent to its home, or applied at its window; an open entry is sealed 256 cycles
after its first store; an entry at its home is applied there; its acknowledgement frees it. -/
def Obligations.StoreBufferCompletes : Prop :=
  (∀ (s : State) (core : Fin 768) (e : SbEntry), whoaStopped s.dev = false → (getCore s.dev core).sb.find? (fun e => maySend s.dev core (getCore s.dev core) e) = some e →
    (placeOf s.dev (e.line * 512) = .tier → creditsFor s.dev core sbSlot 1 = true →
      CompletesM (.sbSend core) s (modSb { takeCredit s.dev core sbSlot with nextKey := s.dev.nextKey + 1 } core e.seq (fun e => { e with st := .sent, sentNo := s.dev.nextKey })))
    ∧ (∀ d : Dev, placeOf s.dev (e.line * 512) ≠ .tier → sbApply s.dev core e = (d, none) → CompletesM (.sbSend core) s (sbGone d core e.tag)))
  ∧ (∀ (s : State) (core : Fin 768) (seq : Nat) (e : SbEntry), whoaStopped s.dev = false → (getCore s.dev core).sb.find? (fun e => e.seq == seq) = some e → e.st = .open →
      Completes (.sbOpenExpiry core seq) s (modSb { s.dev with now := max s.dev.now (e.since + 128) } core seq (fun e => { e with st := .sealed })))
  ∧ (∀ (s : State) (core : Fin 768) (seq home : Nat) (e : SbEntry) (d : Dev), whoaStopped s.dev = false → (getCore s.dev core).sb.find? (fun e => e.seq == seq) = some e → e.st = .sent →
    e.applied = false → pgHeld s.dev (e.line * 512) = false → writeBehind s.dev core e = false → homeAgent s.dev (e.line * 512) e.attr.home = some home → tagsFree s.dev core home = true →
    sbApply s.dev core e = (d, none) →
      CompletesM (.homeWrite core seq .ok) s (sbGone d core e.tag))
  ∧ (∀ (s : State) (core : Fin 768) (seq : Nat) (e : SbEntry), whoaStopped s.dev = false → (getCore s.dev core).sb.find? (fun e => e.seq == seq) = some e → e.st = .sent → e.applied = true →
    e.peer = none → CompletesM (.sbAck core seq) s (sbGone (freeSb (farDone s.dev seq) core seq) core e.tag))

/-- The coherent system (R296, R298, R308, R310, R311, R336, R337): a range operation begins, and ends with the dirty map cleared for the frames
it covered where it takes every tag; arming ordered reductions forgets the slice's; the ordering mode is written; an agent silent for
20 us is dropped from the domain. -/
def Obligations.CoherenceCompletes : Prop :=
  (∀ (s : State) (port : Fin 2) (tagsel : Bool) (tag : Fin 32), SetupTaken s.dev port offCD_RANGE_CMD → getF s.dev fCD_RANGE_CMD_BUSY ≠ 1 → getF s.dev fCD_RANGE_LEN_LINES ≠ 0 →
    (∀ d, d = rangeStarted (setF (writeReg s.dev offCD_RANGE_CMD (rangeWord 1 tagsel tag)) fCD_RANGE_CMD_BUSY 1) → Completes (.flush port tagsel tag) s (rangeLines .flush 0 d (rangeHits d)))
    ∧ (∀ d, d = rangeStarted (setF (writeReg s.dev offCD_RANGE_CMD (rangeWord 2 tagsel tag)) fCD_RANGE_CMD_BUSY 1) → Completes (.invalidate port tagsel tag) s (rangeLines .inval 0 d (rangeHits d)))
    ∧ (∀ d, d = rangeStarted (setF (writeReg s.dev offCD_RANGE_CMD (rangeWord 3 tagsel tag)) fCD_RANGE_CMD_BUSY 1) → Completes (.flushInv port tagsel tag) s (rangeLines .flushInv 0 d (rangeHits d))))
  ∧ (∀ (s : State) (b n : Nat) (tags : Bool) (d : Dev), getF s.dev fCD_RANGE_CMD_BUSY ≠ 0 → s.dev.ms.range = some (b, n, tags) →
    s.dev.ms.heldOps.any (fun q => q.owner == 0 && decide (q.op < 3)) = false → d = setF (modMs s.dev (fun m => { m with range := none })) fCD_RANGE_CMD_BUSY 0 →
      Completes .rangeDone s (if tags then d else clearMap d (fun f => decide (b ≤ 128 * f) && decide (128 * f + 128 ≤ b + n))))
  ∧ (∀ (s : State) (port : Fin 2) (slice : Fin 16) (data : Word), SetupTaken s.dev port (offCD_SLICE_CFG slice) →
      Completes (.oredArm port slice data) s (ordClear (writeReg s.dev (offCD_SLICE_CFG slice) (data ||| 2)) slice))
  ∧ (∀ (s : State) (port : Fin 2), SetupTaken s.dev port offCD_ORDER →
      Completes (.modeWrite port true) s (enterTso s.dev)
      ∧ (getF s.dev fCD_STATUS_DROP_ACTIVE = 0 → s.dev.selfTest = 0 → Completes (.modeWrite port false) s (setF s.dev fCD_ORDER_MODE 0)))
  ∧ (∀ (s : State) (silent : BitVec 36) (dead : Nat), whoaStopped s.dev = false → dead = Nat.land silent.toNat (getF s.dev fCD_STATUS_MEMBERS) → dead ≠ 0 →
    (dead.testBit 32 && dead.testBit 33) = false → (dead.testBit 34 && dead.testBit 35) = false →
      Completes (.heartbeatExpiry silent) s (domainDrop s.dev { Drop.none with dead := dead, hub := none }))

/-- The matrix unit (R101, R120 to R128, R131, R132): MMA, ALOAD and DRAIN enter their core's queue, with a token raised; the oldest of a lane starts
when its lane has room and no older operation has its tile; on completion an MMA writes its tile, an ALOAD loads it, a DRAIN to memory writes its
rows, a DRAIN to the fabric has had its beats taken, and the tile is cleared where ZERO is set; flags and poison go to the command and the token is lowered. -/
def Obligations.MatrixCompletes : Prop :=
  (∀ (s : State) (iw : IWord) (g : Group) (o : MxOp) (qs : List TrkReq),
    (MatrixGoes s.dev iw 1 g o qs → Completes (.mma iw) s (countIssue (mxQueued s.dev iw g o qs) iw 3 g))
    ∧ (MatrixGoes s.dev iw 2 g o qs → Completes (.aload iw) s (countIssue (mxQueued s.dev iw g o qs) iw 3 g))
    ∧ (MatrixGoes s.dev iw 3 g o qs → Completes (.drain iw) s (countIssue (mxQueued s.dev iw g o qs) iw 3 g)))
  ∧ (∀ (s : State) (core : Fin 768) (o : MxOp) (d : Dev), whoaStopped s.dev = false → nextStart (getCore s.dev core) [] (getCore s.dev core).mq = some o →
    d = modCore s.dev core (fun c => { c with mq := c.mq.filter (fun x => x.id != o.id) }) →
    (xcOP o.ctrl = 1 → Completes (.matrixLaneStart core) s (startMma d core o))
    ∧ (xcOP o.ctrl = 2 ∨ (xcOP o.ctrl = 3 ∧ xcDEST o.ctrl = false) → Completes (.matrixLaneStart core) s (modCore d core (fun c => { c with xferLane := some o })))
    ∧ (xcOP o.ctrl = 3 → xcDEST o.ctrl = true → drainBound (getCl d (coreCluster core)) (xcPORT o.ctrl) = true →
      Completes (.matrixLaneStart core) s (startFabDrain (modCore d core (fun c => { c with xferLane := some o })) core o)))
  ∧ (∀ (s : State) (core : Fin 768) (o : MxOp) (t : Tile) (fl : ArithFlags) (d : Dev), whoaStopped s.dev = false → (getCore s.dev core).arrayLane = some o →
    mmaTile o (getTile (getCore s.dev core) (xcTILE o.ctrl)) = (t, fl) →
    d = countCore (setTile (modCore s.dev core (fun c => { c with arrayLane := c.arrayNext, arrayNext := none })) core (xcTILE o.ctrl) t) core 0x05 (mmaCycles o.ctrl) →
      Completes (.mmaComplete core) s
        (mxDone (if o.pzA || o.pzB || o.opPoison then markPoison (orFlags d o.cmd fl) o.cmd else orFlags d o.cmd fl) core o))
  ∧ (∀ (s : State) (core : Fin 768) (o : MxOp) (t : Tile) (d : Dev), whoaStopped s.dev = false → (getCore s.dev core).xferLane = some o → xcOP o.ctrl = 2 →
    t = aloadTile s.dev core o → d = setTile (modCore s.dev core (fun c => { c with xferLane := none })) core (xcTILE o.ctrl) t →
      Completes (.aloadComplete core) s (mxDone (if t.poison then markPoison d o.cmd else d) core o))
  ∧ (∀ (s : State) (core : Fin 768) (o : MxOp) (t : Tile) (d d2 : Dev), whoaStopped s.dev = false → (getCore s.dev core).xferLane = some o → xcOP o.ctrl = 3 →
    (xcDEST o.ctrl = true → beatsTaken (getCl s.dev (coreCluster core)) o = true) → t = getTile (getCore s.dev core) (xcTILE o.ctrl) →
    d = (if xcDEST o.ctrl then orFlags s.dev o.cmd (drainFlags t o (cmdSeed s.dev o.cmd)) else drainWrite (orFlags s.dev o.cmd (drainFlags t o (cmdSeed s.dev o.cmd))) core o) →
    d2 = modCore (if t.poison || o.opPoison then markPoison d o.cmd else d) core (fun c => { c with xferLane := none }) →
      Completes (.drainComplete core) s (mxDone (if xcZERO o.ctrl then setTile d2 core (xcTILE o.ctrl) Tile.init else d2) core o))

/-- The fabric (R198, R200 to R202, R209, R220, R223, R224, R232 to R236): FLOAD, FSWAP and FRUN enter their cluster's queue; a validated
image is in the shadow context and its FLOAD is done; FSWAP exchanges the contexts; a checked FRUN starts from a clear array; a beat, of the
scratchpad or of a DRAIN, at a port that takes one lets the fabric iterate; a run whose inputs have ended executes its last iterations, writes its
outputs and is done. -/
def Obligations.FabricCompletes : Prop :=
  (∀ (s : State) (iw : IWord) (g : Group) (o : FabOp) (qs : List TrkReq), Issues s.dev iw [] [xSD1 iw, xSD1 iw + 1] g → xRES iw = 0 → xSC iw = 0 → xSD2 iw = 0 → xSD1 iw % 2 = 0 → execOnce g iw = true →
    qs = [{ kind := .virt, lo := (getS g (xSD1 iw)).toNat, hi := (getS g (xSD1 iw)).toNat + 0x10000, va := none, part := 0, dst := false }] →
    AsyncRoom s.dev iw g (getCl s.dev (coreCluster iw.core)).fabQ.length 16 qs →
    o = { id := s.dev.nextKey, core := iw.core, slot := iw.slot, cmd := g.cmd, tok := xTOK iw, kind := .fload, arg0 := getS g (xSD1 iw), arg1 := 0, origin := 0, poison := asyPoison g iw [xSD1 iw], loaded := false } →
      Completes (.fload iw) s (countIssue (fabQueued s.dev iw g o qs) iw 3 g))
  ∧ (∀ (s : State) (iw : IWord) (g : Group) (o : FabOp), Issues s.dev iw [] [] g → xRES iw = 0 → xSC iw = 0 → xSD1 iw = 0 → xSD2 iw = 0 → execOnce g iw = true →
    AsyncRoom s.dev iw g (getCl s.dev (coreCluster iw.core)).fabQ.length 16 [] →
    o = { id := s.dev.nextKey, core := iw.core, slot := iw.slot, cmd := g.cmd, tok := xTOK iw, kind := .fswap, arg0 := 0, arg1 := 0, origin := 0, poison := asyPoison g iw [], loaded := false } →
      Completes (.fswap iw) s (countIssue (fabQueued s.dev iw g o []) iw 3 g))
  ∧ (∀ (s : State) (iw : IWord) (g : Group) (o : FabOp) (qs : List TrkReq), Issues s.dev iw [] [xSC iw, xSD1 iw, xSD2 iw] g → xRES iw = 0 → execOnce g iw = true →
    qs = frunRanges s.dev iw.core (getS g (xSC iw)) (getS g (xSD1 iw)) → AsyncRoom s.dev iw g (getCl s.dev (coreCluster iw.core)).fabQ.length 16 qs →
    o = { id := s.dev.nextKey, core := iw.core, slot := iw.slot, cmd := g.cmd, tok := xTOK iw, kind := .frun, arg0 := getS g (xSC iw), arg1 := getS g (xSD1 iw), origin := getS g (xSD2 iw),
          poison := asyPoison g iw [xSC iw, xSD1 iw, xSD2 iw], loaded := false } →
      Completes (.frun iw) s (countIssue (fabQueued s.dev iw g o qs) iw 3 g))
  ∧ (∀ (s : State) (cl : Fin 192) (o : FabOp) (d d2 d3 : Dev) (h r : AccRes) (size img : Nat), whoaStopped s.dev = false → nextFload (getCl s.dev cl).fabQ = some o → o.arg0.toNat % 64 = 0 →
    readBytesVa s.dev (coreEntry o.core) (cmdTag s.dev o.cmd) o.arg0.toNat 64 = (d, h) → h.err = none →
    size = accNat ((h.bytes.drop 8).take 4) → size % 64 = 0 → 0x2900 ≤ size → size ≤ 0x10000 →
    readBytesVa (launchFor (0x400 + o.core) o.cmd d) (coreEntry o.core) (cmdTag s.dev o.cmd) o.arg0.toNat size = (d2, r) → r.err = none → img = accNat r.bytes → imageOk img = true →
    d3 = modCl (launchFor (0x400 + o.core) o.cmd d2) cl (fun c => modShadow c (fun _ => { image := img, valid := true })) →
      CompletesM (.floadValidated cl) s (fabDone (if anyPoison r.bytes then markPoison d3 o.cmd else d3) cl o))
  ∧ (∀ (s : State) (cl : Fin 192) (o : FabOp) (rest : List FabOp), whoaStopped s.dev = false → (getCl s.dev cl).fabQ = o :: rest → o.kind = .fswap → drainSending s.dev cl = false →
      Completes (.fswapEffect cl) s (fabDone (modCl s.dev cl (fun c => { c with actB := !c.actB })) cl o))
  ∧ (∀ (s : State) (cl : Fin 192) (o : FabOp) (rest : List FabOp), whoaStopped s.dev = false → (getCl s.dev cl).fabQ = o :: rest → (getCl s.dev cl).run = none → o.kind = .frun → frunCheck s.dev cl o = none →
      Completes (.frunStart cl none) s (modCl s.dev cl (fun c => { c with run := some (freshRun s.dev cl o) })))
  ∧ (∀ (s : State) (cl : Fin 192) (port : Fin 8) (r : FabRun) (img : Nat), whoaStopped s.dev = false → (getCl s.dev cl).run = some r →
    img = (actCtx (getCl s.dev cl)).image → (eINB img r.entry).testBit port = true → portOpen (getIn r port) = true → r.tail = none →
    (∀ (b : Beat) (fl : ArithFlags) (a : IterRes), (eDRB img r.entry).testBit port = false →
      spadBeat s.dev cl (ptEntry r.ptab port).1 (ptEntry r.ptab port).2 (getIn r port).next = (b, fl) →
      a = pumpRun img (cmdSeed s.dev r.op.cmd) 2 { r := setIn r port { getIn r port with ready := [b], next := (getIn r port).next + 1 }, fl := fl, poison := false, ovr := false } →
      a.ovr = false → Completes (.fabricBeat cl port none) s (noteRun s.dev cl r.iter false a))
    ∧ (∀ (b : Beat) (rest : List Beat) (d : Dev) (a : IterRes), (eDRB img r.entry).testBit port = true → tabGet (fun _ => []) (getCl s.dev cl).drainBeats port = b :: rest →
      d = modCl s.dev cl (fun c => { c with drainBeats := tabSet (fun _ => []) c.drainBeats port rest }) →
      a = pumpRun img (cmdSeed d r.op.cmd) 2 { r := setIn r port { getIn r port with ready := [b] }, fl := 0, poison := false, ovr := false } →
      a.ovr = false → Completes (.fabricBeat cl port none) s (noteRun d cl r.iter false a)))
  ∧ (∀ (s : State) (cl : Fin 192) (r : FabRun) (n : Nat) (a : IterRes), whoaStopped s.dev = false → (getCl s.dev cl).run = some r → r.tail = some n →
    a = tailRun (actCtx (getCl s.dev cl)).image (cmdSeed s.dev r.op.cmd) n { r := r, fl := 0, poison := false, ovr := false } → a.ovr = false →
      Completes (.runEnd cl none) s (fabDone (modCl (noteRun s.dev cl r.iter true a) cl (fun c => { c with run := none })) cl r.op))

/-- The tiers (R368, R369, R385, R389, R391, R392, R395, R396, R402, R406, R418, R656): an idle adder sector is written back; a far port or a
host window that fails is declared dead; a sector is scrubbed; a dead port is recovered, trained and unlatched; its reduced rate ends; the
backing table is loaded; an error is injected; a stack is lost with what it holds; an expander's event is recorded. -/
def Obligations.TiersComplete : Prop :=
  (∀ (s : State) (sector : Nat) (a : AdderSector), s.dev.ms.adders.find? (fun a => a.sector == sector) = some a →
      Completes (.adderFlushExpiry sector) s (adderFlush { s.dev with now := max s.dev.now (a.last + 2000) } (64 * sector)))
  ∧ (∀ (s : State) (f : Fin 4), getF s.dev (fMT_FAR_CAP_STATE f) = 1 →
      Completes (.farWriteTimeout f) s (farDies s.dev f) ∧ Completes (.farLinkDown f) s (farDies s.dev f))
  ∧ (∀ (s : State) (port : Fin 2), hostDead s.dev port = false →
      Completes (.hostCreditTimeout port) s
        (destRecord (hostDies s.dev port) 1 { sev := 2, cause := 0, die := 8 + port.val, unit := 0x0A, index := port.val, hubO := port.val == 1 }))
  ∧ (∀ (s : State) (sector : Nat), getF s.dev fMT_CFG_SCRUB_H ≠ 0 → isNear (64 * sector) = true → s.dev.pw.sleeping.getLsbD (nField (64 * sector) 39 37) = false →
    stackLost s.dev (stackOf (64 * sector)) = false → dieLost s.dev (nField (64 * sector) 39 37) = false →
      CompletesM (.scrubRead sector .none) s (tierRead s.dev (paOf s.dev (64 * sector)) (64 * sector) 0xFF).1)
  ∧ (∀ (s : State) (port : Fin 2) (f : Fin 4), SetupTaken s.dev port (offMT_FAR_CTL f) →
    (getF s.dev (fMT_FAR_CAP_STATE f) = 2 → Completes (.recover port f) s (modMs s.dev (fun m => { m with farRetrain := insSorted f m.farRetrain })))
    ∧ (getF s.dev (fMT_FAR_CAP_STATE f) = 3 → Completes (.unlatch port f) s (setF s.dev (fMT_FAR_CAP_STATE f) 1)))
  ∧ (∀ (s : State) (f : Fin 4) (result : FarTrain), s.dev.ms.farRetrain.contains f.val = true →
      Completes (.farRetrainDone f result) s
        (farShow (modMs s.dev (fun m => { m with farRetrain := delNat f m.farRetrain, devLoad := tabSet (fun _ => 1) m.devLoad f 1 })) f 3 result))
  ∧ (∀ (s : State) (f : Fin 4), Completes (.devloadExpiry f) s (modMs s.dev (fun m => { m with devLoad := tabSet (fun _ => 1) m.devLoad f 1 })))
  ∧ (∀ (s : State) (port : Fin 2) (entries : Fin 1025) (d d2 : Dev) (l : List (Word × Word)), SetupTaken s.dev port offMT_BACK_CTL →
    d = writeReg s.dev offMT_BACK_CTL (BitVec.ofNat 64 (2 ^ 16 + entries.val)) → readBack (64 * getF d fMT_BACK_BASE_BASE) (getF d fMT_BACK_CTL_ENTRIES) d = (d2, l) →
      CompletesM (.load port entries) s (setF (modMs d2 (fun m => { m with backTable := l })) fMT_BACK_CTL_LOADED 1))
  ∧ (∀ (s : State) (port : Fin 2) (kind : Fin 4) (sector : BitVec 42) (d : Dev), SetupTaken s.dev port offMT_INJECT → debugOn s.dev = true →
    d = writeReg s.dev offMT_INJECT (BitVec.ofNat 64 (kind.val * 2 ^ 62 + sector.toNat * 64 + 1)) → isNear (64 * getF d fMT_INJECT_ADDR) = true →
      Completes (.inject port kind sector) s
        (modMs d (fun m => { m with tierErr := tabSet (fun _ => 0) m.tierErr (backingOf (64 * getF d fMT_INJECT_ADDR) ((zonePolicy d (64 * getF d fMT_INJECT_ADDR)).getD 0) / 64) (getF d fMT_INJECT_KIND + 1) })))
  ∧ (∀ (s : State) (stack : Fin 16), stackLost s.dev stack = false → dieLost s.dev (stack.val / 2) = false →
      ∀ (on : Nat → Bool) (d d2 : Dev), on = (fun l => isNear (l * 512) && stackOf (l * 512) == stack.val) →
      d = setF (setF s.dev fFLT_HEALTH_STACKS_LOST (Nat.lor (getF s.dev fFLT_HEALTH_STACKS_LOST) (2 ^ stack.val))) fMT_STATUS_STACK_OK
        (Nat.land (getF (setF s.dev fFLT_HEALTH_STACKS_LOST (Nat.lor (getF s.dev fFLT_HEALTH_STACKS_LOST) (2 ^ stack.val))) fMT_STATUS_STACK_OK) (65535 - 2 ^ stack.val)) →
      d2 = modMs (dropBehind (dropWrites d (fun pa attr => isNear pa && stackOf (backingOf pa attr.home) == stack.val)) (fun l => on l.backing))
        (fun m => { m with adders := m.adders.filter (fun a => !(isNear (a.sector * 64) && stackOf (a.sector * 64) == stack.val)) }) →
      ∀ (d3 : Dev) (e : ErrRec), d3 = retireStack stack 4096 (stack.val / 2 * 2 ^ 21) d2 →
      e = { sev := 1, cause := 0x0060, die := stack.val / 2, unit := 0x07, index := stack, replace := true } →
      Completes (.stackLoss stack) s
        (destRecord (noteReplace (errRecord (satF d3 fMT_RETIRE_CNT_OVERFLOW (stackFrames d3 stack - (d3.ms.badFrames.filter (frameOn d3 stack)).length)) e) 0) 5 { e with replace := false }))
  ∧ (∀ (s : State) (f : Fin 4) (addr : Nat), getF s.dev (fMT_FAR_CAP_STATE f) ≠ 0 →
      Completes (.cxlEventRecord f true addr) s (errRecord s.dev { tierUnit (0x010000000000 + f.val * 2 ^ 39) with sev := 1, cause := 0x0004, addr := some (0x010000000000 + f.val * 2 ^ 39 + addr % 2 ^ 39), detail := 1 })
      ∧ Completes (.cxlEventRecord f false addr) s (errRecord s.dev { tierUnit (0x010000000000 + f.val * 2 ^ 39) with sev := 0, cause := 0x0003, addr := some (0x010000000000 + f.val * 2 ^ 39 + addr % 2 ^ 39), detail := 2 }))

/-- Die-to-die links and dock bays (R423, R424, R429 to R431, R434 to R442, R451, R453, R599): a link trains at the fastest rate both ends and it
allow, or
fails; a module that meets its trigger is retrained, and a link short of modules fails; an admissible descriptor admits its bay and
another refuses it; BAY_CTL is written; a bound bay's request is served within its rights; an over-power bay fails. While
every link is up, a route runs along its row, and changes row in the destination's column (R48, R49). -/
def Obligations.LinksAndBaysComplete : Prop :=
  (∀ (s : State) (link : Fin 16) (found : LinkTrain) (r gen feats : Nat), s.dev.su.begun = true → linkSettled s.dev link = false →
    (14 ≤ link.val → getF s.dev (fDL_BAY_STATUS_STATE (link.val - 14)) = 2) → (found.reversed = true → link.val = 6 ∨ link.val = 7) → trainRate s.dev link found = some r →
    gen = (if min (advVersion s.dev (linkEnds link).1) (advVersion s.dev (linkEnds link).2) = 3 then 2 else 1) →
    feats = (decide ((linkEnds link).1 < 8) && decide ((linkEnds link).2 < 8)).toNat →
    ∀ d : Dev, d = setReg s.dev (offDL_LINK link) (BitVec.ofNat 64 (2 * 2 ^ 62 + gen * 2 ^ 60 + r * 2 ^ 56 + (link.val == 6 || link.val == 7).toNat * 2 ^ 55 + feats * 2 ^ 49 + feats * 2 ^ 48
      + getF s.dev (fDL_LINK_REPAIRS link) * 2 ^ 40 + (2 ^ linkModules link - 1))) →
      CompletesM (.linkTraining link found) s (linkSteps (if some r = (allowedRates link).head? then d
        else noteReplace (errRecord d { sev := 0, cause := 0x0021, unit := 0x09, index := link, replace := true, detail := r }) 4)))
  ∧ (∀ (s : State) (link : Fin 16) (found : LinkTrain), s.dev.su.begun = true → linkSettled s.dev link = false →
    (14 ≤ link.val → getF s.dev (fDL_BAY_STATUS_STATE (link.val - 14)) = 2) → found.reversed = false → trainRate s.dev link found = none →
      CompletesM (.linkTraining link found) s (linkSteps (linkFails s.dev link)))
  ∧ (∀ (s : State) (link : Fin 16) (module : Fin 12) (cause : RepairCause) (resends : BitVec 32) (result : ModTrain) (d : Dev), linkUp s.dev link = true →
    (getF s.dev (fDL_LINK_MODULES link)).testBit module = true →
    ((cause = .lane ∧ d = s.dev) ∨ ∃ n, cause = .crc n ∧ d = satF s.dev (fDL_LINK_ERR_CRC link) n.toNat ∧ getF d fDL_CFG_REPAIR_THR < n.toNat) →
      CompletesM (.laneRepair link module cause resends false result) s (repairModule (satF d (fDL_LINK_ERR_RESENDS link) resends.toNat) link module result)
      ∧ CompletesM (.laneRepair link module cause resends true result) s (linkFails (satF d (fDL_LINK_ERR_RESENDS link) resends.toNat) link))
  ∧ (∀ (d d2 : Dev) (l m : Nat) (r : ModTrain), d2 = setF (setF d (fDL_LINK_MODULES l) (Nat.land (getF d (fDL_LINK_MODULES l)) (4095 - 2 ^ m))) (fDL_LINK_X8 l) (Nat.land (getF d (fDL_LINK_X8 l)) (4095 - 2 ^ m)) →
    (linkShort d2 l = true → repairModule d l m r = linkFails d2 l) ∧ (linkShort d2 l = false → repairModule d l m .off = d2))
  ∧ (∀ (s : State) (port : Fin 2) (link module : Fin 16) (result : ModTrain) (d : Dev), SetupTaken s.dev port (offDL_LINK_CTL link) →
    d = writeReg s.dev (offDL_LINK_CTL link) (BitVec.ofNat 64 (1 + 2 ^ 16 * module.val)) → linkUp d link = true → module.val < linkModules link →
      CompletesM (.retrain port link module result) s (repairModule d link module result))
  ∧ (∀ (s : State) (bay : Fin 2) (desc : BitVec 4096) (d : Dev) (list : Nat), s.dev.su.powered = true → s.dev.su.begun = false → stage s.dev = 0 → (getF s.dev fID_PART_BAYS).testBit bay = true →
    list = (if s.sec.run = 2 then s.sec.bankB else s.sec.bankA).listDigest →
    d = setF (showDesc { s.dev with bays := tabSet (fun _ => BayRun.init) s.dev.bays bay BayRun.init } bay desc) (fDL_BAY_STATUS_RIGHTS_REQ bay) (descNat desc 0x14 4 % 16) →
    (bayCause desc list = none → Completes (.bayAdmission bay (some desc)) s
      { (setF (setF d (fDL_BAY_STATUS_STATE bay) 2) (fDL_BAY_STATUS_CAUSE bay) 0) with bays := tabSet (fun _ => BayRun.init) (setF (setF d (fDL_BAY_STATUS_STATE bay) 2) (fDL_BAY_STATUS_CAUSE bay) 0).bays bay { admitted := true, lastBound := none } })
    ∧ (∀ c, bayCause desc list = some c → Completes (.bayAdmission bay (some desc)) s (bayRefused d bay c)))
  ∧ (∀ (s : State) (port bay : Fin 2) (data : Word), SetupTaken s.dev port (offDL_BAY_CTL bay) → (tabGet (fun _ => BayRun.init) s.dev.bays bay).lastBound = none →
      Completes (.bayReset port bay data) s
        (showRights { (writeRegBy s.dev (offDL_BAY_CTL bay) (data ||| 1) (fun f => !(getF s.dev (fDL_BAY_CTL_BIND bay) == 1 && f.lsb == 16))) with
          bays := tabSet (fun _ => BayRun.init) s.dev.bays bay { tabGet (fun _ => BayRun.init) s.dev.bays bay with
            lastBound := if (data ||| 1).getLsbD 8 then some (if getF s.dev (fDL_BAY_CTL_BIND bay) = 0 then fld (data ||| 1) 19 16 else getF s.dev (fDL_BAY_CTL_SLICE bay)) else none } } bay)
      ∧ Completes (.bind port bay data) s
        (showRights { (writeRegBy s.dev (offDL_BAY_CTL bay) (putFld data 0 0 0) (fun f => !(getF s.dev (fDL_BAY_CTL_BIND bay) == 1 && f.lsb == 16))) with
          bays := tabSet (fun _ => BayRun.init) s.dev.bays bay { tabGet (fun _ => BayRun.init) s.dev.bays bay with
            lastBound := if (putFld data 0 0 0).getLsbD 8 then some (if getF s.dev (fDL_BAY_CTL_BIND bay) = 0 then fld (putFld data 0 0 0) 19 16 else getF s.dev (fDL_BAY_CTL_SLICE bay)) else none } } bay))
  ∧ (∀ (s : State) (bay : Fin 2) (req : BayReq), whoaStopped s.dev = false → getF s.dev (fDL_BAY_STATUS_STATE bay) = 2 → linkUp s.dev (14 + bay.val) = true →
    getF s.dev (fDL_BAY_CTL_BIND bay) = 1 → getF s.dev (fSLC_CTL_STATE (getF s.dev (fDL_BAY_CTL_SLICE bay))) = 2 →
      CompletesM (.bayRequest bay req) s (bayServe bay (getF s.dev (fDL_BAY_CTL_SLICE bay)) (getF s.dev (fDL_BAY_STATUS_RIGHTS bay)) req s.dev))
  ∧ (∀ (s : State) (bay : Fin 2), getF s.dev (fDL_BAY_STATUS_STATE bay) = 2 → CompletesM (.bayOverPower bay) s (bayFails s.dev bay))
  ∧ (∀ (s : Dev), (∀ l, l < 14 → linkLost s l = false) → ∀ a b : Fin 8,
    route s a b = some (alongRow (dieRow a) (dieCol a) (dieCol b) ++ (if dieRow a = dieRow b then [] else [b.val]))
    ∧ route s a 8 = some (alongRow (dieRow a) (dieCol a) 0 ++ [8]) ∧ route s a 9 = some (alongRow (dieRow a) (dieCol a) 3 ++ [9])
    ∧ route s 8 9 = some [8, 0, 1, 5, 4, 9] ∧ route s 9 8 = some [9, 6, 7, 3, 2, 8])

/-- Observation and time (R677, R678, R686, R687, R689, R697, R712, R783): snapshots, counter samples, a trace buffer that becomes ACTIVE, a
step of the time base, edges of SYNC_IO, holdover, and a scan that loads the chain. -/
def Obligations.ObservationCompletes : Prop :=
  (∀ (s : State), stage s.dev = 2 → whoaStopped s.dev = false →
      Completes .snapshot s ((List.range 16).foldl snapSlice s.dev)
      ∧ (getF s.dev fOBS_CFG_SAMPLE_US ≠ 0 → Completes .counterSample s ([0, 1].foldl (fun s h => if hubLost s h then s else sampleHub s h) s.dev)))
  ∧ (∀ (s : State) (port buf : Fin 2) (data : Word) (s1 d : Dev), SetupTaken s.dev port (offOBS_TRB_CFG buf) → getF s.dev ⟨offOBS_TRB_CFG buf, 0, 0⟩ = 0 →
    s1 = writeReg s.dev (offOBS_TRB_CFG buf) (data ||| 1) → ringSize (getF s1 ⟨offOBS_TRB_CFG buf, 5, 1⟩) = true →
    (getF s1 ⟨offOBS_TRB_CFG buf, 41, 40⟩ = 1 ∨ getF s1 ⟨offOBS_TRB_CFG buf, 41, 40⟩ = 2) → portUp s1 (portOf (getF s1 ⟨offOBS_TRB_CFG buf, 41, 40⟩)) = true →
    d = setF (setF s1 (fOBS_TRB_STATE_STATE buf) 1) (fOBS_TRB_STATE_CAUSE buf) 0 →
      Completes (.traceBufferEnable port buf data) s (traceDrain buf d.obs.staged.length d))
  ∧ (∀ (s : State) (port : Fin 2) (delta : Word), SetupTaken s.dev port offOBS_TSYNC_STEP → (List.range 16).any (fun c => getF s.dev (fSLC_CYC_CFG_EN c) == 1) = false →
      Completes (.tsyncStep port delta) s (satF { s.dev with tOff := s.dev.tOff + delta } fOBS_TSYNC_STAT_STEPS 1))
  ∧ (∀ (s : State), s.dev.su.powered = true → s.dev.pw.off = .on → getF s.dev fSU_SYNCIO_MODE ≠ 3 →
      Completes (.syncEdge false) s (setF s.dev fSU_PINS_SYNC 0)
      ∧ (getF s.dev fSU_SYNCIO_MODE = 2 → ∀ d, d = setF s.dev fSU_PINS_SYNC 1 →
        Completes (.syncEdge true) s (setF (setReg d offSU_SYNCIO_CAP (timeBase d)) fSU_SYNCIO_CNT_EDGES ((getF d fSU_SYNCIO_CNT_EDGES + 1) % 2 ^ 32))))
  ∧ (∀ (s : State), getF s.dev fOBS_TSYNC_CFG_SRC ≠ 0 → getF s.dev fOBS_TSYNC_STAT_STATE ≠ 3 →
      Completes .holdoverExpiry s
        (setF { s.dev with now := max s.dev.now (s.dev.obs.lastMeas + (if getF s.dev fOBS_TSYNC_CFG_SRC = 1 then 1000000000 else 2000000000)) } fOBS_TSYNC_STAT_STATE 3))
  ∧ (∀ (s : State) (m : BitVec 12),
      Completes (.scanOut none none) s s.dev ∧ (debugOn s.dev = true → Completes (.scanOut (some m) none) s (showTap { s.dev with pins := { s.dev.pins with chain := m } })))

/-- Whoa and the hang dump (R692 to R694, R699, R700, R703): a stop by register with debug authorised, and by STOP_IO where it is enabled; a dump
that its trigger finds in order freezes the slice; a watchdog triggers one; once the slice's requests have completed the dump is written
and ACTION is applied; a held dump's slice runs on or its commands are aborted. -/
def Obligations.WhoaAndDumpComplete : Prop :=
  (∀ (s : State) (port : Fin 2), SetupTaken s.dev port offOBS_WHOA_CTL → debugOn s.dev = true → Completes (.whoaStop port) s (whoaStop s.dev 1))
  ∧ (∀ (s : State) (d : Dev), s.dev.su.powered = true → d = setF { s.dev with obs := { s.dev.obs with stopIn := true } } fSU_PINS_STOP 1 →
    (getF d fOBS_WHOA_CFG_IN_EN = 1 ∧ d.pw.off = .on → Completes .stopIo s (whoaStop d 4))
    ∧ (getF d fOBS_WHOA_CFG_IN_EN = 0 → Completes .stopIo s d))
  ∧ (∀ (s : State) (port hub : Fin 2) (data : Word) (d d2 : Dev) (n : Nat), SetupTaken s.dev port (offOBS_DUMP_CTL hub) →
    d = writeReg s.dev (offOBS_DUMP_CTL hub) (putFld (data ||| 1) 2 1 0) → n = getF d (fOBS_DUMP_CTL_SLICE hub) → dumpRefuse d hub n = 0 →
    d2 = setReg d (offOBS_DUMP_STAT hub) (BitVec.ofNat 64 (2 ^ 62 + getF d (fOBS_DUMP_STAT_TRIG_CHAN hub) * 2 ^ 40)) →
      Completes (.dumpGo port hub data) s
        (setDump d2 hub { active := true, slice := n, trigger := 0xFF, t1 := timeBase d2, held := false, frozen := true, since := d2.now }))
  ∧ (∀ (s : State) (chan : Fin 16) (wd : Nat) (d : Dev), wd = fld (reg s.dev (offOBS_CHWD (chan.val / 8))) (8 * (chan.val % 8) + 7) (8 * (chan.val % 8)) → wd ≠ 0 →
    whoaStopped s.dev = false → getF s.dev (fCH_STATUS_OWNED chan) ≠ 0 → frozenSlice s.dev (chanSlice s.dev chan) = false → s.dev.cmds.all (fun x => x.chan != chan.val) = false →
    d = { s.dev with now := max s.dev.now ((getCh s.dev chan).lastDone + 10000000 * wd) } →
      Completes (.channelWatchdog chan) s (dumpTrigger (modCh d chan (fun ch => { ch with lastDone := d.now })) (chanHub chan) (chanSlice d chan) (some chan)))
  ∧ (∀ (s : State) (hub : Fin 2) (d : DumpRun), d = getDump s.dev hub → d.active = true → whoaStopped s.dev = false →
    (residentRegions s.dev d.slice).any (fun r => (regionTab s.dev r).any (fun e => !e.2.reqs.isEmpty || e.2.sb.any (fun x => x.st == .sent))) = false →
    (getF (writeDump s.dev hub) (fOBS_DUMP_CTL_ACTION hub) = 2 →
      Completes (.dumpFrozen hub) s (setF (setDump (writeDump s.dev hub) hub { d with active := false, held := true }) (fOBS_DUMP_STAT_STATE hub) 2))
    ∧ (getF (writeDump s.dev hub) (fOBS_DUMP_CTL_ACTION hub) < 2 →
      Completes (.dumpFrozen hub) s (dumpEnd (writeDump s.dev hub) hub (getF (writeDump s.dev hub) (fOBS_DUMP_CTL_ACTION hub) == 1))))
  ∧ (∀ (s : State) (port hub : Fin 2) (data : Word) (d : Dev), SetupTaken s.dev port (offOBS_DUMP_CTL hub) →
    (d = writeReg s.dev (offOBS_DUMP_CTL hub) (putFld data 2 0 2) → getF d (fOBS_DUMP_STAT_STATE hub) = 2 → Completes (.resumeHeld port hub data) s (dumpEnd d hub false))
    ∧ (d = writeReg s.dev (offOBS_DUMP_CTL hub) (putFld data 2 0 4) → getF d (fOBS_DUMP_STAT_STATE hub) = 2 → Completes (.abortHeld port hub data) s (dumpEnd d hub true)))

/-- Faults (R650 to R652, R655, R671, R672, R696): a part whose rail fails is lost, or the failure is held while the module is stopped; an event
ring that is in order becomes ACTIVE and takes the backlog; HEAD is moved, and one beyond the ring puts it in ERROR. -/
def Obligations.FaultsComplete : Prop :=
  (∀ (s : State) (part : RailPart), s.dev.su.begun = true → stage s.dev = 2 →
    (whoaStopped s.dev = false → Completes (.railFailure part) s (pushEvents (railDrop s.dev (railNum part))))
    ∧ (whoaStopped s.dev = true → Completes (.railFailure part) s { s.dev with obs := { s.dev.obs with heldRail := s.dev.obs.heldRail ++ [railNum part] } }))
  ∧ (∀ (s : State) (port ring : Fin 2) (data : Word) (s1 : Dev), SetupTaken s.dev port (offFLT_ER_CFG ring) → getF s.dev ⟨offFLT_ER_CFG ring, 0, 0⟩ = 0 →
    s1 = writeReg s.dev (offFLT_ER_CFG ring) (data ||| 1) → ringSize (getF s1 ⟨offFLT_ER_CFG ring, 5, 1⟩) = true →
    (getF s1 ⟨offFLT_ER_CFG ring, 41, 40⟩ = 1 ∨ getF s1 ⟨offFLT_ER_CFG ring, 41, 40⟩ = 2) → portUp s1 (portOf (getF s1 ⟨offFLT_ER_CFG ring, 41, 40⟩)) = true →
      Completes (.eventRingEnable port ring data) s (deliverBacklog (setF (setF s1 (fFLT_ER_STATE_STATE ring) 1) (fFLT_ER_STATE_CAUSE ring) 0) ring))
  ∧ (∀ (s : State) (port ring : Fin 2) (head : BitVec 16) (d : Dev), SetupTaken s.dev port (offFLT_ER_STATE ring) → ringSize (getF s.dev (fFLT_ER_CFG_LOG2SZ ring)) = true →
    d = writeReg s.dev (offFLT_ER_STATE ring) (head.setWidth 64) →
    (getF d ⟨offFLT_ER_STATE ring, 15, 0⟩ < 2 ^ getF d (fFLT_ER_CFG_LOG2SZ ring) → Completes (.eventRingHead port ring head) s d)
    ∧ (2 ^ getF d (fFLT_ER_CFG_LOG2SZ ring) ≤ getF d ⟨offFLT_ER_STATE ring, 15, 0⟩ →
      Completes (.eventRingHead port ring head) s (setF (setF d ⟨offFLT_ER_STATE ring, 63, 62⟩ 2) ⟨offFLT_ER_STATE ring, 55, 48⟩ 3)))

/-- Power and protection (R571, R585, R590 to R592, R596, R598, R604, R605, R789, R791): the Rein's tick and its absence, the Curb and the Brake and
their releases, thermal trips, leaks, input shutdown, the loss of the reference clock, and the writes of BUDGET and RAMP. -/
def Obligations.PowerCompletes : Prop :=
  (∀ (s : State) (m : TickMeas) (d d2 d3 d4 : Dev) (a : Nat) (beff : Nat) (al : List Nat), stage s.dev = 2 → s.dev.pw.off = .on → whoaStopped s.dev = false →
    d = (let t := setTemps (setF s.dev fPW_STATUS_REIN_UP 1) m.temps
         { t with pw := { t.pw with missedClamp := false, ratios := m.ratios.map (fun e => (e.1.val, e.2.val)) } }) →
    beff = nextBeff d →
    a = ((beff : Int) - ((m.pin.toNat : Int) - ((m.meters.map (fun w => w.toNat)).sum : Nat)) - (d.pw.hist.foldl (fun (x : Int) h => x + h.1 - h.2) 0) / 200).toNat →
    allotments d m a = (d2, al) → d3 = ((List.range 32).zip al).foldl (regionTick m) d2 →
    d4 = { d3 with pw := { d3.pw with beff := beff, hist := ((m.pin.toNat, beff) :: d3.pw.hist).take 200 } } →
      Completes (.reinTick m) s
        (let t := setF d4 fPW_STATUS_THROTTLE (if d4.pw.cap.isEmpty then 0 else 1)
         pushEvents (fillerTick (setF (setF (setF t fPW_STATUS_APPLIED_W (beff / 1000)) fPW_STATUS_FLOOR_W (appliedFloor t)) fPW_STATUS_RAMP_WPMS (appliedRamp t)) m)))
  ∧ (∀ (s : State), stage s.dev = 2 → s.dev.pw.off = .on → whoaStopped s.dev = false → s.dev.pw.missedClamp = false →
      Completes .reinMissed s (errRecord (setF { s.dev with pw := { s.dev.pw with missedClamp := true } } fPW_STATUS_REIN_UP 0) { sev := 4, cause := 0x0052, unit := 0x0E, detail := 4 }))
  ∧ (∀ (s : State) (vin iin : BitVec 16), s.dev.su.powered = true → s.dev.pw.off ≠ .input → (100 * getF s.dev fPW_CFG_OC_LIMIT_A < iin.toNat ∨ vin.toNat < 4400) →
      Completes (.curb vin iin) s (pushEvents (setF s.dev fPW_STATUS_CURB 1)))
  ∧ (∀ (s : State) (vin iin : BitVec 16), 4500 ≤ vin.toNat → iin.toNat ≤ 90 * getF s.dev fPW_CFG_OC_LIMIT_A →
      Completes (.curbRelease vin iin) s (pushEvents (setF s.dev fPW_STATUS_CURB 0)))
  ∧ (∀ (s : State), s.dev.su.powered = true → s.dev.pw.off ≠ .leak → Completes .brake s (pushEvents (setF (setF s.dev fSU_PINS_BRAKE 1) fPW_STATUS_BRAKE 1)))
  ∧ (∀ (s : State), Completes .brakeRelease s (pushEvents (setF (setF s.dev fSU_PINS_BRAKE 0) fPW_STATUS_BRAKE 0)))
  ∧ (∀ (s : State) (sensor : Fin 50) (temp : Fin 256) (d : Dev), s.dev.su.powered = true → s.dev.pw.off ≠ .input → s.dev.pw.off ≠ .leak → (if sensor.val < 34 then 115 else 105) ≤ temp.val →
    d = setF (setF (planeOff s.dev .trip) fSU_PINS_FAULT 1) fSU_PINS_PWR_OK 0 →
      Completes (.thermalTrip sensor temp) s
        (pushEvents (offRecord (if sensor.val < 32 then setF d (fPW_RGN_TEMP sensor) temp
          else if sensor.val < 34 then { d with mg := { d.mg with hubTemp := tabSet (fun _ => 0) d.mg.hubTemp (sensor.val - 32) temp } }
          else setF d (fMT_STACK_TEMP (sensor.val - 34)) temp) { sev := 4, cause := 0x0053, unit := 0x0E, detail := temp.val % 256 + 256 * sensor.val })))
  ∧ (∀ (s : State), s.dev.su.powered = true → s.dev.pw.off ≠ .input → s.dev.pw.off ≠ .leak →
      Completes .leak s
        (pushEvents (mgmtOut (noteReplace (offRecord (setF (setF (setF (setF (setF (planeOff s.dev .leak) fSU_PINS_LEAK 1) fSU_PINS_FAULT 1) fSU_PINS_PWR_OK 0) fPW_STATUS_BRAKE 0) fSU_PINS_ALERT 1)
          { sev := 4, cause := 0x0054, unit := 0x0E, replace := true }) 9) 2 [])))
  ∧ (∀ (s : State) (vin : BitVec 16) (d : Dev), s.dev.su.powered = true → s.dev.pw.off ≠ .input → (vin.toNat < 4000 ∨ 6000 < vin.toNat) →
    d = setF (planeOff s.dev .input) fSU_PINS_PWR_OK 0 →
      Completes (.inputShutdown vin) s (offRecord { d with pw := { d.pw with lastVin := vin.toNat } } { sev := 4, cause := 0x0055, unit := 0x0E, detail := vin.toNat % 2 ^ 16 }))
  ∧ (∀ (s : State) (d : Dev), s.dev.su.powered = true → s.dev.pw.off = .on → getF s.dev fPW_STATUS_REFCLK_OK ≠ 0 → s.dev.su.refLost = false →
    d = setF (planeOff s.dev .refclk) fPW_STATUS_REFCLK_OK 0 →
      Completes .refclkLoss s
        (pushEvents (offRecord (setF { d with su := { d.su with refLost := true } } fSU_PINS_FAULT 1) { sev := 4, cause := 0x0055, unit := 0x0E, detail := d.pw.lastVin % 2 ^ 16 })))
  ∧ (∀ (s : State) (port : Fin 2) (data : Word), SetupTaken s.dev port offPW_BUDGET → 1000 ≤ fld data 11 0 → fld data 11 0 ≤ 3600 →
      Completes (.budgetWrite port data) s (setReg s.dev offPW_BUDGET (BitVec.ofNat 64 (2 ^ 63 + fld data 11 0))))
  ∧ (∀ (s : State) (port : Fin 2) (data : Word), SetupTaken s.dev port offPW_RAMP → rampOk (fld data 19 0) = true → fld data 43 32 ≤ 3600 →
      Completes (.rampWrite port data) s
        (setF (setF (setF (setF s.dev fPW_RAMP_RAMP_WPMS (fld data 19 0)) fPW_RAMP_RAMP_SET 1) fPW_RAMP_FLOOR_W (fld data 43 32)) fPW_RAMP_FLOOR_SET 1))

/-- Sleep, wake, droop, ageing and energy (R576, R577, R579, R582, R600 to R602): idle clusters are gated, gated regions powered down and groomed,
dies put into self-refresh, and each woken; a droop stretches its cluster's clock; an ageing test that fails lowers the core's frequency;
energies are settled. -/
def Obligations.SleepAndEnergyComplete : Prop :=
  (∀ (s : State) (cl : Fin 192) (d : Dev), (getCl s.dev cl).gated = false → clusterIdle s.dev cl = true → getF s.dev (fPW_RGN_STATE (cl.val / 6)) < 2 →
    d = modCl s.dev cl (fun c => { c with gated := true }) →
      Completes (.clockGate cl) s (if (regionClusters (cl.val / 6)).all (fun k => (getCl d k).gated) then setF d (fPW_RGN_STATE (cl.val / 6)) 1 else d))
  ∧ (∀ (s : State) (region : Fin 32), getF s.dev (fPW_RGN_STATE region) = 1 → getF s.dev (fSLC_RGN_STATE region) = 0 → (getF s.dev fPW_GATE_PG_EN).testBit region = true →
    s.dev.pw.filler.getLsbD region = false → s.dev.selfTest.getLsbD region = false →
      Completes (.powerGate region) s (setF (groomRegion s.dev region) (fPW_RGN_STATE region) 2))
  ∧ (∀ (s : State) (die : Fin 8), getF s.dev fPW_GATE_SR_EN ≠ 0 → dieLost s.dev die = false →
    (List.range 4).any (fun i => getF s.dev (fPW_RGN_STATE (4 * die.val + i)) != 2 && getF s.dev (fSLC_RGN_STATE (4 * die.val + i)) != 3) = false →
    s.dev.ms.misses.any (fun m => isNear (m.backing * 512) && nField (m.backing * 512) 39 37 == die.val) = false →
      Completes (.selfRefresh die) s { s.dev with pw := { s.dev.pw with sleeping := putBit s.dev.pw.sleeping die true } })
  ∧ (∀ (s : State) (cl : Fin 192) (d : Dev), (getCl s.dev cl).gated = true → getF s.dev (fPW_RGN_STATE (cl.val / 6)) = 1 →
    d = modCl s.dev cl (fun c => { c with gated := false }) → Completes (.clusterWake cl) s (setF d (fPW_RGN_STATE (cl.val / 6)) 0))
  ∧ (∀ (s : State) (region : Fin 32), getF s.dev (fPW_RGN_STATE region) = 3 →
      Completes (.regionWake region) s
        (wakeDie ((regionClusters region).foldl (fun s k => modCl s k (fun c => { c with gated := false })) (setF s.dev (fPW_RGN_STATE region) 0)) (region.val / 4)))
  ∧ (∀ (s : State) (die : Fin 8), Completes (.dieWake die) s { s.dev with pw := { s.dev.pw with sleeping := putBit s.dev.pw.sleeping die false } })
  ∧ (∀ (s : State) (cl : Fin 192) (mv : Fin 1024), getF s.dev fPW_CFG_DROOP_MV < mv.val → getF s.dev (fPW_RGN_STATE (cl.val / 6)) < 2 → (getCl s.dev cl).stretched = false →
      Completes (.droop cl mv) s (satF (modCl s.dev cl (fun c => { c with stretched := true })) (fPW_RGN_DROOPS (cl.val / 6)) 1))
  ∧ (∀ (s : State) (cl : Fin 192), Completes (.droopRelease cl) s (modCl s.dev cl (fun c => { c with stretched := false })))
  ∧ (∀ (s : State) (core : Fin 768) (p : Fin 16) (new : Nat), getF s.dev fPW_STATUS_REIN_UP ≠ 0 → getF s.dev (fPW_RGN_VOLT_MV (core.val / 24)) = 650 + 25 * p.val →
    getF s.dev (fPW_RGN_STATE (core.val / 24)) < 2 → p.val ≠ 15 → new = coreFmax s.dev core p - 10 →
      Completes (.ageingTest core p true) s
        (errRecord (setF s.dev (fPW_VF_FMAX_MHZ (core.val / 96) (core.val % 96) p) new) { coreErr core with sev := 0, cause := 0x0050, detail := p.val + 2 ^ 16 * new }))
  ∧ (∀ (s : State) (m : EnergyMeas) (kn kd runs idle : Nat) (cl : Bool) (d d2 d3 d4 : Dev), s.dev.su.powered = true → s.dev.pw.off ≠ .input → settleK m = (kn, kd, cl) →
    d = (let t := setTemps s.dev m.temps
         setF (setF (setF t fPW_INPUT_VIN m.vin.toNat) fPW_INPUT_IIN m.iin.toNat) fPW_INPUT_P10_W m.p10.toNat) →
    m.runs.foldl (settleRun m kn kd) (d, 0) = (d2, runs) →
    (List.range 16).foldl (fun (a : Dev × Nat) n => (if idleShare a.1 m n * kn / kd = 0 then a.1 else creditIdle a.1 n (idleShare a.1 m n * kn / kd), a.2 + idleShare a.1 m n * kn / kd)) (d2, 0) = (d3, idle) →
    d4 = { d3 with pw := { d3.pw with kNum := kn, kDen := kd, clamped := d3.pw.clamped + cl.toNat, tail := 0, eIn := d3.pw.eIn + m.ein, eFloor := d3.pw.eFloor + m.fill * kn / kd, eMgr := d3.pw.eMgr + (meterSum m * kn / kd - (runs + idle + m.fill * kn / kd + d3.pw.tail)), lastVin := m.vin.toNat } } →
      Completes (.energySettle m) s
        (pushEvents ([0, 1].foldl (fun s h => countHub s h 0xC8 (m.ein / 1000))
          (setF (setF (setF d4 fPW_E_IN_UJ (d4.pw.eIn / 1000)) fPW_E_FLOOR_UJ (d4.pw.eFloor / 1000)) fPW_E_MGR_UJ (d4.pw.eMgr / 1000)))))

/-- Startup and reset (R392, R615 to R619, R622 to R625, R630, R719, R789, R791): Stand, the arbitration of the Bridles, the reset pins and
the reference clock, the Halter steps, the region self-tests, the cutoff, Saddled, its timeout, and the device reset. -/
def Obligations.StartupCompletes : Prop :=
  (∀ (s : State) (modId : Fin 32), (s.dev.su.powered = false ∨ s.dev.pw.off = .input) → CompletesTo (.stand modId) s (standUp s modId))
  ∧ (∀ (s : State) (hn : Bool), s.dev.su.powered = true → getF s.dev fSU_FW_PRIMARY = 0 →
      Completes (.primaryArbitration hn) s (bridleUp (setF s.dev fSU_FW_PRIMARY (if hn then 1 else 2))))
  ∧ (∀ (s : State), s.dev.su.powered = true → getF s.dev fSU_FW_PRIMARY = 1 → hubLost s.dev 0 = true →
      Completes (.primaryArbitration false) s (bridleUp (setF s.dev fSU_FW_PRIMARY 2)))
  ∧ (∀ (s : State) (port : Fin 2) (d : Dev), (getPort s.dev port).inReset = false → s.dev.su.powered = true → s.dev.pw.off = .on →
    d = modPort s.dev port (fun x => { x with inReset := true }) →
      ((getPort d (1 - port.val)).inReset = true → Completes (.perstAssert port) s (perstReset d (seqImage s.sec)))
      ∧ ((getPort d (1 - port.val)).inReset = false →
        Completes (.perstAssert port) s (modPort (linkDown d port) port (fun x => { HostPort.init with inReset := true, dead := x.dead }))))
  ∧ (∀ (s : State) (port : Fin 2) (d : Dev), s.dev.su.powered = true → d = modPort s.dev port (fun x => { x with inReset := false }) →
    d.su.standDone = true → d.su.begun = false → d.pw.off = .on → getF d fPW_STATUS_REFCLK_OK = 1 → stage d ≠ 3 → portReleased d port = true →
      (∀ img, seqImage s.sec = some img → Completes (.perstRelease port) s (pushEvents (beginHalter { d with su := { d.su with seqOk := true } } img false)))
      ∧ (seqImage s.sec = none → Completes (.perstRelease port) s (pushEvents (failFw { d with su := { d.su with seqOk := false } }))))
  ∧ (∀ (s : State), s.dev.su.powered = true → s.dev.pw.off ≠ .input →
      Completes .refclkValid s (tryHalter (setF s.dev fPW_STATUS_REFCLK_OK 1) (seqImage s.sec) false))
  ∧ (∀ (s : State), s.dev.su.refLost = true → getF s.dev fPW_STATUS_REFCLK_OK = 1 → s.dev.pw.off = .refclk →
      CompletesTo .refclkRestart s (standUp s (getF s.dev fSU_PINS_MOD_ID)))
  ∧ (∀ (s : State) (port : Fin 2), s.dev.su.powered = true → s.dev.pw.off = .on → portReleased s.dev port = true → portUp s.dev port = false → s.dev.su.begun = true →
      Completes (.dlUp port) s (pushEvents (enterHalter (modPort s.dev port (fun x => { x with up := true, dead := false })) false)))
  ∧ (∀ (s : State), s.dev.su.begun = true → stepDone s.dev 5 = false →
      Completes (.stackTraining (BitVec.allOnes 16)) s
        (pushEvents (halterWork (noteStep (loadSpares (setF s.dev fMT_STATUS_STACK_OK (maskOf ((List.range 16).filter (fun k => !dieLost s.dev (k / 2)))))) 5))))
  ∧ (∀ (s : State) (d : Dev), s.dev.su.begun = true → stepDone s.dev 5 = true → stepDone s.dev 7 = false →
    d = modMs s.dev (fun m => { m with tier := m.tier.filter (fun e => !isNear e.1), tierPoison := m.tierPoison.filter (fun x => !isNear (64 * x)), tierErr := m.tierErr.filter (fun e => !isNear (64 * e.1)) }) →
      Completes .nearTierZeroing s (halterWork (noteStep (setF d fMT_STATUS_NEAR_ZEROED 1) 7)))
  ∧ (∀ (s : State) (f : Fin 4) (result : FarTrain) (d : Dev), s.dev.su.begun = true → s.dev.su.farDone.getLsbD f = false →
    d = { (farShow s.dev f 1 result) with su := { s.dev.su with farDone := putBit s.dev.su.farDone f true } } →
      Completes (.farPortEnumeration f result) s (if d.su.farDone = 15 then halterWork (noteStep d 8) else d))
  ∧ (∀ (s : State) (region : Fin 32) (d : Dev), s.dev.selfTest.getLsbD region = false → testTurn s.dev region = true →
    d = halterRegion { s.dev with su := { s.dev.su with tested := putBit s.dev.su.tested region true } } region true →
      Completes (.regionSelftestDone region true) s (pushEvents (halterWork d)))
  ∧ (∀ (s : State) (d : Dev), stage s.dev = 1 → stepDone s.dev 12 = true → d = { s.dev with now := max s.dev.now (s.dev.su.relAt + 2500000000) } →
      Completes .halterCutoff s (((d.cmds.filter (fun c => decide (0x20 ≤ c.tag))).map (fun c => c.key)).foldl (fun s k => failCmd s k 0x05) d))
  ∧ (∀ (s : State) (pmin : Fin 4096), stage s.dev = 1 → stepDone s.dev 12 = true → s.dev.cmds = [] →
      Completes (.saddle pmin) s (pushEvents (saddleWork pmin s.dev)))
  ∧ (∀ (s : State) (d : Dev), s.dev.su.begun = true → stage s.dev < 2 → (s.sec.trial = 0 ∨ s.sec.run ≠ s.sec.trial) →
    d = { s.dev with now := max s.dev.now (s.dev.su.relAt + 3000000000) } →
      CompletesTo .saddleTimeout s { s with dev := pushEvents (setF (setF (setF (setF d fSU_STATUS_STAGE 3) fSU_STATUS_CAUSE 2) fSU_RESET_BUSY 0) fSU_PINS_FAULT 1) })
  ∧ (∀ (s : State) (port : Fin 2), SetupTaken s.dev port offSU_RESET → getF s.dev fSU_RESET_BUSY = 0 →
      Completes (.deviceReset port) s (tryHalter (setF (setF (resetPlanes .device s.dev) fSU_RESET_BUSY 1) fSU_STATUS_STAGE 4) (seqImage s.sec) true))

/-- The mailbox (R626, R639, R640, R730 to R733): each opcode is answered, and the response goes out. -/
def Obligations.MailboxCompletes : Prop :=
  (∀ (s : State), MailAsked s 0x0001 true (· = 0) →
      CompletesTo .getInfo s (reply s 0 (leBytes 4 s.sec.bankA.version ++ leBytes 4 s.sec.bankB.version ++ leBytes 4 s.sec.run ++ leBytes 4 (lastStep s.dev) ++ leBytes 8 0)))
  ∧ (∀ (s : State) (m : Nat) (d : Dev), MailAsked s 0x0010 false (· = 4) → m = leNat (mbxBytes s.dev 0 4) → m ≠ 0 → (bitsOf 32 m).all (testable s.dev) = true →
    d = (bitsOf 32 m).foldl (fun s r => setF s (fSLC_RGN_STATE r) 2) s.dev →
      CompletesTo .selftest s { s with dev := answer (enterTso { d with selfTest := d.selfTest ||| BitVec.ofNat 32 m, su := { d.su with testAsk := BitVec.ofNat 32 m, testPass := 0, testFail := 0 } }) 0 [] })
  ∧ (∀ (s : State), MailAsked s 0x0011 false (· = 0) →
      CompletesTo .selftestResult s (reply s 0 (leBytes 4 (s.dev.su.testPass &&& s.dev.su.testAsk).toNat ++ leBytes 4 (s.dev.su.testFail &&& s.dev.su.testAsk).toNat ++ leBytes 4 (decide (s.dev.selfTest ≠ 0)).toNat)))
  ∧ (∀ (s : State), MailAsked s 0x0020 true (· = 0) → CompletesTo .stageLog s (reply s 0 ((List.range 15).flatMap (fun i => leBytes 4 (stepTime s.dev (i + 1))))))
  ∧ (∀ (s : State), MailAsked s 0x0030 true (· = 0) →
      CompletesTo .fwQuery s (reply s 0 (leBytes 4 s.sec.bankA.version ++ leBytes 4 s.sec.bankB.version ++ leBytes 1 (shownSvn s.sec.bankA) ++ leBytes 1 (shownSvn s.sec.bankB)
        ++ leBytes 1 s.sec.run ++ leBytes 1 s.sec.trial ++ leBytes 1 (shownUpdate s.sec s.dev.bridle.up) ++ leBytes 11 0)))
  ∧ (∀ (s : State), MailAsked s 0x0031 true (· = 4) → s.sec.update = none → leNat (mbxBytes s.dev 0 4) ≤ bankSize →
      CompletesTo .fwBegin s (reply (withSec s (beginUpdate s.sec 1 (leNat (mbxBytes s.dev 0 4)) s.dev.now)) 0 []))
  ∧ (∀ (s : State) (u : Update), MailAsked s 0x0032 true (fun n => 9 ≤ n ∧ n ≤ 4088) → s.sec.update = some u → u.path = 1 →
    leNat (mbxBytes s.dev 0 8) + (mbxLen s.dev - 8) ≤ u.len →
      CompletesTo .fwWrite s (reply (withSec s (writeUpdate s.sec u (leNat (mbxBytes s.dev 0 8)) (mbxBytes s.dev 8 (mbxLen s.dev - 8)) s.dev.now)) 0 []))
  ∧ (∀ (s : State) (u : Update), MailAsked s 0x0033 true (· = 0) → s.sec.update = some u → u.path = 1 →
      CompletesTo .fwVerify s (reply (withSec s (verifyUpdate s.sec u s.dev.now).1) (if (verifyUpdate s.sec u s.dev.now).2 then 0 else 5) []))
  ∧ (∀ (s : State) (u : Update), MailAsked s 0x0034 true (· = 0) → s.sec.update = some u → u.path = 1 → u.verified = true → CompletesTo .fwActivate s (reply (activate s) 0 []))
  ∧ (∀ (s : State), MailAsked s 0x0035 true (· = 0) → commitOk s.sec = true → CompletesTo .fwCommit s (reply (withSec s (commit s.sec)) 0 []))
  ∧ (∀ (s : State), MailAsked s 0x0036 true (· = 0) → (∀ u, s.sec.update = some u → u.path = 1) → CompletesTo .fwAbort s (reply (withSec s (dropUpdate s.sec)) 0 []))
  ∧ (∀ (s : State) (r : MbxRsp) (d : Dev), s.dev.su.mbx = some r →
    d = (List.range ((r.payload.length + 7) / 8)).foldl (fun s w => setReg s (offSU_MBX_RSP (1 + w)) (BitVec.ofNat 64 (leNat ((r.payload.drop (8 * w)).take 8))))
      (setReg s.dev (offSU_MBX_RSP 0) (BitVec.ofNat 64 (r.status + 2 ^ 16 * r.payload.length + 2 ^ 32 * fld (reg s.dev (offSU_MBX_REQ 0)) 63 32))) →
    getF (setF (setF { d with su := { d.su with mbx := none } } fSU_MBX_CTL_BUSY 0) fSU_MBX_CTL_DONE 1) fSU_MBX_CTL_IRQ_EN = 0 →
      Completes .mailboxResponse s (setF (setF { d with su := { d.su with mbx := none } } fSU_MBX_CTL_BUSY 0) fSU_MBX_CTL_DONE 1))

/-- Firmware update by PLDM, its timers, the restarts of the Bridles and debug authorization (R54, R731, R733, R736). -/
def Obligations.UpdatesAndDebugComplete : Prop :=
  (∀ (s : State) (len : Nat), answers s = true → s.sec.update = none → len ≤ bankSize →
      CompletesTo (.requestUpdate len) s (respond (withSec s (beginUpdate s.sec 2 len s.dev.now)) 289 [0]))
  ∧ (∀ (s : State) (u : Update) (comp : Fin 4) (size : Nat) (t : State), answers s = true → s.sec.update = some u → u.path = 2 → comp.val ≠ 0 → comp.val = u.comp + 1 →
    u.base + u.size + size ≤ u.len →
    t = respond (withSec s { s.sec with update := some { u with comp := comp, base := u.base + u.size, size := size, at' := s.dev.now, verified := false } }) 290 [0] →
      CompletesTo (.updateComponent comp size) s { t with dev := mgmtOut t.dev 3 [comp, 0] })
  ∧ (∀ (s : State) (u : Update) (offset : Nat) (data : List Byte) (t : State), answers s = true → s.sec.update = some u → u.path = 2 → u.comp ≠ 0 → offset + data.length < u.size →
    t = withSec s (writeUpdate s.sec u (u.base + offset) data s.dev.now) →
      CompletesTo (.firmwareData offset data) s { t with dev := mgmtOut t.dev 3 [u.comp, offset + data.length] })
  ∧ (∀ (s : State) (u : Update) (offset : Nat) (data : List Byte) (t : State), answers s = true → s.sec.update = some u → u.path = 2 → u.comp ≠ 0 → offset + data.length = u.size →
    t = withSec s (writeUpdate s.sec u (u.base + offset) data s.dev.now) → CompletesTo (.firmwareData offset data) s { t with dev := mgmtOut t.dev 4 [u.comp] })
  ∧ (∀ (s : State) (u : Update), answers s = true → s.sec.update = some u → u.path = 2 → CompletesTo .cancelUpdate s (respond (withSec s (dropUpdate s.sec)) 292 [0]))
  ∧ (∀ (s : State) (u : Update) (q : Sec), answers s = true → s.sec.update = some u → u.path = 2 → u.verified = false → verifyUpdate s.sec u s.dev.now = (q, true) →
      CompletesTo (.activateFirmware false) s (activate (respond (withSec s q) 233 [0])))
  ∧ (∀ (s : State), answers s = true → CompletesTo (.activateFirmware true) s (respond s 233 [0x85]))
  ∧ (∀ (s : State) (u : Update), s.sec.update = some u →
      CompletesTo .updateIdleExpiry s (withSec { s with dev := { s.dev with now := max s.dev.now (u.at' + 60000000000) } } (dropUpdate s.sec)))
  ∧ (∀ (s : State), s.dev.su.powered = true → s.dev.bridle.up = false → s.sec.trial ≠ 0 → s.sec.run = s.sec.trial → CompletesTo .trialBootFailure s (bootFails s))
  ∧ (∀ (s : State), s.dev.su.powered = true → getF s.dev fSU_FW_PRIMARY ≠ 0 →
      CompletesTo (.managementPlaneRestart true) s (withSec { s with dev := bridleUp s.dev } s.sec)
      ∧ CompletesTo (.managementPlaneRestart false) s { s with dev := bridleDown s.dev })
  ∧ (∀ (s : State) (nonce : BitVec 128), answersAll s = true →
      CompletesTo (.debugNonce nonce) s (respond { s with dev := { s.dev with mg := { s.dev.mg with nonces := s.dev.mg.nonces ++ [(nonce.toNat, s.dev.now)] } } } 285 [nonce.toNat]))
  ∧ (∀ (s : State) (serial : Word) (nonce : BitVec 128) (sig : BitVec 768), answersAll s = true →
      CompletesTo (.debugToken serial nonce sig) s
        (if tokenOk s serial nonce sig.toNat then respond { s with dev := setDebug s.dev true } 223 [0] else respond s 223 [1]))
  ∧ (∀ (s : State), answersAll s = true → debugOn s.dev = true → CompletesTo .debugDisable s (respond { s with dev := setDebug s.dev false } 224 [0]))

/-- PLDM base and monitoring, MCTP control and I3C (R721, R722, R724 to R726, R781, R782): each request is answered, and an assignment is kept. -/
def Obligations.MonitoringCompletes : Prop :=
  (∀ (s : State), answersAll s = true →
    CompletesTo .getTid s (respond s 225 [0, 0])
    ∧ CompletesTo .getPldmTypes s (respond s 227 [0, 0, 2, 5])
    ∧ CompletesTo (.getPldmVersion 5) s (respond s 226 [0, 5, 1, 3])
    ∧ (∀ type : Fin 64, type.val ∈ pldmTypes → CompletesTo (.getPldmCommands type) s (respond s 228 (0 :: pldmCommands type)))
    ∧ (∀ (id : BitVec 16) (v : Nat), numericSensor s.dev id.toNat = some v → CompletesTo (.getSensorReading id) s (respond s 229 [0, v]))
    ∧ (∀ (id : BitVec 16) (e : Nat × Nat), (sensorStates s.dev).find? (fun e => e.1 == id.toNat && decide (0x40 ≤ id.toNat)) = some e →
        CompletesTo (.getStateSensorReadings id) s (respond s 230 [0, e.2]))
    ∧ (∀ value : BitVec 32, 1000 ≤ value.toNat → value.toNat ≤ 3600 →
        CompletesTo (.setNumericEffecterValue 0x80 value) s (respond { s with dev := setF { s.dev with pw := { s.dev.pw with mgmtBudget := some value.toNat } } fPW_STATUS_MGMT_W value.toNat } 231 [0]))
    ∧ (∀ value : BitVec 32, rampOk value.toNat = true →
        CompletesTo (.setNumericEffecterValue 0x81 value) s (respond { s with dev := { s.dev with pw := { s.dev.pw with mgmtRamp := some value.toNat } } } 231 [0]))
    ∧ (∀ value : BitVec 32, value.toNat ≤ 3600 →
        CompletesTo (.setNumericEffecterValue 0x82 value) s (respond { s with dev := { s.dev with pw := { s.dev.pw with mgmtFloor := some value.toNat } } } 231 [0]))
    ∧ (∀ temps : Temps, (setTemps s.dev temps).pw.off = .trip → coolEnough temps = true →
        CompletesTo (.setStateEffecterStates 0x83 temps) s (standUp (respond { s with dev := setTemps s.dev temps } 232 [0]) (getF (setTemps s.dev temps) fSU_PINS_MOD_ID)))
    ∧ (∀ (x y : Nat × Nat) (l : List (Nat × Nat)), s.dev.mg.events = x :: y :: l →
        CompletesTo .platformEventAck s { s with dev := { s.dev with mg := { s.dev.mg with events := y :: l } } })
    ∧ (∀ x : Nat × Nat, s.dev.mg.events = [x] → CompletesTo .platformEventAck s { s with dev := setF { s.dev with mg := { s.dev.mg with events := [] } } fSU_PINS_ALERT 0 })
    ∧ (∀ eid : Option (BitVec 8), CompletesTo (.setEventReceiver eid) s (respond { s with dev := { s.dev with mg := { s.dev.mg with receiver := eid.map BitVec.toNat } } } 282 [0])))
  ∧ (∀ (s : State), answers s = true →
    (∀ eid : BitVec 8, eid ≠ 0 → eid ≠ 255 → CompletesTo (.setEndpointId eid) s (respond { s with dev := { s.dev with mg := { s.dev.mg with eid := eid.toNat } } } 283 [0]))
    ∧ (∀ (pid : Fin 32) (addr : BitVec 7), pid.val = getF s.dev fSU_PINS_MOD_ID →
        CompletesTo (.dynamicAddressAssignment pid addr) s { s with dev := { s.dev with mg := { s.dev.mg with dyn := addr.toNat } } }))

/-- SPDM, link encryption and trusted interfaces (R722, R723, R734, R735): negotiation, certificates, measurements, sessions, stream keys and
the TDI states. -/
def Obligations.TrustCompletes : Prop :=
  (∀ (s : State), answers s = true →
    CompletesTo .getVersion s (respond (setSpdm s { s.dev.mg.spdm with version := true, caps := false, algs := false, handshake := none }) 234 [0x13])
    ∧ (s.dev.mg.spdm.version = true → CompletesTo .getCapabilities s (respond (setSpdm s { s.dev.mg.spdm with caps := true }) 235 [0x62D6]))
    ∧ (s.dev.mg.spdm.version = true → s.dev.mg.spdm.caps = true →
        CompletesTo (.negotiateAlgorithms true true true true) s (respond (setSpdm s { s.dev.mg.spdm with algs := true }) 236 [1, 1, 1, 1]))
    ∧ (negotiated s.dev.mg.spdm = true →
        CompletesTo .getDigests s (respond s 237 [1])
        ∧ CompletesTo (.getCertificate 0) s (respond s 238 [0]) ∧ CompletesTo (.challenge 0) s (respond s 239 [0])
        ∧ CompletesTo (.getMeasurements 0) s (respond s 240 [5])
        ∧ (∀ index : BitVec 8, 1 ≤ index.toNat → index.toNat ≤ 5 → CompletesTo (.getMeasurements index) s (respond s 240 (measurement s index.toNat)))
        ∧ CompletesTo (.getMeasurements 0xFF) s (respond s 240 ([1, 2, 3, 4, 5].flatMap (measurement s)))
        ∧ CompletesTo .keyExchange s (respond (setSpdm s { s.dev.mg.spdm with handshake := some s.dev.mg.spdm.nextId, nextId := s.dev.mg.spdm.nextId + 1 }) 241 [s.dev.mg.spdm.nextId]))
    ∧ (∀ id, s.dev.mg.spdm.handshake = some id →
        CompletesTo (.finish id) s (respond (setSpdm s { s.dev.mg.spdm with handshake := none, sessions := s.dev.mg.spdm.sessions ++ [(id, 0)] }) 242 [id]))
    ∧ (∀ id, hasSession s.dev.mg.spdm id = true →
        CompletesTo (.heartbeat id) s (respond s 243 [id])
        ∧ CompletesTo (.keyUpdate id) s (respond (setSpdm s { s.dev.mg.spdm with sessions := s.dev.mg.spdm.sessions.map (fun e : Nat × Nat => if e.1 = id then (e.1, e.2 + 1) else e) }) 244 [id])
        ∧ CompletesTo (.endSession id) s (respond (setSpdm s { s.dev.mg.spdm with sessions := s.dev.mg.spdm.sessions.filter (fun e => e.1 != id) }) 245 [id])))
  ∧ (∀ (s : State) (port : Fin 2), doeOpen s port = true →
    (∀ slice : Fin 16, CompletesTo (.getDeviceInterfaceReport port slice) s (respond s 246 (slicePages s.dev slice ++ [slice.val])))
    ∧ (∀ (session : Nat) (stream : Fin 257), hasSession s.dev.mg.spdm session = true → (getPort s.dev port).ideKeys.contains stream.val = false →
        (stream.val = 256 ∨ ((getPort s.dev port).ideKeys.filter (fun k => decide (k < 256))).length < 8) →
        CompletesTo (.ideKm port session stream) s (respond { s with dev := modPort s.dev port (fun p => { p with ideKeys := if p.ideKeys.contains stream.val then p.ideKeys else p.ideKeys ++ [stream.val] }) } 247 [stream.val]))
    ∧ (∀ slice : Fin 16, tdiState s.dev slice = 0 → CompletesTo (.lockInterface port slice) s (respond (setTdi s slice 1) 286 [slice.val]))
    ∧ (∀ slice : Fin 16, tdiState s.dev slice = 1 → CompletesTo (.startInterface port slice) s (respond (setTdi s slice 2) 287 [slice.val]))
    ∧ (∀ slice : Fin 16, CompletesTo (.stopInterface port slice) s (respond (setTdi s slice 0) 288 [slice.val])))

/-- Scale-out (R368, R739, R744 to R756, R768): Tandem is enabled; requests of peer modules are performed, in PSN order, and acknowledged; responses,
acknowledgements, refusals, congestion notices, times and flow resets act; the timers of a flow and the ports' changes act. -/
def Obligations.ScaleOutCompletes : Prop :=
  (∀ (s : State) (port : Fin 2) (data : Word), SetupTaken s.dev port offSO_CFG → (∀ h, h < 2 → 64 ≤ getF s.dev (fSO_RTX_SIZE_MIB h)) →
      Completes (.soEnable port data) s (repin (writeReg s.dev offSO_CFG data)))
  ∧ (∀ (s : State) (port : Fin 48) (p q : Packet) (f : RxFlow) (d1 d2 d3 : Dev) (e : Nat) (l : List RxPart), q = { p with op := 1 } → RxGoes s.dev port q f d1 d2 e l →
    d3 = rxNext (rxWrite (getF d1 (fSO_EXP0_SLICE e)) q d2 l) q → CompletesM (.write port p) s (rxAck port q d3))
  ∧ (∀ (s : State) (port : Fin 48) (p q : Packet) (f : RxFlow) (d1 d2 d3 : Dev) (e : Nat) (l : List RxPart), q = { p with op := 4 } → RxGoes s.dev port q f d1 d2 e l →
    d3 = rxNext (rxReduce (getF d1 (fSO_EXP0_SLICE e)) q d2 l) q → CompletesM (.tandemReduce port p) s (rxAck port q d3))
  ∧ (∀ (s : State) (port : Fin 48) (p q rsp : Packet) (f : RxFlow) (d1 d2 d3 d4 d5 : Dev) (e : Nat) (l : List RxPart) (b : List (Byte × Bool)), q = { p with op := 2 } →
    RxGoes s.dev port q f d1 d2 e l → rxRead (getF d1 (fSO_EXP0_SLICE e)) d2 l = (d3, b) →
    rsp = { replyTo d3 3 q with poison := anyPoison b, len := q.len, tag := q.tag, payload := b.map (fun x => x.1) } →
    d4 = modRx (rxNext d3 q) (isRx q.eng.toNat q.src.toNat q.tc.toNat) (fun f => { f with rsp := f.rsp.filter (fun x => decide ((f.expect + 2 ^ 32 - x.1) % 2 ^ 32 ≤ 65536)) ++ [(q.psn.toNat, rsp)] }) →
    d5 = sendPacket d4 port rsp → CompletesM (.readReq port p) s (rxAck port q d5))
  ∧ (∀ (s : State) (port : Fin 48) (p q : Packet) (r : PeerReq) (d : Dev) (eng tc : Nat) (x : TxPkt), q = { p with op := 3 } → FrameTaken s.dev port q →
    d = countHub s.dev (portHub port) 0xC5 (32 + q.payload.length) → d.peerOut.find? (fun r => r.kind == 2 && BitVec.ofNat 32 r.id == q.tag && peerMod r.pa == q.src.toNat) = some r →
    eng = r.eng.getD 0 → tc = flowClass eng (peerMod r.pa) →
    (((txFlow d eng (peerMod r.pa) tc).map (fun f => f.unacked)).getD []).find? (fun y => y.reqs.contains r.id) = some x →
      CompletesM (.readRsp port p) s
        (launchAll (settlePeers (answerPeer
          (let t := (psnDone d eng (peerMod r.pa) tc x.pkt.psn.toNat).1
           if q.poison && r.who.isNone then markPoison t r.cmd else t) r
          { data := BitVec.ofNat 4096 (leNat q.payload * 2 ^ (8 * (maskSpan r.mask.toNat).1)), poison := if q.poison then 255 else 0, err := none }))))
  ∧ (∀ (s : State) (port : Fin 48) (p q : Packet) (f : TxFlow) (d : Dev) (gone rest : List TxPkt), q = { p with op := 5, addr := 0 } → FrameTaken s.dev port q →
    d = countHub s.dev (portHub port) 0xC5 (32 + q.payload.length) → txFlow d q.eng.toNat q.src.toNat q.tc.toNat = some f →
    gone = f.unacked.filter (fun x => psnCovered q.ack.toNat x.pkt.psn.toNat && x.pkt.op != 2) →
    rest = f.unacked.filter (fun x => !(psnCovered q.ack.toNat x.pkt.psn.toNat && x.pkt.op != 2)) →
      CompletesM (.ack port { p with addr := 0 }) s
        (launchAll (settlePeers (acked (modTx d (isFlow q.eng.toNat q.src.toNat q.tc.toNat) (fun f => { f with unacked := rest, ackAt := d.now, idleAt := if rest.isEmpty then d.now else f.idleAt }))
          (gone.flatMap (fun x => x.reqs))))))
  ∧ (∀ (s : State) (port : Fin 48) (p q : Packet) (d d2 : Dev) (qs : List PeerReq), q = { p with op := 6 } → FrameTaken s.dev port q →
    d = countHub s.dev (portHub port) 0xC5 (32 + q.payload.length) → psnDone d q.eng.toNat q.src.toNat q.tc.toNat q.psn.toNat = (d2, qs) →
      CompletesM (.nak port p) s (ackFlow (qs.foldl peerFaults d2) q.eng.toNat q.src.toNat q.tc.toNat q.ack.toNat q.addr.toNat))
  ∧ (∀ (s : State) (port : Fin 48) (p q : Packet) (f : TxFlow) (d : Dev), q = { p with op := 7 } → FrameTaken s.dev port q →
    d = countHub s.dev (portHub port) 0xC5 (32 + q.payload.length) → txFlow d q.eng.toNat q.src.toNat q.tc.toNat = some f →
    getF (satF d (fSO_STAT_CNP_RX f.hub) 1) (fSO_TC_ECN_EN f.tc) ≠ 0 →
      CompletesM (.cnp port p) s
        (let t := satF d (fSO_STAT_CNP_RX f.hub) 1
         modTx t (isFlow f.eng f.mod f.tc) (fun g => { g with rate := max (f.rate - f.rate / 2 ^ getF t fSO_RC_DEC_SHIFT) (getF t fSO_RC_RMIN * 1000), rateAt := t.now })))
  ∧ (∀ (s : State) (port : Fin 48) (p q : Packet) (d : Dev), q = { p with op := 8 } → FrameTaken s.dev port q →
    d = countHub s.dev (portHub port) 0xC5 (32 + q.payload.length) → q.dst.toNat = getF d fSO_CFG_MODULE_ID → q.payload.length = 8 →
      CompletesM (.time port p) s (sendPacket d port { replyTo d 8 q with len := 23, payload := q.payload ++ be8 (timeBase d) ++ be8 (timeBase d) }))
  ∧ (∀ (s : State) (port : Fin 48) (p q : Packet) (d : Dev), q = { p with op := 9 } → FrameTaken s.dev port q →
    d = countHub s.dev (portHub port) 0xC5 (32 + q.payload.length) →
      CompletesM (.flowReset port p) s (showFlows { d with tandem := { d.tandem with rx := d.tandem.rx.filter (fun f => f.src != q.src.toNat) } }))
  ∧ (∀ (s : State) (port : Nat) (rest : List Nat) (d : Dev), getF s.dev fOBS_TSYNC_CFG_SRC = 1 → upPorts s.dev (getF s.dev fOBS_TSYNC_CFG_MASTER_ID) = port :: rest →
    d = { s.dev with obs := { s.dev.obs with timeReqs := s.dev.obs.timeReqs ++ [timeBase s.dev] } } →
      Completes .timeRequest s (sendPacket d port { newPacket d 8 0 (getF s.dev fOBS_TSYNC_CFG_MASTER_ID) 0 with len := 7, payload := be8 (timeBase s.dev) }))
  ∧ (∀ (s : State) (eng : BitVec 16) (m : BitVec 12) (tc : BitVec 3) (f : TxFlow), txFlow s.dev eng.toNat m.toNat tc.toNat = some f →
    (∀ (psn : BitVec 32) (q : TxPkt) (port : Nat), f.unacked.find? (fun q => q.pkt.psn.toNat == psn.toNat) = some q → f.port = some port →
      CompletesM (.resendTimeout eng m tc psn) s (resend eng.toNat m.toNat tc.toNat { s.dev with now := max s.dev.now (q.sentAt + rtoNs s.dev) } q))
    ∧ (∀ port, f.port = some port → getF s.dev (fSO_TC_ECN_EN tc.toNat) ≠ 0 →
        Completes (.rateIncrease eng m tc) s
          (let t := { s.dev with now := max s.dev.now (f.rateAt + getF s.dev fSO_RC_INC_US * 1000) }
           modTx t (isFlow eng.toNat m.toNat tc.toNat) (fun f => { f with rate := min (f.rate + getF t fSO_RC_RAI * 100) (portRate t port), rateAt := t.now })))
    ∧ (∀ t, f.waitAt = some t → f.port = none → CompletesM (.flowFailExpiry eng m tc) s (peerDies { s.dev with now := max s.dev.now (t + 4000000) } m.toNat))
    ∧ (f.unacked ≠ [] → CompletesM (.peerAckTimeout eng m tc) s (peerDies { s.dev with now := max s.dev.now (f.ackAt + 4000000) } m.toNat))
    ∧ (f.unacked = [] →
        Completes (.flowContextFree eng m tc) s
          (let t := { s.dev with now := max s.dev.now (f.idleAt + 1000000) }
           launchAll (showFlows { t with tandem := { t.tandem with tx := t.tandem.tx.filter (fun x => !isFlow eng.toNat m.toNat tc.toNat x) } }))))
  ∧ (∀ (s : State) (port : Fin 48), getF s.dev (fSO_PORT_STATE port) = 2 → CompletesM (.portDown port) s (repin (setF s.dev (fSO_PORT_STATE port) 3)))
  ∧ (∀ (s : State) (port : Fin 48), portInMode s.dev port = true → getF s.dev (fSO_PORT_STATE port) ≠ 2 → hubLost s.dev (portHub port) = false → s.dev.pw.off = .on →
      Completes (.portUp port) s (repin (setF s.dev (fSO_PORT_STATE port) 2)))
  ∧ (∀ (s : State) (port : Fin 2) (m : BitVec 12) (gone : List PeerReq) (d : Dev), SetupTaken s.dev port offSO_PEER_RESET →
    gone = s.dev.peerOut.filter (fun q => peerMod q.pa == m.toNat && q.framed) →
    d = (let t := gone.foldl losePeer (dropWrites s.dev (fun pa _ => inWindow s.dev m.toNat pa && gone.any (fun q => q.pa / 512 == pa / 512)))
         showFlows { t with tandem := { t.tandem with tx := t.tandem.tx.filter (fun f => f.mod != m.toNat) } }) →
      (∀ p rest, upPorts d m.toNat = p :: rest →
        CompletesM (.peerReset port m) s (launchAll (settlePeers (setF (sendPacket d p (newPacket d 9 0 m.toNat 0)) (fSO_PEER_DEAD m.toNat) 0))))
      ∧ (upPorts d m.toNat = [] → CompletesM (.peerReset port m) s (launchAll (settlePeers (setF d (fSO_PEER_DEAD m.toNat) 0)))))

/-- What the set-up and ring rows do to the registers and queues they act on (R23, R29, R30, R458, R464, R471 to R476, R494 to R496, R504, R698):
a taken write of a plain register of the PW_ block gives each RW field that takes its encoding the value written; a read of a register answers on
its port, an odd one with zeros; a held half goes; the lease changes hands; a resume that another module still holds back, and the end of its
hold; a doorbell moves TAIL alone; a fetch adds a read and sends it; arrival moves the descriptors to the channel; a failed read or record
write puts the ring in ERROR with its record; a dispatch makes the fetched descriptor a command; a timeout ends its command with TIMEOUT; a moderation time
sends the message; a lost link is recorded; and the reset of an idle channel leaves it empty. -/
def Obligations.SetupAndRingRowsAct : Prop :=
  (∀ (s : State) (port : Fin 2) (off : BitVec 26) (r : RegSpec) (f : FieldSpec) (val : Word), SetupTaken s.dev port off.toNat → off.toNat % 8 = 0 →
    off.toNat / 0x100000 = 5 → off.toNat ≠ offPW_BUDGET → off.toNat ≠ offPW_RAMP → regSpecAt off.toNat = some r → f ∈ r.fields → f.acc = .rw →
    legalEnc f (fld val f.msb f.lsb) = true →
      ∃ t, exec (.setupWrite port off false val) s = .next t ∧ fld (reg t.dev off.toNat) f.msb f.lsb = fld val f.msb f.lsb ∧ t.pending = s.pending ∧ t.sec = s.sec)
  ∧ (∀ (s : State) (port : Fin 2) (off : BitVec 26) (len : Fin 4097), bar0Open s.dev port = true → (getPort s.dev port).held = none →
    ((len.val = 4 ∨ len.val = 8) → off.toNat % len.val = 0 → regAt s.dev (off.toNat / 8 * 8) = true →
      ∃ t, exec (.bar0AccessError port off len false) s = .next t
        ∧ t.dev.out = s.dev.out ++ [.readData port (leBytes len ((readWord s.dev port (off.toNat / 8 * 8)).toNat / 2 ^ (8 * (off.toNat % 8)))) false])
    ∧ (¬((len.val = 4 ∨ len.val = 8) ∧ off.toNat % len.val = 0 ∧ regAt s.dev (off.toNat / 8 * 8) = true) →
      ∃ t, exec (.bar0AccessError port off len false) s = .next t ∧ t.dev.out.getLast? = some (.readData port (List.replicate len.val 0) false)))
  ∧ (∀ (s : State) (port : Fin 2) (h : HeldHalf), (getPort s.dev port).held = some h →
      ∃ t, exec (.lowerHalfExpiry port) s = .next t ∧ (getPort t.dev port).held = none ∧ h.since + 1000 ≤ t.dev.now)
  ∧ (∀ (s : State) (port : Fin 2) (lease : BitVec 6) (tie : Bool), bar0Open s.dev port = true → (getPort s.dev port).held = none → lease.toNat ≠ 0 → lease.toNat ≤ 60 →
    leaseFree s.dev = true ∨ getF s.dev fID_SEM_OWNER = port.val + 1 →
      ∃ t, exec (.claim port lease tie) s = .next t ∧ getF t.dev fID_SEM_OWNER = port.val + 1 ∧ getF t.dev fID_SEM_REMAIN_MS = 1000 * lease.toNat
        ∧ t.dev.leaseEnd = s.dev.now + 1000000000 * lease.toNat ∧ holdsLease t.dev port = true)
  ∧ (∀ (s : State) (port : Fin 2), bar0Open s.dev port = true → (getPort s.dev port).held = none → holdsLease s.dev port = true →
      ∃ t, exec (.release port) s = .next t ∧ getF t.dev fID_SEM_OWNER = 0 ∧ leaseFree t.dev = true)
  ∧ (∀ s : State, getF s.dev fID_SEM_OWNER ≠ 0 → ∃ t, exec .leaseExpiry s = .next t ∧ getF t.dev fID_SEM_OWNER = 0 ∧ s.dev.leaseEnd ≤ t.dev.now)
  ∧ (∀ (s : State) (port : Fin 2), bar0Open s.dev port = true → (getPort s.dev port).held = none → regAt s.dev offOBS_WHOA_CTL = true →
    holdsLease s.dev port = true → whoaStopped s.dev = true → stage s.dev = 2 → tdiHolds s.dev offOBS_WHOA_CTL = false → s.dev.obs.stopIn = true →
      ∃ t, exec (.resume port) s = .next t ∧ t.dev.obs.stopOut = false ∧ t.dev.obs.resuming = true ∧ whoaStopped t.dev = true ∧ getF t.dev fSU_PINS_STOP = 1)
  ∧ (∀ s : State, s.dev.obs.stopIn = true → s.dev.obs.resuming = false →
      ∃ t, exec .stopIoRelease s = .next t ∧ t.dev.obs.stopIn = false ∧ getF t.dev fSU_PINS_STOP = s.dev.obs.stopOut.toNat ∧ whoaStopped t.dev = whoaStopped s.dev)
  ∧ (∀ (s : State) (port : Fin 2) (vf : Option (Fin 16)) (chan : Fin 16) (ring : Fin 64) (page : Fin 4096) (data : Word), pageAnswers s.dev port vf page = true →
    (page.val = 256 * chan.val + ring.val ∨ page.val = 256 * chan.val + 64) → fld data 63 32 = 0 → fld data 31 16 = ring.val →
    getF s.dev (fCH_SQ_STATE_STATE chan ring) = 1 → fld data 15 0 < 2 ^ getF s.dev (fCH_SQ_CFG_LOG2SZ chan ring) →
      ∃ t, exec (.doorbell port vf page 0 8 data) s = .next t ∧ getF t.dev (fCH_SQ_STATE_TAIL chan ring) = fld data 15 0
        ∧ (∀ o, o ≠ offCH_SQ_STATE chan ring → reg t.dev o = reg s.dev o) ∧ t.dev.chans = s.dev.chans ∧ t.dev.cmds = s.dev.cmds ∧ t.dev.out = s.dev.out)
  ∧ (∀ (s : State) (chan : Fin 16) (ring : Fin 64) (mapped : Bool) (start k p : Nat), p = portOf (getF s.dev (fCH_SQ_CFG_PORT chan ring)) →
    chanLive s.dev chan ring = true → getF s.dev (fCH_SQ_STATE_STATE chan ring) = 1 → portUp s.dev p = true → portReads s.dev p < 768 →
    nextRead s.dev chan ring = (start, k) → k ≠ 0 → (ringPasid s.dev chan ring = none ∨ mapped = true) →
      ∃ t, exec (.ringFetch chan ring mapped) s = .next t ∧ t.dev.out = s.dev.out ++ [.fetch p chan ring start k]
        ∧ (getCh t.dev chan).reads = (getCh s.dev chan).reads ++ [{ ring := ring, index := start, count := k, pri := false }]
        ∧ (getCh t.dev chan).fetched = (getCh s.dev chan).fetched)
  ∧ (∀ (s : State) (chan : Fin 16) (ring : Fin 64) (descs : List Block64) (r : FetchRead),
    (getCh s.dev chan).reads.find? (fun x => x.ring == ring.val) = some r → r.pri = false → descs.length = r.count → whoaStopped s.dev = false →
    getF s.dev (fCH_SQ_STATE_STATE chan ring) = 1 → getF s.dev (fCH_SQ_CFG_LOG2SZ chan ring) ≤ 16 →
      ∃ t fs, exec (.descriptorArrival chan ring descs) s = .next t ∧ (getCh t.dev chan).fetched = (getCh s.dev chan).fetched ++ fs ∧ fs.map (fun f => f.desc) = descs
        ∧ (getCh t.dev chan).reads = (getCh s.dev chan).reads.erase r
        ∧ getF t.dev (fCH_SQ_STATE_HEAD chan ring) = (r.index + r.count) % 2 ^ getF s.dev (fCH_SQ_CFG_LOG2SZ chan ring))
  ∧ (∀ (s : State) (chan : Fin 16) (ring : Fin 64), (getCh s.dev chan).reads.any (fun r => r.ring == ring.val) = true → getF s.dev (fCH_SQ_STATE_STATE chan ring) = 1 →
      ∃ (d : Dev) (r : ErrRec), exec (.fetchFailure chan ring) s = .next { s with dev := errRecord d r } ∧ getF d (fCH_SQ_STATE_STATE chan ring) = 2
        ∧ getF d (fCH_SQ_STATE_CAUSE chan ring) = 1 ∧ (getCh d chan).reads.any (fun x => x.ring == ring.val) = false ∧ r.sev = 2 ∧ r.cause = 0x14 ∧ r.index = chan.val ∧ r.ring = chan.val + 16 * ring.val)
  ∧ (∀ (s : State) (chan : Fin 16) (tag : Nat) (f : Fetched) (heads : List (Nat × Fetched)), ¬(stage s.dev = 1 ∧ stepDone s.dev 12 = true) →
    heads = (List.range 64).filterMap (fun n => ringHead s.dev chan n) → (∀ h ∈ heads, coopWaits s.dev chan h.1 h.2 = false) →
    firstBy (fun h => ringOrder s.dev chan h.2.ring) heads = some (tag, f) → (getSqr s.dev chan f.ring).aborting = false → dOpcode f.desc ≠ 0x0A →
    descBad f.desc = false → tag < 16 →
      ∃ t, exec (.dispatch chan) s = .next t ∧ t.dev.cmds = s.dev.cmds ++ [newCmd s.dev chan tag f] ∧ t.dev.nextKey = s.dev.nextKey + 1
        ∧ (getCh t.dev chan).fetched = (getCh s.dev chan).fetched.erase f ∧ (getCh t.dev chan).lastRing = f.ring)
  ∧ (∀ (s : State) (key d : Nat) (c : Cmd), getCmd s.dev key = some c → c.deadline = some d → whoaStopped s.dev = false → c.saved = false →
    frozenSlice s.dev c.tag = false → c.status = none →
      exec (.commandTimeout key) s = .next { s with dev := finishCmd (stopWork (fixStatus { s.dev with now := max s.dev.now d } key 0x03 (some (cmdErr c))) key) key })
  ∧ (∀ (s : State) (chan : Fin 16) (cq : Fin 64) (p : Nat), (getCqr s.dev chan cq).count ≠ 0 → getF s.dev (fCH_CQ_CFG_MOD_US chan cq) ≠ 0 →
    getF s.dev (fCH_CQ_CFG_IRQ_EN chan cq) = 1 → getF s.dev (fCH_CQ_STATE_STATE chan cq) = 1 → whoaStopped s.dev = false → getF s.dev (fCH_CQ_CFG_VFV chan cq) = 0 →
    p = portOf (getF s.dev (fCH_CQ_CFG_PORT chan cq)) → (getPort s.dev p).up = true → (getPort s.dev p).msixEn.getLsbD 0 = true →
    (getPort s.dev p).msixOff.contains (vecKey none (getF s.dev (fCH_CQ_CFG_VECTOR chan cq))) = false →
      ∃ t, exec (.modUsExpiry chan cq) s = .next t ∧ t.dev.out = s.dev.out ++ [.msix p none (getF s.dev (fCH_CQ_CFG_VECTOR chan cq))]
        ∧ (getCqr t.dev chan cq).count = 0)
  ∧ (∀ (s : State) (chan : Fin 16) (cq : Fin 64), getF s.dev (fCH_CQ_STATE_STATE chan cq) = 1 →
      ∃ (d : Dev) (r : ErrRec), exec (.recordWriteFailure chan cq) s = .next { s with dev := errRecord d r } ∧ getF d (fCH_CQ_STATE_STATE chan cq) = 2
        ∧ getF d (fCH_CQ_STATE_CAUSE chan cq) = 4 ∧ r.sev = 2 ∧ r.cause = 0x14 ∧ r.index = chan.val)
  ∧ (∀ (s : State) (port : Fin 2),
      (portUp s.dev port = true → ∃ (d : Dev) (r : ErrRec), exec (.dlDown port) s = .next { s with dev := errRecord d r } ∧ r.sev = 2 ∧ r.cause = 0x41 ∧ r.die = 8 + port.val ∧ r.unit = 0x0A)
      ∧ (portUp s.dev port = false → exec (.dlDown port) s = .next s))
  ∧ (∀ (s : State) (port : Fin 2) (chan : Fin 16), SetupTaken s.dev port (offCH_RESET chan) → (∀ c ∈ s.dev.cmds, c.chan ≠ chan.val) →
      ∃ (t : State) (d : Dev), exec (.channelReset port chan) s = .next t ∧ t.dev = (List.range 32).foldl pokeRegion d ∧ t.pending = s.pending
        ∧ getF d (fCH_RESET_BUSY chan) = 0 ∧ (getCh d chan).fetched = [] ∧ (getCh d chan).reads = [])
end

