-- ==== Sys2Proof/Laws/Decode.lean ====
section
/-! SUPPORT. Sys2Proof/Laws/Decode.lean: the opcode map decodes what it encodes (R168, R170). -/
namespace Sys2Proof

/-- R168: the fields of an encoded word. -/
theorem word_bit (b : BitVec 52) (h : BitVec 4) (o : BitVec 8) (i : Nat) :
    (b ++ h ++ o : BitVec 64).getLsbD i = if i < 8 then o.getLsbD i else if i - 8 < 4 then h.getLsbD (i - 8) else b.getLsbD (i - 12) := by
  have h1 : (b ++ h ++ o : BitVec 64).getLsbD i = if i < 8 then o.getLsbD i else (b ++ h).getLsbD (i - 8) := BitVec.getLsbD_append
  have h2 : (b ++ h).getLsbD (i - 8) = if i - 8 < 4 then h.getLsbD (i - 8) else b.getLsbD (i - 8 - 4) := BitVec.getLsbD_append
  rw [h1, h2, Nat.sub_sub]

theorem word_body (b : BitVec 52) (h : BitVec 4) (o : BitVec 8) : (b ++ h ++ o : BitVec 64).extractLsb' 12 52 = b := by
  refine BitVec.eq_of_getLsbD_eq fun i hi => ?_
  rw [BitVec.getLsbD_extractLsb', word_bit, if_neg (by omega), if_neg (by omega), Nat.add_sub_cancel_left, decide_eq_true hi, Bool.true_and]

theorem word_hdr (b : BitVec 52) (h : BitVec 4) (o : BitVec 8) : (b ++ h ++ o : BitVec 64).extractLsb' 8 4 = h := by
  refine BitVec.eq_of_getLsbD_eq fun i hi => ?_
  rw [BitVec.getLsbD_extractLsb', word_bit, if_neg (by omega), if_pos (by omega), Nat.add_sub_cancel_left, decide_eq_true hi, Bool.true_and]

theorem word_opcode (b : BitVec 52) (h : BitVec 4) (o : BitVec 8) : (b ++ h ++ o : BitVec 64).extractLsb' 0 8 = o := by
  refine BitVec.eq_of_getLsbD_eq fun i hi => ?_
  rw [BitVec.getLsbD_extractLsb', word_bit, if_pos (by omega), decide_eq_true hi, Bool.true_and, Nat.zero_add]

/-- What the fetch of an encoded word brings to a slot: the instruction's own parts. -/
theorem wordParts_encode (iw : IWord) (o : BitVec 8) (h : iw.opcode = none) (hs : iw.sram = none) :
    wordParts iw.core iw.slot iw.poison (iw.body ++ iw.hdr ++ o) = iw := by
  cases iw
  simp only at h hs
  subst h; subst hs
  simp only [wordParts, word_body, word_hdr]

/-- R168, R170: an instruction with its row's opcode, encoded, fetched and decoded, is that instruction again, where KIND makes a FENCE its row's
and `mx` is the operation of an MX's row. -/
theorem decodeWord_encodeWord (i : Instr) (o : BitVec 8) (iw : IWord) (w : Word) (mx : Nat) (hi : opcodeOf i = some (o, iw)) (hw : encodeWord i = some w)
    (h : iw.opcode = none) (hs : iw.sram = none)
    (hf : o = 0xD0 → decodeFence (w.extractLsb' 16 2).toNat iw = i) (hm : o = 0xE0 → decodeMx mx iw = i) :
    decodeWord iw.core iw.slot iw.poison mx w = i := by
  rw [encodeWord, hi, Option.map_some, h, Option.some_inj] at hw
  subst hw
  unfold decodeWord
  rw [Option.getD_none] at *
  rw [word_opcode, wordParts_encode _ _ h hs]
  clear h hs
  cases i <;> first | (cases hi; first | rfl | exact hm rfl | exact hf rfl) | cases hi
end Sys2Proof
end

