-- ==== Sys2Proof/Laws/Tabs.lean ====
section
/-! SUPPORT. Sys2Proof/Laws/Tabs.lean: the laws of sparse tables, of which memory, the registers and every indexed part of the device are
made: a read after a write, and the canonical form that every write keeps. -/

namespace Sys2Proof.Machine

open Sys2Proof

section
variable {α : Type}

@[simp] theorem tabGet_nil (d : Nat → α) (k : Nat) : tabGet d [] k = d k := rfl

theorem tabGet_tabDel_same (d : Nat → α) (t : Tab α) (k : Nat) : tabGet d (tabDel t k) k = d k := by
  induction t with
  | nil => rfl
  | cons e t ih =>
    by_cases h : e.1 = k
    · simpa [tabDel, h] using ih
    · simpa [tabDel, h, tabGet] using ih

theorem tabGet_tabDel_other (d : Nat → α) (t : Tab α) {k j : Nat} (h : j ≠ k) : tabGet d (tabDel t k) j = tabGet d t j := by
  induction t with
  | nil => rfl
  | cons e t ih =>
    by_cases he : e.1 = k
    · have : ¬ e.1 = j := fun hj => h (hj.symm.trans he)
      simpa [tabDel, he, tabGet, this, Ne.symm h] using ih
    · by_cases hj : e.1 = j
      · simp [tabDel, tabGet, hj, h]
      · simpa [tabDel, he, tabGet, hj] using ih

theorem tabGet_tabIns_same (d : Nat → α) (k : Nat) (v : α) (t : Tab α) (h : ∀ e ∈ t, e.1 ≠ k) : tabGet d (tabIns k v t) k = v := by
  induction t with
  | nil => simp [tabIns, tabGet]
  | cons e t ih =>
    have he : e.1 ≠ k := h e (by simp)
    have ht : ∀ x ∈ t, x.1 ≠ k := fun x hx => h x (by simp [hx])
    by_cases hk : k < e.1
    · simp [tabIns, hk, tabGet]
    · simp [tabIns, hk, tabGet, he, ih ht]

theorem tabGet_tabIns_other (d : Nat → α) {k j : Nat} (v : α) (t : Tab α) (h : j ≠ k) : tabGet d (tabIns k v t) j = tabGet d t j := by
  induction t with
  | nil => simp [tabIns, tabGet, Ne.symm h]
  | cons e t ih =>
    by_cases hk : k < e.1
    · simp [tabIns, hk, tabGet, Ne.symm h]
    · simp [tabIns, hk, tabGet, ih]

theorem tabDel_keys (t : Tab α) (k : Nat) : ∀ e ∈ tabDel t k, e.1 ≠ k := by
  intro e he
  simp only [tabDel, List.mem_filter] at he
  simpa using he.2

/-! ## The canonical form -/

theorem tabSorted_cons (e : Nat × α) (t : Tab α) : tabSorted (e :: t) = true ↔ (∀ x ∈ t, e.1 < x.1) ∧ tabSorted t = true := by
  induction t generalizing e with
  | nil => simp [tabSorted]
  | cons f t ih =>
    constructor
    · intro h
      simp only [tabSorted, Bool.and_eq_true, decide_eq_true_eq] at h
      refine ⟨?_, h.2⟩
      intro x hx
      rcases List.mem_cons.mp hx with rfl | hx
      · exact h.1
      · exact Nat.lt_trans h.1 (((ih f).mp h.2).1 x hx)
    · intro h
      simp only [tabSorted, Bool.and_eq_true, decide_eq_true_eq]
      exact ⟨h.1 f (by simp), h.2⟩

theorem tabSorted_filter (p : Nat × α → Bool) (t : Tab α) (h : tabSorted t = true) : tabSorted (t.filter p) = true := by
  induction t with
  | nil => rfl
  | cons e t ih =>
    have ⟨h1, h2⟩ := (tabSorted_cons e t).mp h
    by_cases hp : p e = true
    · rw [List.filter_cons_of_pos hp]
      exact (tabSorted_cons _ _).mpr ⟨fun x hx => h1 x ((List.mem_filter.mp hx).1), ih h2⟩
    · rw [List.filter_cons_of_neg hp]
      exact ih h2

theorem mem_tabIns (k : Nat) (v : α) (t : Tab α) (x : Nat × α) : x ∈ tabIns k v t ↔ x = (k, v) ∨ x ∈ t := by
  induction t with
  | nil => simp [tabIns]
  | cons e t ih =>
    by_cases hk : k < e.1
    · simp [tabIns, hk]
    · simp only [tabIns, hk, if_false, List.mem_cons, ih]
      constructor
      · rintro (h | h | h) <;> simp [h]
      · rintro (h | h | h) <;> simp [h]

theorem tabSorted_tabIns (k : Nat) (v : α) (t : Tab α) (hk : ∀ e ∈ t, e.1 ≠ k) (h : tabSorted t = true) : tabSorted (tabIns k v t) = true := by
  induction t with
  | nil => rfl
  | cons e t ih =>
    have ⟨h1, h2⟩ := (tabSorted_cons e t).mp h
    by_cases hl : k < e.1
    · rw [tabIns, if_pos hl]
      refine (tabSorted_cons _ _).mpr ⟨?_, h⟩
      intro x hx
      rcases List.mem_cons.mp hx with rfl | hx
      · exact hl
      · exact Nat.lt_trans hl (h1 x hx)
    · rw [tabIns, if_neg hl]
      refine (tabSorted_cons _ _).mpr ⟨?_, ih (fun x hx => hk x (by simp [hx])) h2⟩
      intro x hx
      rcases (mem_tabIns k v t x).mp hx with rfl | hx
      · have := hk e (by simp)
        show e.1 < k
        omega
      · exact h1 x hx

variable [DecidableEq α]

/-- A read after a write of the same key gives the value written. -/
@[simp] theorem tabGet_tabSet_same (d : Nat → α) (t : Tab α) (k : Nat) (v : α) : tabGet d (tabSet d t k v) k = v := by
  unfold tabSet
  split
  · next h => rw [tabGet_tabDel_same, h]
  · exact tabGet_tabIns_same d k v _ (tabDel_keys t k)

/-- A write leaves every other key alone. -/
theorem tabGet_tabSet_other (d : Nat → α) (t : Tab α) {k j : Nat} (v : α) (h : j ≠ k) : tabGet d (tabSet d t k v) j = tabGet d t j := by
  unfold tabSet
  split
  · exact tabGet_tabDel_other d t h
  · rw [tabGet_tabIns_other d v _ h, tabGet_tabDel_other d t h]

/-- A read after a write. -/
theorem tabGet_tabSet (d : Nat → α) (t : Tab α) (k j : Nat) (v : α) : tabGet d (tabSet d t k v) j = if j = k then v else tabGet d t j := by
  split
  · next h => subst h; simp
  · next h => exact tabGet_tabSet_other d t v h

/-- Every write of a table keeps its canonical form. -/
theorem tabSet_wf (d : Nat → α) (t : Tab α) (k : Nat) (v : α) (h : tabWf d t = true) : tabWf d (tabSet d t k v) = true := by
  simp only [tabWf, Bool.and_eq_true, List.all_eq_true] at h ⊢
  unfold tabSet
  split
  · exact ⟨tabSorted_filter _ t h.1, fun e he => h.2 e ((List.mem_filter.mp he).1)⟩
  · next hv =>
    refine ⟨tabSorted_tabIns k v _ (tabDel_keys t k) (tabSorted_filter _ t h.1), ?_⟩
    intro e he
    rcases (mem_tabIns k v _ e).mp he with rfl | he
    · simpa using hv
    · exact h.2 e ((List.mem_filter.mp he).1)

/-- Leaving entries out keeps the canonical form. -/
theorem tabFilter_wf (d : Nat → α) (p : Nat × α → Bool) (t : Tab α) (h : tabWf d t = true) : tabWf d (t.filter p) = true := by
  simp only [tabWf, Bool.and_eq_true, List.all_eq_true] at h ⊢
  exact ⟨tabSorted_filter p t h.1, fun e he => h.2 e ((List.mem_filter.mp he).1)⟩

theorem tabMod_wf (d : Nat → α) (t : Tab α) (k : Nat) (f : α → α) (h : tabWf d t = true) : tabWf d (tabMod d t k f) = true :=
  tabSet_wf d t k _ h

end

end Sys2Proof.Machine
end

