-- ==== Sys2Proof/Laws/State.lean ====
section
/-! SUPPORT. Sys2Proof/Laws/State.lean: one lemma per field of the device per update, so that no proof unfolds a record update; and what a
read of the updated part gives. -/

namespace Sys2Proof.Machine

open Sys2Proof

section
variable (s : Dev)

/-! `setReg` changes `regs` alone. -/

@[simp] theorem setReg_now (off : Nat) (w : Word) : (setReg s off w).now = s.now := by rfl
@[simp] theorem setReg_tOff (off : Nat) (w : Word) : (setReg s off w).tOff = s.tOff := by rfl
@[simp] theorem setReg_free (off : Nat) (w : Word) : (setReg s off w).free = s.free := by rfl
@[simp] theorem setReg_ms (off : Nat) (w : Word) : (setReg s off w).ms = s.ms := by rfl
@[simp] theorem setReg_cores (off : Nat) (w : Word) : (setReg s off w).cores = s.cores := by rfl
@[simp] theorem setReg_clusters (off : Nat) (w : Word) : (setReg s off w).clusters = s.clusters := by rfl
@[simp] theorem setReg_saved (off : Nat) (w : Word) : (setReg s off w).saved = s.saved := by rfl
@[simp] theorem setReg_rgn (off : Nat) (w : Word) : (setReg s off w).rgn = s.rgn := by rfl
@[simp] theorem setReg_todo (off : Nat) (w : Word) : (setReg s off w).todo = s.todo := by rfl
@[simp] theorem setReg_pgq (off : Nat) (w : Word) : (setReg s off w).pgq = s.pgq := by rfl
@[simp] theorem setReg_chans (off : Nat) (w : Word) : (setReg s off w).chans = s.chans := by rfl
@[simp] theorem setReg_cmds (off : Nat) (w : Word) : (setReg s off w).cmds = s.cmds := by rfl
@[simp] theorem setReg_nextKey (off : Nat) (w : Word) : (setReg s off w).nextKey = s.nextKey := by rfl
@[simp] theorem setReg_lastPlaced (off : Nat) (w : Word) : (setReg s off w).lastPlaced = s.lastPlaced := by rfl
@[simp] theorem setReg_ports (off : Nat) (w : Word) : (setReg s off w).ports = s.ports := by rfl
@[simp] theorem setReg_leaseEnd (off : Nat) (w : Word) : (setReg s off w).leaseEnd = s.leaseEnd := by rfl
@[simp] theorem setReg_leaseFresh (off : Nat) (w : Word) : (setReg s off w).leaseFresh = s.leaseFresh := by rfl
@[simp] theorem setReg_flt (off : Nat) (w : Word) : (setReg s off w).flt = s.flt := by rfl
@[simp] theorem setReg_bridle (off : Nat) (w : Word) : (setReg s off w).bridle = s.bridle := by rfl
@[simp] theorem setReg_selfTest (off : Nat) (w : Word) : (setReg s off w).selfTest = s.selfTest := by rfl
@[simp] theorem setReg_dlog (off : Nat) (w : Word) : (setReg s off w).dlog = s.dlog := by rfl
@[simp] theorem setReg_peerOut (off : Nat) (w : Word) : (setReg s off w).peerOut = s.peerOut := by rfl
@[simp] theorem setReg_obs (off : Nat) (w : Word) : (setReg s off w).obs = s.obs := by rfl
@[simp] theorem setReg_pins (off : Nat) (w : Word) : (setReg s off w).pins = s.pins := by rfl
@[simp] theorem setReg_tandem (off : Nat) (w : Word) : (setReg s off w).tandem = s.tandem := by rfl
@[simp] theorem setReg_bays (off : Nat) (w : Word) : (setReg s off w).bays = s.bays := by rfl
@[simp] theorem setReg_pw (off : Nat) (w : Word) : (setReg s off w).pw = s.pw := by rfl
@[simp] theorem setReg_su (off : Nat) (w : Word) : (setReg s off w).su = s.su := by rfl
@[simp] theorem setReg_mg (off : Nat) (w : Word) : (setReg s off w).mg = s.mg := by rfl
@[simp] theorem setReg_out (off : Nat) (w : Word) : (setReg s off w).out = s.out := by rfl

/-! `setF` changes `regs` alone. -/

@[simp] theorem setF_now (f : Fld) (v : Nat) : (setF s f v).now = s.now := by rfl
@[simp] theorem setF_tOff (f : Fld) (v : Nat) : (setF s f v).tOff = s.tOff := by rfl
@[simp] theorem setF_free (f : Fld) (v : Nat) : (setF s f v).free = s.free := by rfl
@[simp] theorem setF_ms (f : Fld) (v : Nat) : (setF s f v).ms = s.ms := by rfl
@[simp] theorem setF_cores (f : Fld) (v : Nat) : (setF s f v).cores = s.cores := by rfl
@[simp] theorem setF_clusters (f : Fld) (v : Nat) : (setF s f v).clusters = s.clusters := by rfl
@[simp] theorem setF_saved (f : Fld) (v : Nat) : (setF s f v).saved = s.saved := by rfl
@[simp] theorem setF_rgn (f : Fld) (v : Nat) : (setF s f v).rgn = s.rgn := by rfl
@[simp] theorem setF_todo (f : Fld) (v : Nat) : (setF s f v).todo = s.todo := by rfl
@[simp] theorem setF_pgq (f : Fld) (v : Nat) : (setF s f v).pgq = s.pgq := by rfl
@[simp] theorem setF_chans (f : Fld) (v : Nat) : (setF s f v).chans = s.chans := by rfl
@[simp] theorem setF_cmds (f : Fld) (v : Nat) : (setF s f v).cmds = s.cmds := by rfl
@[simp] theorem setF_nextKey (f : Fld) (v : Nat) : (setF s f v).nextKey = s.nextKey := by rfl
@[simp] theorem setF_lastPlaced (f : Fld) (v : Nat) : (setF s f v).lastPlaced = s.lastPlaced := by rfl
@[simp] theorem setF_ports (f : Fld) (v : Nat) : (setF s f v).ports = s.ports := by rfl
@[simp] theorem setF_leaseEnd (f : Fld) (v : Nat) : (setF s f v).leaseEnd = s.leaseEnd := by rfl
@[simp] theorem setF_leaseFresh (f : Fld) (v : Nat) : (setF s f v).leaseFresh = s.leaseFresh := by rfl
@[simp] theorem setF_flt (f : Fld) (v : Nat) : (setF s f v).flt = s.flt := by rfl
@[simp] theorem setF_bridle (f : Fld) (v : Nat) : (setF s f v).bridle = s.bridle := by rfl
@[simp] theorem setF_selfTest (f : Fld) (v : Nat) : (setF s f v).selfTest = s.selfTest := by rfl
@[simp] theorem setF_dlog (f : Fld) (v : Nat) : (setF s f v).dlog = s.dlog := by rfl
@[simp] theorem setF_peerOut (f : Fld) (v : Nat) : (setF s f v).peerOut = s.peerOut := by rfl
@[simp] theorem setF_obs (f : Fld) (v : Nat) : (setF s f v).obs = s.obs := by rfl
@[simp] theorem setF_pins (f : Fld) (v : Nat) : (setF s f v).pins = s.pins := by rfl
@[simp] theorem setF_tandem (f : Fld) (v : Nat) : (setF s f v).tandem = s.tandem := by rfl
@[simp] theorem setF_bays (f : Fld) (v : Nat) : (setF s f v).bays = s.bays := by rfl
@[simp] theorem setF_pw (f : Fld) (v : Nat) : (setF s f v).pw = s.pw := by rfl
@[simp] theorem setF_su (f : Fld) (v : Nat) : (setF s f v).su = s.su := by rfl
@[simp] theorem setF_mg (f : Fld) (v : Nat) : (setF s f v).mg = s.mg := by rfl
@[simp] theorem setF_out (f : Fld) (v : Nat) : (setF s f v).out = s.out := by rfl

/-! `satF` changes `regs` alone. -/

@[simp] theorem satF_now (f : Fld) (n : Nat) : (satF s f n).now = s.now := by rfl
@[simp] theorem satF_tOff (f : Fld) (n : Nat) : (satF s f n).tOff = s.tOff := by rfl
@[simp] theorem satF_free (f : Fld) (n : Nat) : (satF s f n).free = s.free := by rfl
@[simp] theorem satF_ms (f : Fld) (n : Nat) : (satF s f n).ms = s.ms := by rfl
@[simp] theorem satF_cores (f : Fld) (n : Nat) : (satF s f n).cores = s.cores := by rfl
@[simp] theorem satF_clusters (f : Fld) (n : Nat) : (satF s f n).clusters = s.clusters := by rfl
@[simp] theorem satF_saved (f : Fld) (n : Nat) : (satF s f n).saved = s.saved := by rfl
@[simp] theorem satF_rgn (f : Fld) (n : Nat) : (satF s f n).rgn = s.rgn := by rfl
@[simp] theorem satF_todo (f : Fld) (n : Nat) : (satF s f n).todo = s.todo := by rfl
@[simp] theorem satF_pgq (f : Fld) (n : Nat) : (satF s f n).pgq = s.pgq := by rfl
@[simp] theorem satF_chans (f : Fld) (n : Nat) : (satF s f n).chans = s.chans := by rfl
@[simp] theorem satF_cmds (f : Fld) (n : Nat) : (satF s f n).cmds = s.cmds := by rfl
@[simp] theorem satF_nextKey (f : Fld) (n : Nat) : (satF s f n).nextKey = s.nextKey := by rfl
@[simp] theorem satF_lastPlaced (f : Fld) (n : Nat) : (satF s f n).lastPlaced = s.lastPlaced := by rfl
@[simp] theorem satF_ports (f : Fld) (n : Nat) : (satF s f n).ports = s.ports := by rfl
@[simp] theorem satF_leaseEnd (f : Fld) (n : Nat) : (satF s f n).leaseEnd = s.leaseEnd := by rfl
@[simp] theorem satF_leaseFresh (f : Fld) (n : Nat) : (satF s f n).leaseFresh = s.leaseFresh := by rfl
@[simp] theorem satF_flt (f : Fld) (n : Nat) : (satF s f n).flt = s.flt := by rfl
@[simp] theorem satF_bridle (f : Fld) (n : Nat) : (satF s f n).bridle = s.bridle := by rfl
@[simp] theorem satF_selfTest (f : Fld) (n : Nat) : (satF s f n).selfTest = s.selfTest := by rfl
@[simp] theorem satF_dlog (f : Fld) (n : Nat) : (satF s f n).dlog = s.dlog := by rfl
@[simp] theorem satF_peerOut (f : Fld) (n : Nat) : (satF s f n).peerOut = s.peerOut := by rfl
@[simp] theorem satF_obs (f : Fld) (n : Nat) : (satF s f n).obs = s.obs := by rfl
@[simp] theorem satF_pins (f : Fld) (n : Nat) : (satF s f n).pins = s.pins := by rfl
@[simp] theorem satF_tandem (f : Fld) (n : Nat) : (satF s f n).tandem = s.tandem := by rfl
@[simp] theorem satF_bays (f : Fld) (n : Nat) : (satF s f n).bays = s.bays := by rfl
@[simp] theorem satF_pw (f : Fld) (n : Nat) : (satF s f n).pw = s.pw := by rfl
@[simp] theorem satF_su (f : Fld) (n : Nat) : (satF s f n).su = s.su := by rfl
@[simp] theorem satF_mg (f : Fld) (n : Nat) : (satF s f n).mg = s.mg := by rfl
@[simp] theorem satF_out (f : Fld) (n : Nat) : (satF s f n).out = s.out := by rfl

/-! `setCore` changes `cores` alone. -/

@[simp] theorem setCore_now (c : Nat) (x : Core) : (setCore s c x).now = s.now := by rfl
@[simp] theorem setCore_tOff (c : Nat) (x : Core) : (setCore s c x).tOff = s.tOff := by rfl
@[simp] theorem setCore_free (c : Nat) (x : Core) : (setCore s c x).free = s.free := by rfl
@[simp] theorem setCore_regs (c : Nat) (x : Core) : (setCore s c x).regs = s.regs := by rfl
@[simp] theorem setCore_ms (c : Nat) (x : Core) : (setCore s c x).ms = s.ms := by rfl
@[simp] theorem setCore_clusters (c : Nat) (x : Core) : (setCore s c x).clusters = s.clusters := by rfl
@[simp] theorem setCore_saved (c : Nat) (x : Core) : (setCore s c x).saved = s.saved := by rfl
@[simp] theorem setCore_rgn (c : Nat) (x : Core) : (setCore s c x).rgn = s.rgn := by rfl
@[simp] theorem setCore_todo (c : Nat) (x : Core) : (setCore s c x).todo = s.todo := by rfl
@[simp] theorem setCore_pgq (c : Nat) (x : Core) : (setCore s c x).pgq = s.pgq := by rfl
@[simp] theorem setCore_chans (c : Nat) (x : Core) : (setCore s c x).chans = s.chans := by rfl
@[simp] theorem setCore_cmds (c : Nat) (x : Core) : (setCore s c x).cmds = s.cmds := by rfl
@[simp] theorem setCore_nextKey (c : Nat) (x : Core) : (setCore s c x).nextKey = s.nextKey := by rfl
@[simp] theorem setCore_lastPlaced (c : Nat) (x : Core) : (setCore s c x).lastPlaced = s.lastPlaced := by rfl
@[simp] theorem setCore_ports (c : Nat) (x : Core) : (setCore s c x).ports = s.ports := by rfl
@[simp] theorem setCore_leaseEnd (c : Nat) (x : Core) : (setCore s c x).leaseEnd = s.leaseEnd := by rfl
@[simp] theorem setCore_leaseFresh (c : Nat) (x : Core) : (setCore s c x).leaseFresh = s.leaseFresh := by rfl
@[simp] theorem setCore_flt (c : Nat) (x : Core) : (setCore s c x).flt = s.flt := by rfl
@[simp] theorem setCore_bridle (c : Nat) (x : Core) : (setCore s c x).bridle = s.bridle := by rfl
@[simp] theorem setCore_selfTest (c : Nat) (x : Core) : (setCore s c x).selfTest = s.selfTest := by rfl
@[simp] theorem setCore_dlog (c : Nat) (x : Core) : (setCore s c x).dlog = s.dlog := by rfl
@[simp] theorem setCore_peerOut (c : Nat) (x : Core) : (setCore s c x).peerOut = s.peerOut := by rfl
@[simp] theorem setCore_obs (c : Nat) (x : Core) : (setCore s c x).obs = s.obs := by rfl
@[simp] theorem setCore_pins (c : Nat) (x : Core) : (setCore s c x).pins = s.pins := by rfl
@[simp] theorem setCore_tandem (c : Nat) (x : Core) : (setCore s c x).tandem = s.tandem := by rfl
@[simp] theorem setCore_bays (c : Nat) (x : Core) : (setCore s c x).bays = s.bays := by rfl
@[simp] theorem setCore_pw (c : Nat) (x : Core) : (setCore s c x).pw = s.pw := by rfl
@[simp] theorem setCore_su (c : Nat) (x : Core) : (setCore s c x).su = s.su := by rfl
@[simp] theorem setCore_mg (c : Nat) (x : Core) : (setCore s c x).mg = s.mg := by rfl
@[simp] theorem setCore_out (c : Nat) (x : Core) : (setCore s c x).out = s.out := by rfl

/-! `modCore` changes `cores` alone. -/

@[simp] theorem modCore_now (c : Nat) (f : Core → Core) : (modCore s c f).now = s.now := by rfl
@[simp] theorem modCore_tOff (c : Nat) (f : Core → Core) : (modCore s c f).tOff = s.tOff := by rfl
@[simp] theorem modCore_free (c : Nat) (f : Core → Core) : (modCore s c f).free = s.free := by rfl
@[simp] theorem modCore_regs (c : Nat) (f : Core → Core) : (modCore s c f).regs = s.regs := by rfl
@[simp] theorem modCore_ms (c : Nat) (f : Core → Core) : (modCore s c f).ms = s.ms := by rfl
@[simp] theorem modCore_clusters (c : Nat) (f : Core → Core) : (modCore s c f).clusters = s.clusters := by rfl
@[simp] theorem modCore_saved (c : Nat) (f : Core → Core) : (modCore s c f).saved = s.saved := by rfl
@[simp] theorem modCore_rgn (c : Nat) (f : Core → Core) : (modCore s c f).rgn = s.rgn := by rfl
@[simp] theorem modCore_todo (c : Nat) (f : Core → Core) : (modCore s c f).todo = s.todo := by rfl
@[simp] theorem modCore_pgq (c : Nat) (f : Core → Core) : (modCore s c f).pgq = s.pgq := by rfl
@[simp] theorem modCore_chans (c : Nat) (f : Core → Core) : (modCore s c f).chans = s.chans := by rfl
@[simp] theorem modCore_cmds (c : Nat) (f : Core → Core) : (modCore s c f).cmds = s.cmds := by rfl
@[simp] theorem modCore_nextKey (c : Nat) (f : Core → Core) : (modCore s c f).nextKey = s.nextKey := by rfl
@[simp] theorem modCore_lastPlaced (c : Nat) (f : Core → Core) : (modCore s c f).lastPlaced = s.lastPlaced := by rfl
@[simp] theorem modCore_ports (c : Nat) (f : Core → Core) : (modCore s c f).ports = s.ports := by rfl
@[simp] theorem modCore_leaseEnd (c : Nat) (f : Core → Core) : (modCore s c f).leaseEnd = s.leaseEnd := by rfl
@[simp] theorem modCore_leaseFresh (c : Nat) (f : Core → Core) : (modCore s c f).leaseFresh = s.leaseFresh := by rfl
@[simp] theorem modCore_flt (c : Nat) (f : Core → Core) : (modCore s c f).flt = s.flt := by rfl
@[simp] theorem modCore_bridle (c : Nat) (f : Core → Core) : (modCore s c f).bridle = s.bridle := by rfl
@[simp] theorem modCore_selfTest (c : Nat) (f : Core → Core) : (modCore s c f).selfTest = s.selfTest := by rfl
@[simp] theorem modCore_dlog (c : Nat) (f : Core → Core) : (modCore s c f).dlog = s.dlog := by rfl
@[simp] theorem modCore_peerOut (c : Nat) (f : Core → Core) : (modCore s c f).peerOut = s.peerOut := by rfl
@[simp] theorem modCore_obs (c : Nat) (f : Core → Core) : (modCore s c f).obs = s.obs := by rfl
@[simp] theorem modCore_pins (c : Nat) (f : Core → Core) : (modCore s c f).pins = s.pins := by rfl
@[simp] theorem modCore_tandem (c : Nat) (f : Core → Core) : (modCore s c f).tandem = s.tandem := by rfl
@[simp] theorem modCore_bays (c : Nat) (f : Core → Core) : (modCore s c f).bays = s.bays := by rfl
@[simp] theorem modCore_pw (c : Nat) (f : Core → Core) : (modCore s c f).pw = s.pw := by rfl
@[simp] theorem modCore_su (c : Nat) (f : Core → Core) : (modCore s c f).su = s.su := by rfl
@[simp] theorem modCore_mg (c : Nat) (f : Core → Core) : (modCore s c f).mg = s.mg := by rfl
@[simp] theorem modCore_out (c : Nat) (f : Core → Core) : (modCore s c f).out = s.out := by rfl

/-! `setCl` changes `clusters` alone. -/

@[simp] theorem setCl_now (c : Nat) (x : Cluster) : (setCl s c x).now = s.now := by rfl
@[simp] theorem setCl_tOff (c : Nat) (x : Cluster) : (setCl s c x).tOff = s.tOff := by rfl
@[simp] theorem setCl_free (c : Nat) (x : Cluster) : (setCl s c x).free = s.free := by rfl
@[simp] theorem setCl_regs (c : Nat) (x : Cluster) : (setCl s c x).regs = s.regs := by rfl
@[simp] theorem setCl_ms (c : Nat) (x : Cluster) : (setCl s c x).ms = s.ms := by rfl
@[simp] theorem setCl_cores (c : Nat) (x : Cluster) : (setCl s c x).cores = s.cores := by rfl
@[simp] theorem setCl_saved (c : Nat) (x : Cluster) : (setCl s c x).saved = s.saved := by rfl
@[simp] theorem setCl_rgn (c : Nat) (x : Cluster) : (setCl s c x).rgn = s.rgn := by rfl
@[simp] theorem setCl_todo (c : Nat) (x : Cluster) : (setCl s c x).todo = s.todo := by rfl
@[simp] theorem setCl_pgq (c : Nat) (x : Cluster) : (setCl s c x).pgq = s.pgq := by rfl
@[simp] theorem setCl_chans (c : Nat) (x : Cluster) : (setCl s c x).chans = s.chans := by rfl
@[simp] theorem setCl_cmds (c : Nat) (x : Cluster) : (setCl s c x).cmds = s.cmds := by rfl
@[simp] theorem setCl_nextKey (c : Nat) (x : Cluster) : (setCl s c x).nextKey = s.nextKey := by rfl
@[simp] theorem setCl_lastPlaced (c : Nat) (x : Cluster) : (setCl s c x).lastPlaced = s.lastPlaced := by rfl
@[simp] theorem setCl_ports (c : Nat) (x : Cluster) : (setCl s c x).ports = s.ports := by rfl
@[simp] theorem setCl_leaseEnd (c : Nat) (x : Cluster) : (setCl s c x).leaseEnd = s.leaseEnd := by rfl
@[simp] theorem setCl_leaseFresh (c : Nat) (x : Cluster) : (setCl s c x).leaseFresh = s.leaseFresh := by rfl
@[simp] theorem setCl_flt (c : Nat) (x : Cluster) : (setCl s c x).flt = s.flt := by rfl
@[simp] theorem setCl_bridle (c : Nat) (x : Cluster) : (setCl s c x).bridle = s.bridle := by rfl
@[simp] theorem setCl_selfTest (c : Nat) (x : Cluster) : (setCl s c x).selfTest = s.selfTest := by rfl
@[simp] theorem setCl_dlog (c : Nat) (x : Cluster) : (setCl s c x).dlog = s.dlog := by rfl
@[simp] theorem setCl_peerOut (c : Nat) (x : Cluster) : (setCl s c x).peerOut = s.peerOut := by rfl
@[simp] theorem setCl_obs (c : Nat) (x : Cluster) : (setCl s c x).obs = s.obs := by rfl
@[simp] theorem setCl_pins (c : Nat) (x : Cluster) : (setCl s c x).pins = s.pins := by rfl
@[simp] theorem setCl_tandem (c : Nat) (x : Cluster) : (setCl s c x).tandem = s.tandem := by rfl
@[simp] theorem setCl_bays (c : Nat) (x : Cluster) : (setCl s c x).bays = s.bays := by rfl
@[simp] theorem setCl_pw (c : Nat) (x : Cluster) : (setCl s c x).pw = s.pw := by rfl
@[simp] theorem setCl_su (c : Nat) (x : Cluster) : (setCl s c x).su = s.su := by rfl
@[simp] theorem setCl_mg (c : Nat) (x : Cluster) : (setCl s c x).mg = s.mg := by rfl
@[simp] theorem setCl_out (c : Nat) (x : Cluster) : (setCl s c x).out = s.out := by rfl

/-! `modCl` changes `clusters` alone. -/

@[simp] theorem modCl_now (c : Nat) (f : Cluster → Cluster) : (modCl s c f).now = s.now := by rfl
@[simp] theorem modCl_tOff (c : Nat) (f : Cluster → Cluster) : (modCl s c f).tOff = s.tOff := by rfl
@[simp] theorem modCl_free (c : Nat) (f : Cluster → Cluster) : (modCl s c f).free = s.free := by rfl
@[simp] theorem modCl_regs (c : Nat) (f : Cluster → Cluster) : (modCl s c f).regs = s.regs := by rfl
@[simp] theorem modCl_ms (c : Nat) (f : Cluster → Cluster) : (modCl s c f).ms = s.ms := by rfl
@[simp] theorem modCl_cores (c : Nat) (f : Cluster → Cluster) : (modCl s c f).cores = s.cores := by rfl
@[simp] theorem modCl_saved (c : Nat) (f : Cluster → Cluster) : (modCl s c f).saved = s.saved := by rfl
@[simp] theorem modCl_rgn (c : Nat) (f : Cluster → Cluster) : (modCl s c f).rgn = s.rgn := by rfl
@[simp] theorem modCl_todo (c : Nat) (f : Cluster → Cluster) : (modCl s c f).todo = s.todo := by rfl
@[simp] theorem modCl_pgq (c : Nat) (f : Cluster → Cluster) : (modCl s c f).pgq = s.pgq := by rfl
@[simp] theorem modCl_chans (c : Nat) (f : Cluster → Cluster) : (modCl s c f).chans = s.chans := by rfl
@[simp] theorem modCl_cmds (c : Nat) (f : Cluster → Cluster) : (modCl s c f).cmds = s.cmds := by rfl
@[simp] theorem modCl_nextKey (c : Nat) (f : Cluster → Cluster) : (modCl s c f).nextKey = s.nextKey := by rfl
@[simp] theorem modCl_lastPlaced (c : Nat) (f : Cluster → Cluster) : (modCl s c f).lastPlaced = s.lastPlaced := by rfl
@[simp] theorem modCl_ports (c : Nat) (f : Cluster → Cluster) : (modCl s c f).ports = s.ports := by rfl
@[simp] theorem modCl_leaseEnd (c : Nat) (f : Cluster → Cluster) : (modCl s c f).leaseEnd = s.leaseEnd := by rfl
@[simp] theorem modCl_leaseFresh (c : Nat) (f : Cluster → Cluster) : (modCl s c f).leaseFresh = s.leaseFresh := by rfl
@[simp] theorem modCl_flt (c : Nat) (f : Cluster → Cluster) : (modCl s c f).flt = s.flt := by rfl
@[simp] theorem modCl_bridle (c : Nat) (f : Cluster → Cluster) : (modCl s c f).bridle = s.bridle := by rfl
@[simp] theorem modCl_selfTest (c : Nat) (f : Cluster → Cluster) : (modCl s c f).selfTest = s.selfTest := by rfl
@[simp] theorem modCl_dlog (c : Nat) (f : Cluster → Cluster) : (modCl s c f).dlog = s.dlog := by rfl
@[simp] theorem modCl_peerOut (c : Nat) (f : Cluster → Cluster) : (modCl s c f).peerOut = s.peerOut := by rfl
@[simp] theorem modCl_obs (c : Nat) (f : Cluster → Cluster) : (modCl s c f).obs = s.obs := by rfl
@[simp] theorem modCl_pins (c : Nat) (f : Cluster → Cluster) : (modCl s c f).pins = s.pins := by rfl
@[simp] theorem modCl_tandem (c : Nat) (f : Cluster → Cluster) : (modCl s c f).tandem = s.tandem := by rfl
@[simp] theorem modCl_bays (c : Nat) (f : Cluster → Cluster) : (modCl s c f).bays = s.bays := by rfl
@[simp] theorem modCl_pw (c : Nat) (f : Cluster → Cluster) : (modCl s c f).pw = s.pw := by rfl
@[simp] theorem modCl_su (c : Nat) (f : Cluster → Cluster) : (modCl s c f).su = s.su := by rfl
@[simp] theorem modCl_mg (c : Nat) (f : Cluster → Cluster) : (modCl s c f).mg = s.mg := by rfl
@[simp] theorem modCl_out (c : Nat) (f : Cluster → Cluster) : (modCl s c f).out = s.out := by rfl

/-! `modCh` changes `chans` alone. -/

@[simp] theorem modCh_now (c : Nat) (f : Channel → Channel) : (modCh s c f).now = s.now := by rfl
@[simp] theorem modCh_tOff (c : Nat) (f : Channel → Channel) : (modCh s c f).tOff = s.tOff := by rfl
@[simp] theorem modCh_free (c : Nat) (f : Channel → Channel) : (modCh s c f).free = s.free := by rfl
@[simp] theorem modCh_regs (c : Nat) (f : Channel → Channel) : (modCh s c f).regs = s.regs := by rfl
@[simp] theorem modCh_ms (c : Nat) (f : Channel → Channel) : (modCh s c f).ms = s.ms := by rfl
@[simp] theorem modCh_cores (c : Nat) (f : Channel → Channel) : (modCh s c f).cores = s.cores := by rfl
@[simp] theorem modCh_clusters (c : Nat) (f : Channel → Channel) : (modCh s c f).clusters = s.clusters := by rfl
@[simp] theorem modCh_saved (c : Nat) (f : Channel → Channel) : (modCh s c f).saved = s.saved := by rfl
@[simp] theorem modCh_rgn (c : Nat) (f : Channel → Channel) : (modCh s c f).rgn = s.rgn := by rfl
@[simp] theorem modCh_todo (c : Nat) (f : Channel → Channel) : (modCh s c f).todo = s.todo := by rfl
@[simp] theorem modCh_pgq (c : Nat) (f : Channel → Channel) : (modCh s c f).pgq = s.pgq := by rfl
@[simp] theorem modCh_cmds (c : Nat) (f : Channel → Channel) : (modCh s c f).cmds = s.cmds := by rfl
@[simp] theorem modCh_nextKey (c : Nat) (f : Channel → Channel) : (modCh s c f).nextKey = s.nextKey := by rfl
@[simp] theorem modCh_lastPlaced (c : Nat) (f : Channel → Channel) : (modCh s c f).lastPlaced = s.lastPlaced := by rfl
@[simp] theorem modCh_ports (c : Nat) (f : Channel → Channel) : (modCh s c f).ports = s.ports := by rfl
@[simp] theorem modCh_leaseEnd (c : Nat) (f : Channel → Channel) : (modCh s c f).leaseEnd = s.leaseEnd := by rfl
@[simp] theorem modCh_leaseFresh (c : Nat) (f : Channel → Channel) : (modCh s c f).leaseFresh = s.leaseFresh := by rfl
@[simp] theorem modCh_flt (c : Nat) (f : Channel → Channel) : (modCh s c f).flt = s.flt := by rfl
@[simp] theorem modCh_bridle (c : Nat) (f : Channel → Channel) : (modCh s c f).bridle = s.bridle := by rfl
@[simp] theorem modCh_selfTest (c : Nat) (f : Channel → Channel) : (modCh s c f).selfTest = s.selfTest := by rfl
@[simp] theorem modCh_dlog (c : Nat) (f : Channel → Channel) : (modCh s c f).dlog = s.dlog := by rfl
@[simp] theorem modCh_peerOut (c : Nat) (f : Channel → Channel) : (modCh s c f).peerOut = s.peerOut := by rfl
@[simp] theorem modCh_obs (c : Nat) (f : Channel → Channel) : (modCh s c f).obs = s.obs := by rfl
@[simp] theorem modCh_pins (c : Nat) (f : Channel → Channel) : (modCh s c f).pins = s.pins := by rfl
@[simp] theorem modCh_tandem (c : Nat) (f : Channel → Channel) : (modCh s c f).tandem = s.tandem := by rfl
@[simp] theorem modCh_bays (c : Nat) (f : Channel → Channel) : (modCh s c f).bays = s.bays := by rfl
@[simp] theorem modCh_pw (c : Nat) (f : Channel → Channel) : (modCh s c f).pw = s.pw := by rfl
@[simp] theorem modCh_su (c : Nat) (f : Channel → Channel) : (modCh s c f).su = s.su := by rfl
@[simp] theorem modCh_mg (c : Nat) (f : Channel → Channel) : (modCh s c f).mg = s.mg := by rfl
@[simp] theorem modCh_out (c : Nat) (f : Channel → Channel) : (modCh s c f).out = s.out := by rfl

/-! `modPort` changes `ports` alone. -/

@[simp] theorem modPort_now (p : Nat) (f : HostPort → HostPort) : (modPort s p f).now = s.now := by rfl
@[simp] theorem modPort_tOff (p : Nat) (f : HostPort → HostPort) : (modPort s p f).tOff = s.tOff := by rfl
@[simp] theorem modPort_free (p : Nat) (f : HostPort → HostPort) : (modPort s p f).free = s.free := by rfl
@[simp] theorem modPort_regs (p : Nat) (f : HostPort → HostPort) : (modPort s p f).regs = s.regs := by rfl
@[simp] theorem modPort_ms (p : Nat) (f : HostPort → HostPort) : (modPort s p f).ms = s.ms := by rfl
@[simp] theorem modPort_cores (p : Nat) (f : HostPort → HostPort) : (modPort s p f).cores = s.cores := by rfl
@[simp] theorem modPort_clusters (p : Nat) (f : HostPort → HostPort) : (modPort s p f).clusters = s.clusters := by rfl
@[simp] theorem modPort_saved (p : Nat) (f : HostPort → HostPort) : (modPort s p f).saved = s.saved := by rfl
@[simp] theorem modPort_rgn (p : Nat) (f : HostPort → HostPort) : (modPort s p f).rgn = s.rgn := by rfl
@[simp] theorem modPort_todo (p : Nat) (f : HostPort → HostPort) : (modPort s p f).todo = s.todo := by rfl
@[simp] theorem modPort_pgq (p : Nat) (f : HostPort → HostPort) : (modPort s p f).pgq = s.pgq := by rfl
@[simp] theorem modPort_chans (p : Nat) (f : HostPort → HostPort) : (modPort s p f).chans = s.chans := by rfl
@[simp] theorem modPort_cmds (p : Nat) (f : HostPort → HostPort) : (modPort s p f).cmds = s.cmds := by rfl
@[simp] theorem modPort_nextKey (p : Nat) (f : HostPort → HostPort) : (modPort s p f).nextKey = s.nextKey := by rfl
@[simp] theorem modPort_lastPlaced (p : Nat) (f : HostPort → HostPort) : (modPort s p f).lastPlaced = s.lastPlaced := by rfl
@[simp] theorem modPort_leaseEnd (p : Nat) (f : HostPort → HostPort) : (modPort s p f).leaseEnd = s.leaseEnd := by rfl
@[simp] theorem modPort_leaseFresh (p : Nat) (f : HostPort → HostPort) : (modPort s p f).leaseFresh = s.leaseFresh := by rfl
@[simp] theorem modPort_flt (p : Nat) (f : HostPort → HostPort) : (modPort s p f).flt = s.flt := by rfl
@[simp] theorem modPort_bridle (p : Nat) (f : HostPort → HostPort) : (modPort s p f).bridle = s.bridle := by rfl
@[simp] theorem modPort_selfTest (p : Nat) (f : HostPort → HostPort) : (modPort s p f).selfTest = s.selfTest := by rfl
@[simp] theorem modPort_dlog (p : Nat) (f : HostPort → HostPort) : (modPort s p f).dlog = s.dlog := by rfl
@[simp] theorem modPort_peerOut (p : Nat) (f : HostPort → HostPort) : (modPort s p f).peerOut = s.peerOut := by rfl
@[simp] theorem modPort_obs (p : Nat) (f : HostPort → HostPort) : (modPort s p f).obs = s.obs := by rfl
@[simp] theorem modPort_pins (p : Nat) (f : HostPort → HostPort) : (modPort s p f).pins = s.pins := by rfl
@[simp] theorem modPort_tandem (p : Nat) (f : HostPort → HostPort) : (modPort s p f).tandem = s.tandem := by rfl
@[simp] theorem modPort_bays (p : Nat) (f : HostPort → HostPort) : (modPort s p f).bays = s.bays := by rfl
@[simp] theorem modPort_pw (p : Nat) (f : HostPort → HostPort) : (modPort s p f).pw = s.pw := by rfl
@[simp] theorem modPort_su (p : Nat) (f : HostPort → HostPort) : (modPort s p f).su = s.su := by rfl
@[simp] theorem modPort_mg (p : Nat) (f : HostPort → HostPort) : (modPort s p f).mg = s.mg := by rfl
@[simp] theorem modPort_out (p : Nat) (f : HostPort → HostPort) : (modPort s p f).out = s.out := by rfl

/-! `modCmd` changes `cmds` alone. -/

@[simp] theorem modCmd_now (k : Nat) (f : Cmd → Cmd) : (modCmd s k f).now = s.now := by rfl
@[simp] theorem modCmd_tOff (k : Nat) (f : Cmd → Cmd) : (modCmd s k f).tOff = s.tOff := by rfl
@[simp] theorem modCmd_free (k : Nat) (f : Cmd → Cmd) : (modCmd s k f).free = s.free := by rfl
@[simp] theorem modCmd_regs (k : Nat) (f : Cmd → Cmd) : (modCmd s k f).regs = s.regs := by rfl
@[simp] theorem modCmd_ms (k : Nat) (f : Cmd → Cmd) : (modCmd s k f).ms = s.ms := by rfl
@[simp] theorem modCmd_cores (k : Nat) (f : Cmd → Cmd) : (modCmd s k f).cores = s.cores := by rfl
@[simp] theorem modCmd_clusters (k : Nat) (f : Cmd → Cmd) : (modCmd s k f).clusters = s.clusters := by rfl
@[simp] theorem modCmd_saved (k : Nat) (f : Cmd → Cmd) : (modCmd s k f).saved = s.saved := by rfl
@[simp] theorem modCmd_rgn (k : Nat) (f : Cmd → Cmd) : (modCmd s k f).rgn = s.rgn := by rfl
@[simp] theorem modCmd_todo (k : Nat) (f : Cmd → Cmd) : (modCmd s k f).todo = s.todo := by rfl
@[simp] theorem modCmd_pgq (k : Nat) (f : Cmd → Cmd) : (modCmd s k f).pgq = s.pgq := by rfl
@[simp] theorem modCmd_chans (k : Nat) (f : Cmd → Cmd) : (modCmd s k f).chans = s.chans := by rfl
@[simp] theorem modCmd_nextKey (k : Nat) (f : Cmd → Cmd) : (modCmd s k f).nextKey = s.nextKey := by rfl
@[simp] theorem modCmd_lastPlaced (k : Nat) (f : Cmd → Cmd) : (modCmd s k f).lastPlaced = s.lastPlaced := by rfl
@[simp] theorem modCmd_ports (k : Nat) (f : Cmd → Cmd) : (modCmd s k f).ports = s.ports := by rfl
@[simp] theorem modCmd_leaseEnd (k : Nat) (f : Cmd → Cmd) : (modCmd s k f).leaseEnd = s.leaseEnd := by rfl
@[simp] theorem modCmd_leaseFresh (k : Nat) (f : Cmd → Cmd) : (modCmd s k f).leaseFresh = s.leaseFresh := by rfl
@[simp] theorem modCmd_flt (k : Nat) (f : Cmd → Cmd) : (modCmd s k f).flt = s.flt := by rfl
@[simp] theorem modCmd_bridle (k : Nat) (f : Cmd → Cmd) : (modCmd s k f).bridle = s.bridle := by rfl
@[simp] theorem modCmd_selfTest (k : Nat) (f : Cmd → Cmd) : (modCmd s k f).selfTest = s.selfTest := by rfl
@[simp] theorem modCmd_dlog (k : Nat) (f : Cmd → Cmd) : (modCmd s k f).dlog = s.dlog := by rfl
@[simp] theorem modCmd_peerOut (k : Nat) (f : Cmd → Cmd) : (modCmd s k f).peerOut = s.peerOut := by rfl
@[simp] theorem modCmd_obs (k : Nat) (f : Cmd → Cmd) : (modCmd s k f).obs = s.obs := by rfl
@[simp] theorem modCmd_pins (k : Nat) (f : Cmd → Cmd) : (modCmd s k f).pins = s.pins := by rfl
@[simp] theorem modCmd_tandem (k : Nat) (f : Cmd → Cmd) : (modCmd s k f).tandem = s.tandem := by rfl
@[simp] theorem modCmd_bays (k : Nat) (f : Cmd → Cmd) : (modCmd s k f).bays = s.bays := by rfl
@[simp] theorem modCmd_pw (k : Nat) (f : Cmd → Cmd) : (modCmd s k f).pw = s.pw := by rfl
@[simp] theorem modCmd_su (k : Nat) (f : Cmd → Cmd) : (modCmd s k f).su = s.su := by rfl
@[simp] theorem modCmd_mg (k : Nat) (f : Cmd → Cmd) : (modCmd s k f).mg = s.mg := by rfl
@[simp] theorem modCmd_out (k : Nat) (f : Cmd → Cmd) : (modCmd s k f).out = s.out := by rfl

/-! `modMs` changes `ms` alone. -/

@[simp] theorem modMs_now (f : MemSys → MemSys) : (modMs s f).now = s.now := by rfl
@[simp] theorem modMs_tOff (f : MemSys → MemSys) : (modMs s f).tOff = s.tOff := by rfl
@[simp] theorem modMs_free (f : MemSys → MemSys) : (modMs s f).free = s.free := by rfl
@[simp] theorem modMs_regs (f : MemSys → MemSys) : (modMs s f).regs = s.regs := by rfl
@[simp] theorem modMs_cores (f : MemSys → MemSys) : (modMs s f).cores = s.cores := by rfl
@[simp] theorem modMs_clusters (f : MemSys → MemSys) : (modMs s f).clusters = s.clusters := by rfl
@[simp] theorem modMs_saved (f : MemSys → MemSys) : (modMs s f).saved = s.saved := by rfl
@[simp] theorem modMs_rgn (f : MemSys → MemSys) : (modMs s f).rgn = s.rgn := by rfl
@[simp] theorem modMs_todo (f : MemSys → MemSys) : (modMs s f).todo = s.todo := by rfl
@[simp] theorem modMs_pgq (f : MemSys → MemSys) : (modMs s f).pgq = s.pgq := by rfl
@[simp] theorem modMs_chans (f : MemSys → MemSys) : (modMs s f).chans = s.chans := by rfl
@[simp] theorem modMs_cmds (f : MemSys → MemSys) : (modMs s f).cmds = s.cmds := by rfl
@[simp] theorem modMs_nextKey (f : MemSys → MemSys) : (modMs s f).nextKey = s.nextKey := by rfl
@[simp] theorem modMs_lastPlaced (f : MemSys → MemSys) : (modMs s f).lastPlaced = s.lastPlaced := by rfl
@[simp] theorem modMs_ports (f : MemSys → MemSys) : (modMs s f).ports = s.ports := by rfl
@[simp] theorem modMs_leaseEnd (f : MemSys → MemSys) : (modMs s f).leaseEnd = s.leaseEnd := by rfl
@[simp] theorem modMs_leaseFresh (f : MemSys → MemSys) : (modMs s f).leaseFresh = s.leaseFresh := by rfl
@[simp] theorem modMs_flt (f : MemSys → MemSys) : (modMs s f).flt = s.flt := by rfl
@[simp] theorem modMs_bridle (f : MemSys → MemSys) : (modMs s f).bridle = s.bridle := by rfl
@[simp] theorem modMs_selfTest (f : MemSys → MemSys) : (modMs s f).selfTest = s.selfTest := by rfl
@[simp] theorem modMs_dlog (f : MemSys → MemSys) : (modMs s f).dlog = s.dlog := by rfl
@[simp] theorem modMs_peerOut (f : MemSys → MemSys) : (modMs s f).peerOut = s.peerOut := by rfl
@[simp] theorem modMs_obs (f : MemSys → MemSys) : (modMs s f).obs = s.obs := by rfl
@[simp] theorem modMs_pins (f : MemSys → MemSys) : (modMs s f).pins = s.pins := by rfl
@[simp] theorem modMs_tandem (f : MemSys → MemSys) : (modMs s f).tandem = s.tandem := by rfl
@[simp] theorem modMs_bays (f : MemSys → MemSys) : (modMs s f).bays = s.bays := by rfl
@[simp] theorem modMs_pw (f : MemSys → MemSys) : (modMs s f).pw = s.pw := by rfl
@[simp] theorem modMs_su (f : MemSys → MemSys) : (modMs s f).su = s.su := by rfl
@[simp] theorem modMs_mg (f : MemSys → MemSys) : (modMs s f).mg = s.mg := by rfl
@[simp] theorem modMs_out (f : MemSys → MemSys) : (modMs s f).out = s.out := by rfl

/-! `setGroup` changes `cores` alone. -/

@[simp] theorem setGroup_now (c slot : Nat) (g : Option Group) : (setGroup s c slot g).now = s.now := by rfl
@[simp] theorem setGroup_tOff (c slot : Nat) (g : Option Group) : (setGroup s c slot g).tOff = s.tOff := by rfl
@[simp] theorem setGroup_free (c slot : Nat) (g : Option Group) : (setGroup s c slot g).free = s.free := by rfl
@[simp] theorem setGroup_regs (c slot : Nat) (g : Option Group) : (setGroup s c slot g).regs = s.regs := by rfl
@[simp] theorem setGroup_ms (c slot : Nat) (g : Option Group) : (setGroup s c slot g).ms = s.ms := by rfl
@[simp] theorem setGroup_clusters (c slot : Nat) (g : Option Group) : (setGroup s c slot g).clusters = s.clusters := by rfl
@[simp] theorem setGroup_saved (c slot : Nat) (g : Option Group) : (setGroup s c slot g).saved = s.saved := by rfl
@[simp] theorem setGroup_rgn (c slot : Nat) (g : Option Group) : (setGroup s c slot g).rgn = s.rgn := by rfl
@[simp] theorem setGroup_todo (c slot : Nat) (g : Option Group) : (setGroup s c slot g).todo = s.todo := by rfl
@[simp] theorem setGroup_pgq (c slot : Nat) (g : Option Group) : (setGroup s c slot g).pgq = s.pgq := by rfl
@[simp] theorem setGroup_chans (c slot : Nat) (g : Option Group) : (setGroup s c slot g).chans = s.chans := by rfl
@[simp] theorem setGroup_cmds (c slot : Nat) (g : Option Group) : (setGroup s c slot g).cmds = s.cmds := by rfl
@[simp] theorem setGroup_nextKey (c slot : Nat) (g : Option Group) : (setGroup s c slot g).nextKey = s.nextKey := by rfl
@[simp] theorem setGroup_lastPlaced (c slot : Nat) (g : Option Group) : (setGroup s c slot g).lastPlaced = s.lastPlaced := by rfl
@[simp] theorem setGroup_ports (c slot : Nat) (g : Option Group) : (setGroup s c slot g).ports = s.ports := by rfl
@[simp] theorem setGroup_leaseEnd (c slot : Nat) (g : Option Group) : (setGroup s c slot g).leaseEnd = s.leaseEnd := by rfl
@[simp] theorem setGroup_leaseFresh (c slot : Nat) (g : Option Group) : (setGroup s c slot g).leaseFresh = s.leaseFresh := by rfl
@[simp] theorem setGroup_flt (c slot : Nat) (g : Option Group) : (setGroup s c slot g).flt = s.flt := by rfl
@[simp] theorem setGroup_bridle (c slot : Nat) (g : Option Group) : (setGroup s c slot g).bridle = s.bridle := by rfl
@[simp] theorem setGroup_selfTest (c slot : Nat) (g : Option Group) : (setGroup s c slot g).selfTest = s.selfTest := by rfl
@[simp] theorem setGroup_dlog (c slot : Nat) (g : Option Group) : (setGroup s c slot g).dlog = s.dlog := by rfl
@[simp] theorem setGroup_peerOut (c slot : Nat) (g : Option Group) : (setGroup s c slot g).peerOut = s.peerOut := by rfl
@[simp] theorem setGroup_obs (c slot : Nat) (g : Option Group) : (setGroup s c slot g).obs = s.obs := by rfl
@[simp] theorem setGroup_pins (c slot : Nat) (g : Option Group) : (setGroup s c slot g).pins = s.pins := by rfl
@[simp] theorem setGroup_tandem (c slot : Nat) (g : Option Group) : (setGroup s c slot g).tandem = s.tandem := by rfl
@[simp] theorem setGroup_bays (c slot : Nat) (g : Option Group) : (setGroup s c slot g).bays = s.bays := by rfl
@[simp] theorem setGroup_pw (c slot : Nat) (g : Option Group) : (setGroup s c slot g).pw = s.pw := by rfl
@[simp] theorem setGroup_su (c slot : Nat) (g : Option Group) : (setGroup s c slot g).su = s.su := by rfl
@[simp] theorem setGroup_mg (c slot : Nat) (g : Option Group) : (setGroup s c slot g).mg = s.mg := by rfl
@[simp] theorem setGroup_out (c slot : Nat) (g : Option Group) : (setGroup s c slot g).out = s.out := by rfl

/-! `bumpFree` changes `free` alone. -/

@[simp] theorem bumpFree_now : (bumpFree s).now = s.now := by rfl
@[simp] theorem bumpFree_tOff : (bumpFree s).tOff = s.tOff := by rfl
@[simp] theorem bumpFree_regs : (bumpFree s).regs = s.regs := by rfl
@[simp] theorem bumpFree_ms : (bumpFree s).ms = s.ms := by rfl
@[simp] theorem bumpFree_cores : (bumpFree s).cores = s.cores := by rfl
@[simp] theorem bumpFree_clusters : (bumpFree s).clusters = s.clusters := by rfl
@[simp] theorem bumpFree_saved : (bumpFree s).saved = s.saved := by rfl
@[simp] theorem bumpFree_rgn : (bumpFree s).rgn = s.rgn := by rfl
@[simp] theorem bumpFree_todo : (bumpFree s).todo = s.todo := by rfl
@[simp] theorem bumpFree_pgq : (bumpFree s).pgq = s.pgq := by rfl
@[simp] theorem bumpFree_chans : (bumpFree s).chans = s.chans := by rfl
@[simp] theorem bumpFree_cmds : (bumpFree s).cmds = s.cmds := by rfl
@[simp] theorem bumpFree_nextKey : (bumpFree s).nextKey = s.nextKey := by rfl
@[simp] theorem bumpFree_lastPlaced : (bumpFree s).lastPlaced = s.lastPlaced := by rfl
@[simp] theorem bumpFree_ports : (bumpFree s).ports = s.ports := by rfl
@[simp] theorem bumpFree_leaseEnd : (bumpFree s).leaseEnd = s.leaseEnd := by rfl
@[simp] theorem bumpFree_leaseFresh : (bumpFree s).leaseFresh = s.leaseFresh := by rfl
@[simp] theorem bumpFree_flt : (bumpFree s).flt = s.flt := by rfl
@[simp] theorem bumpFree_bridle : (bumpFree s).bridle = s.bridle := by rfl
@[simp] theorem bumpFree_selfTest : (bumpFree s).selfTest = s.selfTest := by rfl
@[simp] theorem bumpFree_dlog : (bumpFree s).dlog = s.dlog := by rfl
@[simp] theorem bumpFree_peerOut : (bumpFree s).peerOut = s.peerOut := by rfl
@[simp] theorem bumpFree_obs : (bumpFree s).obs = s.obs := by rfl
@[simp] theorem bumpFree_pins : (bumpFree s).pins = s.pins := by rfl
@[simp] theorem bumpFree_tandem : (bumpFree s).tandem = s.tandem := by rfl
@[simp] theorem bumpFree_bays : (bumpFree s).bays = s.bays := by rfl
@[simp] theorem bumpFree_pw : (bumpFree s).pw = s.pw := by rfl
@[simp] theorem bumpFree_su : (bumpFree s).su = s.su := by rfl
@[simp] theorem bumpFree_mg : (bumpFree s).mg = s.mg := by rfl
@[simp] theorem bumpFree_out : (bumpFree s).out = s.out := by rfl

/-! Counters (R683) are registers: counting changes `regs` alone, and `emit` changes `out` beside it. -/

/-- `d` differs from `s` in its registers at most. -/
def RegsOnly (s d : Dev) : Prop := ∃ r, d = { s with regs := r }

theorem foldl_regs_only {β : Type} (f : Dev → β → Dev) (hf : ∀ d b, RegsOnly d (f d b)) (l : List β) : ∀ d : Dev, RegsOnly d (l.foldl f d) := by
  induction l with
  | nil => exact fun d => ⟨d.regs, rfl⟩
  | cons b l ih =>
    intro d
    obtain ⟨r, h⟩ := ih (f d b)
    obtain ⟨q, h'⟩ := hf d b
    exact ⟨r, by rw [List.foldl_cons, h, h']⟩

theorem countSel_regs_only (sel ctr code n : Nat) : RegsOnly s (countSel s sel ctr code n) := by
  unfold countSel
  simp only []
  split
  · exact ⟨s.regs, rfl⟩
  · refine foldl_regs_only _ (fun d i => ?_) _ s
    split
    · exact ⟨_, rfl⟩
    · exact ⟨d.regs, rfl⟩

theorem countDie_regs_only (die code n : Nat) : RegsOnly s (countDie s die code n) :=
  foldl_regs_only _ (fun d _ => countSel_regs_only d _ _ _ _) _ s

theorem countHub_regs_only (hub code n : Nat) : RegsOnly s (countHub s hub code n) :=
  foldl_regs_only _ (fun d _ => countSel_regs_only d _ _ _ _) _ s

theorem countOut_regs_only (o : Out) : RegsOnly s (countOut s o) := by
  unfold countOut
  simp only []
  split
  case h_7 => split <;> exact countHub_regs_only s _ _ _
  case h_8 => exact ⟨s.regs, rfl⟩
  all_goals exact countHub_regs_only s _ _ _

@[simp] theorem countSel_now (sel ctr code n : Nat) : (countSel s sel ctr code n).now = s.now := by
  obtain ⟨_, h⟩ := countSel_regs_only s sel ctr code n
  rw [h]
@[simp] theorem countSel_tOff (sel ctr code n : Nat) : (countSel s sel ctr code n).tOff = s.tOff := by
  obtain ⟨_, h⟩ := countSel_regs_only s sel ctr code n
  rw [h]
@[simp] theorem countSel_free (sel ctr code n : Nat) : (countSel s sel ctr code n).free = s.free := by
  obtain ⟨_, h⟩ := countSel_regs_only s sel ctr code n
  rw [h]
@[simp] theorem countSel_ms (sel ctr code n : Nat) : (countSel s sel ctr code n).ms = s.ms := by
  obtain ⟨_, h⟩ := countSel_regs_only s sel ctr code n
  rw [h]
@[simp] theorem countSel_cores (sel ctr code n : Nat) : (countSel s sel ctr code n).cores = s.cores := by
  obtain ⟨_, h⟩ := countSel_regs_only s sel ctr code n
  rw [h]
@[simp] theorem countSel_clusters (sel ctr code n : Nat) : (countSel s sel ctr code n).clusters = s.clusters := by
  obtain ⟨_, h⟩ := countSel_regs_only s sel ctr code n
  rw [h]
@[simp] theorem countSel_saved (sel ctr code n : Nat) : (countSel s sel ctr code n).saved = s.saved := by
  obtain ⟨_, h⟩ := countSel_regs_only s sel ctr code n
  rw [h]
@[simp] theorem countSel_rgn (sel ctr code n : Nat) : (countSel s sel ctr code n).rgn = s.rgn := by
  obtain ⟨_, h⟩ := countSel_regs_only s sel ctr code n
  rw [h]
@[simp] theorem countSel_todo (sel ctr code n : Nat) : (countSel s sel ctr code n).todo = s.todo := by
  obtain ⟨_, h⟩ := countSel_regs_only s sel ctr code n
  rw [h]
@[simp] theorem countSel_pgq (sel ctr code n : Nat) : (countSel s sel ctr code n).pgq = s.pgq := by
  obtain ⟨_, h⟩ := countSel_regs_only s sel ctr code n
  rw [h]
@[simp] theorem countSel_chans (sel ctr code n : Nat) : (countSel s sel ctr code n).chans = s.chans := by
  obtain ⟨_, h⟩ := countSel_regs_only s sel ctr code n
  rw [h]
@[simp] theorem countSel_cmds (sel ctr code n : Nat) : (countSel s sel ctr code n).cmds = s.cmds := by
  obtain ⟨_, h⟩ := countSel_regs_only s sel ctr code n
  rw [h]
@[simp] theorem countSel_nextKey (sel ctr code n : Nat) : (countSel s sel ctr code n).nextKey = s.nextKey := by
  obtain ⟨_, h⟩ := countSel_regs_only s sel ctr code n
  rw [h]
@[simp] theorem countSel_lastPlaced (sel ctr code n : Nat) : (countSel s sel ctr code n).lastPlaced = s.lastPlaced := by
  obtain ⟨_, h⟩ := countSel_regs_only s sel ctr code n
  rw [h]
@[simp] theorem countSel_ports (sel ctr code n : Nat) : (countSel s sel ctr code n).ports = s.ports := by
  obtain ⟨_, h⟩ := countSel_regs_only s sel ctr code n
  rw [h]
@[simp] theorem countSel_leaseEnd (sel ctr code n : Nat) : (countSel s sel ctr code n).leaseEnd = s.leaseEnd := by
  obtain ⟨_, h⟩ := countSel_regs_only s sel ctr code n
  rw [h]
@[simp] theorem countSel_leaseFresh (sel ctr code n : Nat) : (countSel s sel ctr code n).leaseFresh = s.leaseFresh := by
  obtain ⟨_, h⟩ := countSel_regs_only s sel ctr code n
  rw [h]
@[simp] theorem countSel_flt (sel ctr code n : Nat) : (countSel s sel ctr code n).flt = s.flt := by
  obtain ⟨_, h⟩ := countSel_regs_only s sel ctr code n
  rw [h]
@[simp] theorem countSel_bridle (sel ctr code n : Nat) : (countSel s sel ctr code n).bridle = s.bridle := by
  obtain ⟨_, h⟩ := countSel_regs_only s sel ctr code n
  rw [h]
@[simp] theorem countSel_selfTest (sel ctr code n : Nat) : (countSel s sel ctr code n).selfTest = s.selfTest := by
  obtain ⟨_, h⟩ := countSel_regs_only s sel ctr code n
  rw [h]
@[simp] theorem countSel_dlog (sel ctr code n : Nat) : (countSel s sel ctr code n).dlog = s.dlog := by
  obtain ⟨_, h⟩ := countSel_regs_only s sel ctr code n
  rw [h]
@[simp] theorem countSel_peerOut (sel ctr code n : Nat) : (countSel s sel ctr code n).peerOut = s.peerOut := by
  obtain ⟨_, h⟩ := countSel_regs_only s sel ctr code n
  rw [h]
@[simp] theorem countSel_obs (sel ctr code n : Nat) : (countSel s sel ctr code n).obs = s.obs := by
  obtain ⟨_, h⟩ := countSel_regs_only s sel ctr code n
  rw [h]
@[simp] theorem countSel_pins (sel ctr code n : Nat) : (countSel s sel ctr code n).pins = s.pins := by
  obtain ⟨_, h⟩ := countSel_regs_only s sel ctr code n
  rw [h]
@[simp] theorem countSel_tandem (sel ctr code n : Nat) : (countSel s sel ctr code n).tandem = s.tandem := by
  obtain ⟨_, h⟩ := countSel_regs_only s sel ctr code n
  rw [h]
@[simp] theorem countSel_bays (sel ctr code n : Nat) : (countSel s sel ctr code n).bays = s.bays := by
  obtain ⟨_, h⟩ := countSel_regs_only s sel ctr code n
  rw [h]
@[simp] theorem countSel_pw (sel ctr code n : Nat) : (countSel s sel ctr code n).pw = s.pw := by
  obtain ⟨_, h⟩ := countSel_regs_only s sel ctr code n
  rw [h]
@[simp] theorem countSel_su (sel ctr code n : Nat) : (countSel s sel ctr code n).su = s.su := by
  obtain ⟨_, h⟩ := countSel_regs_only s sel ctr code n
  rw [h]
@[simp] theorem countSel_mg (sel ctr code n : Nat) : (countSel s sel ctr code n).mg = s.mg := by
  obtain ⟨_, h⟩ := countSel_regs_only s sel ctr code n
  rw [h]
@[simp] theorem countSel_out (sel ctr code n : Nat) : (countSel s sel ctr code n).out = s.out := by
  obtain ⟨_, h⟩ := countSel_regs_only s sel ctr code n
  rw [h]

@[simp] theorem countDie_now (die code n : Nat) : (countDie s die code n).now = s.now := by
  obtain ⟨_, h⟩ := countDie_regs_only s die code n
  rw [h]
@[simp] theorem countDie_tOff (die code n : Nat) : (countDie s die code n).tOff = s.tOff := by
  obtain ⟨_, h⟩ := countDie_regs_only s die code n
  rw [h]
@[simp] theorem countDie_free (die code n : Nat) : (countDie s die code n).free = s.free := by
  obtain ⟨_, h⟩ := countDie_regs_only s die code n
  rw [h]
@[simp] theorem countDie_ms (die code n : Nat) : (countDie s die code n).ms = s.ms := by
  obtain ⟨_, h⟩ := countDie_regs_only s die code n
  rw [h]
@[simp] theorem countDie_cores (die code n : Nat) : (countDie s die code n).cores = s.cores := by
  obtain ⟨_, h⟩ := countDie_regs_only s die code n
  rw [h]
@[simp] theorem countDie_clusters (die code n : Nat) : (countDie s die code n).clusters = s.clusters := by
  obtain ⟨_, h⟩ := countDie_regs_only s die code n
  rw [h]
@[simp] theorem countDie_saved (die code n : Nat) : (countDie s die code n).saved = s.saved := by
  obtain ⟨_, h⟩ := countDie_regs_only s die code n
  rw [h]
@[simp] theorem countDie_rgn (die code n : Nat) : (countDie s die code n).rgn = s.rgn := by
  obtain ⟨_, h⟩ := countDie_regs_only s die code n
  rw [h]
@[simp] theorem countDie_todo (die code n : Nat) : (countDie s die code n).todo = s.todo := by
  obtain ⟨_, h⟩ := countDie_regs_only s die code n
  rw [h]
@[simp] theorem countDie_pgq (die code n : Nat) : (countDie s die code n).pgq = s.pgq := by
  obtain ⟨_, h⟩ := countDie_regs_only s die code n
  rw [h]
@[simp] theorem countDie_chans (die code n : Nat) : (countDie s die code n).chans = s.chans := by
  obtain ⟨_, h⟩ := countDie_regs_only s die code n
  rw [h]
@[simp] theorem countDie_cmds (die code n : Nat) : (countDie s die code n).cmds = s.cmds := by
  obtain ⟨_, h⟩ := countDie_regs_only s die code n
  rw [h]
@[simp] theorem countDie_nextKey (die code n : Nat) : (countDie s die code n).nextKey = s.nextKey := by
  obtain ⟨_, h⟩ := countDie_regs_only s die code n
  rw [h]
@[simp] theorem countDie_lastPlaced (die code n : Nat) : (countDie s die code n).lastPlaced = s.lastPlaced := by
  obtain ⟨_, h⟩ := countDie_regs_only s die code n
  rw [h]
@[simp] theorem countDie_ports (die code n : Nat) : (countDie s die code n).ports = s.ports := by
  obtain ⟨_, h⟩ := countDie_regs_only s die code n
  rw [h]
@[simp] theorem countDie_leaseEnd (die code n : Nat) : (countDie s die code n).leaseEnd = s.leaseEnd := by
  obtain ⟨_, h⟩ := countDie_regs_only s die code n
  rw [h]
@[simp] theorem countDie_leaseFresh (die code n : Nat) : (countDie s die code n).leaseFresh = s.leaseFresh := by
  obtain ⟨_, h⟩ := countDie_regs_only s die code n
  rw [h]
@[simp] theorem countDie_flt (die code n : Nat) : (countDie s die code n).flt = s.flt := by
  obtain ⟨_, h⟩ := countDie_regs_only s die code n
  rw [h]
@[simp] theorem countDie_bridle (die code n : Nat) : (countDie s die code n).bridle = s.bridle := by
  obtain ⟨_, h⟩ := countDie_regs_only s die code n
  rw [h]
@[simp] theorem countDie_selfTest (die code n : Nat) : (countDie s die code n).selfTest = s.selfTest := by
  obtain ⟨_, h⟩ := countDie_regs_only s die code n
  rw [h]
@[simp] theorem countDie_dlog (die code n : Nat) : (countDie s die code n).dlog = s.dlog := by
  obtain ⟨_, h⟩ := countDie_regs_only s die code n
  rw [h]
@[simp] theorem countDie_peerOut (die code n : Nat) : (countDie s die code n).peerOut = s.peerOut := by
  obtain ⟨_, h⟩ := countDie_regs_only s die code n
  rw [h]
@[simp] theorem countDie_obs (die code n : Nat) : (countDie s die code n).obs = s.obs := by
  obtain ⟨_, h⟩ := countDie_regs_only s die code n
  rw [h]
@[simp] theorem countDie_pins (die code n : Nat) : (countDie s die code n).pins = s.pins := by
  obtain ⟨_, h⟩ := countDie_regs_only s die code n
  rw [h]
@[simp] theorem countDie_tandem (die code n : Nat) : (countDie s die code n).tandem = s.tandem := by
  obtain ⟨_, h⟩ := countDie_regs_only s die code n
  rw [h]
@[simp] theorem countDie_bays (die code n : Nat) : (countDie s die code n).bays = s.bays := by
  obtain ⟨_, h⟩ := countDie_regs_only s die code n
  rw [h]
@[simp] theorem countDie_pw (die code n : Nat) : (countDie s die code n).pw = s.pw := by
  obtain ⟨_, h⟩ := countDie_regs_only s die code n
  rw [h]
@[simp] theorem countDie_su (die code n : Nat) : (countDie s die code n).su = s.su := by
  obtain ⟨_, h⟩ := countDie_regs_only s die code n
  rw [h]
@[simp] theorem countDie_mg (die code n : Nat) : (countDie s die code n).mg = s.mg := by
  obtain ⟨_, h⟩ := countDie_regs_only s die code n
  rw [h]
@[simp] theorem countDie_out (die code n : Nat) : (countDie s die code n).out = s.out := by
  obtain ⟨_, h⟩ := countDie_regs_only s die code n
  rw [h]

@[simp] theorem countHub_now (hub code n : Nat) : (countHub s hub code n).now = s.now := by
  obtain ⟨_, h⟩ := countHub_regs_only s hub code n
  rw [h]
@[simp] theorem countHub_tOff (hub code n : Nat) : (countHub s hub code n).tOff = s.tOff := by
  obtain ⟨_, h⟩ := countHub_regs_only s hub code n
  rw [h]
@[simp] theorem countHub_free (hub code n : Nat) : (countHub s hub code n).free = s.free := by
  obtain ⟨_, h⟩ := countHub_regs_only s hub code n
  rw [h]
@[simp] theorem countHub_ms (hub code n : Nat) : (countHub s hub code n).ms = s.ms := by
  obtain ⟨_, h⟩ := countHub_regs_only s hub code n
  rw [h]
@[simp] theorem countHub_cores (hub code n : Nat) : (countHub s hub code n).cores = s.cores := by
  obtain ⟨_, h⟩ := countHub_regs_only s hub code n
  rw [h]
@[simp] theorem countHub_clusters (hub code n : Nat) : (countHub s hub code n).clusters = s.clusters := by
  obtain ⟨_, h⟩ := countHub_regs_only s hub code n
  rw [h]
@[simp] theorem countHub_saved (hub code n : Nat) : (countHub s hub code n).saved = s.saved := by
  obtain ⟨_, h⟩ := countHub_regs_only s hub code n
  rw [h]
@[simp] theorem countHub_rgn (hub code n : Nat) : (countHub s hub code n).rgn = s.rgn := by
  obtain ⟨_, h⟩ := countHub_regs_only s hub code n
  rw [h]
@[simp] theorem countHub_todo (hub code n : Nat) : (countHub s hub code n).todo = s.todo := by
  obtain ⟨_, h⟩ := countHub_regs_only s hub code n
  rw [h]
@[simp] theorem countHub_pgq (hub code n : Nat) : (countHub s hub code n).pgq = s.pgq := by
  obtain ⟨_, h⟩ := countHub_regs_only s hub code n
  rw [h]
@[simp] theorem countHub_chans (hub code n : Nat) : (countHub s hub code n).chans = s.chans := by
  obtain ⟨_, h⟩ := countHub_regs_only s hub code n
  rw [h]
@[simp] theorem countHub_cmds (hub code n : Nat) : (countHub s hub code n).cmds = s.cmds := by
  obtain ⟨_, h⟩ := countHub_regs_only s hub code n
  rw [h]
@[simp] theorem countHub_nextKey (hub code n : Nat) : (countHub s hub code n).nextKey = s.nextKey := by
  obtain ⟨_, h⟩ := countHub_regs_only s hub code n
  rw [h]
@[simp] theorem countHub_lastPlaced (hub code n : Nat) : (countHub s hub code n).lastPlaced = s.lastPlaced := by
  obtain ⟨_, h⟩ := countHub_regs_only s hub code n
  rw [h]
@[simp] theorem countHub_ports (hub code n : Nat) : (countHub s hub code n).ports = s.ports := by
  obtain ⟨_, h⟩ := countHub_regs_only s hub code n
  rw [h]
@[simp] theorem countHub_leaseEnd (hub code n : Nat) : (countHub s hub code n).leaseEnd = s.leaseEnd := by
  obtain ⟨_, h⟩ := countHub_regs_only s hub code n
  rw [h]
@[simp] theorem countHub_leaseFresh (hub code n : Nat) : (countHub s hub code n).leaseFresh = s.leaseFresh := by
  obtain ⟨_, h⟩ := countHub_regs_only s hub code n
  rw [h]
@[simp] theorem countHub_flt (hub code n : Nat) : (countHub s hub code n).flt = s.flt := by
  obtain ⟨_, h⟩ := countHub_regs_only s hub code n
  rw [h]
@[simp] theorem countHub_bridle (hub code n : Nat) : (countHub s hub code n).bridle = s.bridle := by
  obtain ⟨_, h⟩ := countHub_regs_only s hub code n
  rw [h]
@[simp] theorem countHub_selfTest (hub code n : Nat) : (countHub s hub code n).selfTest = s.selfTest := by
  obtain ⟨_, h⟩ := countHub_regs_only s hub code n
  rw [h]
@[simp] theorem countHub_dlog (hub code n : Nat) : (countHub s hub code n).dlog = s.dlog := by
  obtain ⟨_, h⟩ := countHub_regs_only s hub code n
  rw [h]
@[simp] theorem countHub_peerOut (hub code n : Nat) : (countHub s hub code n).peerOut = s.peerOut := by
  obtain ⟨_, h⟩ := countHub_regs_only s hub code n
  rw [h]
@[simp] theorem countHub_obs (hub code n : Nat) : (countHub s hub code n).obs = s.obs := by
  obtain ⟨_, h⟩ := countHub_regs_only s hub code n
  rw [h]
@[simp] theorem countHub_pins (hub code n : Nat) : (countHub s hub code n).pins = s.pins := by
  obtain ⟨_, h⟩ := countHub_regs_only s hub code n
  rw [h]
@[simp] theorem countHub_tandem (hub code n : Nat) : (countHub s hub code n).tandem = s.tandem := by
  obtain ⟨_, h⟩ := countHub_regs_only s hub code n
  rw [h]
@[simp] theorem countHub_bays (hub code n : Nat) : (countHub s hub code n).bays = s.bays := by
  obtain ⟨_, h⟩ := countHub_regs_only s hub code n
  rw [h]
@[simp] theorem countHub_pw (hub code n : Nat) : (countHub s hub code n).pw = s.pw := by
  obtain ⟨_, h⟩ := countHub_regs_only s hub code n
  rw [h]
@[simp] theorem countHub_su (hub code n : Nat) : (countHub s hub code n).su = s.su := by
  obtain ⟨_, h⟩ := countHub_regs_only s hub code n
  rw [h]
@[simp] theorem countHub_mg (hub code n : Nat) : (countHub s hub code n).mg = s.mg := by
  obtain ⟨_, h⟩ := countHub_regs_only s hub code n
  rw [h]
@[simp] theorem countHub_out (hub code n : Nat) : (countHub s hub code n).out = s.out := by
  obtain ⟨_, h⟩ := countHub_regs_only s hub code n
  rw [h]

@[simp] theorem countOut_now (o : Out) : (countOut s o).now = s.now := by
  obtain ⟨_, h⟩ := countOut_regs_only s o
  rw [h]
@[simp] theorem countOut_tOff (o : Out) : (countOut s o).tOff = s.tOff := by
  obtain ⟨_, h⟩ := countOut_regs_only s o
  rw [h]
@[simp] theorem countOut_free (o : Out) : (countOut s o).free = s.free := by
  obtain ⟨_, h⟩ := countOut_regs_only s o
  rw [h]
@[simp] theorem countOut_ms (o : Out) : (countOut s o).ms = s.ms := by
  obtain ⟨_, h⟩ := countOut_regs_only s o
  rw [h]
@[simp] theorem countOut_cores (o : Out) : (countOut s o).cores = s.cores := by
  obtain ⟨_, h⟩ := countOut_regs_only s o
  rw [h]
@[simp] theorem countOut_clusters (o : Out) : (countOut s o).clusters = s.clusters := by
  obtain ⟨_, h⟩ := countOut_regs_only s o
  rw [h]
@[simp] theorem countOut_saved (o : Out) : (countOut s o).saved = s.saved := by
  obtain ⟨_, h⟩ := countOut_regs_only s o
  rw [h]
@[simp] theorem countOut_rgn (o : Out) : (countOut s o).rgn = s.rgn := by
  obtain ⟨_, h⟩ := countOut_regs_only s o
  rw [h]
@[simp] theorem countOut_todo (o : Out) : (countOut s o).todo = s.todo := by
  obtain ⟨_, h⟩ := countOut_regs_only s o
  rw [h]
@[simp] theorem countOut_pgq (o : Out) : (countOut s o).pgq = s.pgq := by
  obtain ⟨_, h⟩ := countOut_regs_only s o
  rw [h]
@[simp] theorem countOut_chans (o : Out) : (countOut s o).chans = s.chans := by
  obtain ⟨_, h⟩ := countOut_regs_only s o
  rw [h]
@[simp] theorem countOut_cmds (o : Out) : (countOut s o).cmds = s.cmds := by
  obtain ⟨_, h⟩ := countOut_regs_only s o
  rw [h]
@[simp] theorem countOut_nextKey (o : Out) : (countOut s o).nextKey = s.nextKey := by
  obtain ⟨_, h⟩ := countOut_regs_only s o
  rw [h]
@[simp] theorem countOut_lastPlaced (o : Out) : (countOut s o).lastPlaced = s.lastPlaced := by
  obtain ⟨_, h⟩ := countOut_regs_only s o
  rw [h]
@[simp] theorem countOut_ports (o : Out) : (countOut s o).ports = s.ports := by
  obtain ⟨_, h⟩ := countOut_regs_only s o
  rw [h]
@[simp] theorem countOut_leaseEnd (o : Out) : (countOut s o).leaseEnd = s.leaseEnd := by
  obtain ⟨_, h⟩ := countOut_regs_only s o
  rw [h]
@[simp] theorem countOut_leaseFresh (o : Out) : (countOut s o).leaseFresh = s.leaseFresh := by
  obtain ⟨_, h⟩ := countOut_regs_only s o
  rw [h]
@[simp] theorem countOut_flt (o : Out) : (countOut s o).flt = s.flt := by
  obtain ⟨_, h⟩ := countOut_regs_only s o
  rw [h]
@[simp] theorem countOut_bridle (o : Out) : (countOut s o).bridle = s.bridle := by
  obtain ⟨_, h⟩ := countOut_regs_only s o
  rw [h]
@[simp] theorem countOut_selfTest (o : Out) : (countOut s o).selfTest = s.selfTest := by
  obtain ⟨_, h⟩ := countOut_regs_only s o
  rw [h]
@[simp] theorem countOut_dlog (o : Out) : (countOut s o).dlog = s.dlog := by
  obtain ⟨_, h⟩ := countOut_regs_only s o
  rw [h]
@[simp] theorem countOut_peerOut (o : Out) : (countOut s o).peerOut = s.peerOut := by
  obtain ⟨_, h⟩ := countOut_regs_only s o
  rw [h]
@[simp] theorem countOut_obs (o : Out) : (countOut s o).obs = s.obs := by
  obtain ⟨_, h⟩ := countOut_regs_only s o
  rw [h]
@[simp] theorem countOut_pins (o : Out) : (countOut s o).pins = s.pins := by
  obtain ⟨_, h⟩ := countOut_regs_only s o
  rw [h]
@[simp] theorem countOut_tandem (o : Out) : (countOut s o).tandem = s.tandem := by
  obtain ⟨_, h⟩ := countOut_regs_only s o
  rw [h]
@[simp] theorem countOut_bays (o : Out) : (countOut s o).bays = s.bays := by
  obtain ⟨_, h⟩ := countOut_regs_only s o
  rw [h]
@[simp] theorem countOut_pw (o : Out) : (countOut s o).pw = s.pw := by
  obtain ⟨_, h⟩ := countOut_regs_only s o
  rw [h]
@[simp] theorem countOut_su (o : Out) : (countOut s o).su = s.su := by
  obtain ⟨_, h⟩ := countOut_regs_only s o
  rw [h]
@[simp] theorem countOut_mg (o : Out) : (countOut s o).mg = s.mg := by
  obtain ⟨_, h⟩ := countOut_regs_only s o
  rw [h]
@[simp] theorem countOut_out (o : Out) : (countOut s o).out = s.out := by
  obtain ⟨_, h⟩ := countOut_regs_only s o
  rw [h]

@[simp] theorem emit_now (o : Out) : (emit s o).now = s.now := countOut_now s o
@[simp] theorem emit_tOff (o : Out) : (emit s o).tOff = s.tOff := countOut_tOff s o
@[simp] theorem emit_free (o : Out) : (emit s o).free = s.free := countOut_free s o
@[simp] theorem emit_ms (o : Out) : (emit s o).ms = s.ms := countOut_ms s o
@[simp] theorem emit_cores (o : Out) : (emit s o).cores = s.cores := countOut_cores s o
@[simp] theorem emit_clusters (o : Out) : (emit s o).clusters = s.clusters := countOut_clusters s o
@[simp] theorem emit_saved (o : Out) : (emit s o).saved = s.saved := countOut_saved s o
@[simp] theorem emit_rgn (o : Out) : (emit s o).rgn = s.rgn := countOut_rgn s o
@[simp] theorem emit_todo (o : Out) : (emit s o).todo = s.todo := countOut_todo s o
@[simp] theorem emit_pgq (o : Out) : (emit s o).pgq = s.pgq := countOut_pgq s o
@[simp] theorem emit_chans (o : Out) : (emit s o).chans = s.chans := countOut_chans s o
@[simp] theorem emit_cmds (o : Out) : (emit s o).cmds = s.cmds := countOut_cmds s o
@[simp] theorem emit_nextKey (o : Out) : (emit s o).nextKey = s.nextKey := countOut_nextKey s o
@[simp] theorem emit_lastPlaced (o : Out) : (emit s o).lastPlaced = s.lastPlaced := countOut_lastPlaced s o
@[simp] theorem emit_ports (o : Out) : (emit s o).ports = s.ports := countOut_ports s o
@[simp] theorem emit_leaseEnd (o : Out) : (emit s o).leaseEnd = s.leaseEnd := countOut_leaseEnd s o
@[simp] theorem emit_leaseFresh (o : Out) : (emit s o).leaseFresh = s.leaseFresh := countOut_leaseFresh s o
@[simp] theorem emit_flt (o : Out) : (emit s o).flt = s.flt := countOut_flt s o
@[simp] theorem emit_bridle (o : Out) : (emit s o).bridle = s.bridle := countOut_bridle s o
@[simp] theorem emit_selfTest (o : Out) : (emit s o).selfTest = s.selfTest := countOut_selfTest s o
@[simp] theorem emit_dlog (o : Out) : (emit s o).dlog = s.dlog := countOut_dlog s o
@[simp] theorem emit_peerOut (o : Out) : (emit s o).peerOut = s.peerOut := countOut_peerOut s o
@[simp] theorem emit_obs (o : Out) : (emit s o).obs = s.obs := countOut_obs s o
@[simp] theorem emit_pins (o : Out) : (emit s o).pins = s.pins := countOut_pins s o
@[simp] theorem emit_tandem (o : Out) : (emit s o).tandem = s.tandem := countOut_tandem s o
@[simp] theorem emit_bays (o : Out) : (emit s o).bays = s.bays := countOut_bays s o
@[simp] theorem emit_pw (o : Out) : (emit s o).pw = s.pw := countOut_pw s o
@[simp] theorem emit_su (o : Out) : (emit s o).su = s.su := countOut_su s o
@[simp] theorem emit_mg (o : Out) : (emit s o).mg = s.mg := countOut_mg s o

/-! ## What the updated part reads as -/

@[simp] theorem modMs_ms (f : MemSys → MemSys) : (modMs s f).ms = f s.ms := by rfl
@[simp] theorem bumpFree_free : (bumpFree s).free = s.free + 1 := by rfl
@[simp] theorem emit_out (o : Out) : (emit s o).out = s.out ++ [o] := congrArg (· ++ [o]) (countOut_out s o)

@[simp] theorem reg_setReg_same (off : Nat) (w : Word) : reg (setReg s off w) off = w := tabGet_tabSet_same _ _ _ _
theorem reg_setReg_other (off off' : Nat) (w : Word) (h : off' ≠ off) : reg (setReg s off w) off' = reg s off' := tabGet_tabSet_other _ _ _ h
theorem reg_setReg (off off' : Nat) (w : Word) : reg (setReg s off w) off' = if off' = off then w else reg s off' := tabGet_tabSet _ _ _ _ _
theorem getF_setReg_other (off : Nat) (w : Word) (f : Fld) (h : f.off ≠ off) : getF (setReg s off w) f = getF s f := by
  simp [getF, reg_setReg_other s off f.off w h]
theorem getF_setF_other (f g : Fld) (v : Nat) (h : g.off ≠ f.off) : getF (setF s f v) g = getF s g := getF_setReg_other s _ _ g h
theorem reg_setF_other (f : Fld) (v off : Nat) (h : off ≠ f.off) : reg (setF s f v) off = reg s off := reg_setReg_other s _ _ _ h
theorem reg_setF_same (f : Fld) (v : Nat) : reg (setF s f v) f.off = putFld (reg s f.off) f.msb f.lsb v := reg_setReg_same s _ _

@[simp] theorem getCore_setCore_same (c : Nat) (x : Core) : getCore (setCore s c x) c = x := tabGet_tabSet_same _ _ _ _
theorem getCore_setCore_other (c c' : Nat) (x : Core) (h : c' ≠ c) : getCore (setCore s c x) c' = getCore s c' := tabGet_tabSet_other _ _ _ h
@[simp] theorem getCore_modCore_same (c : Nat) (f : Core → Core) : getCore (modCore s c f) c = f (getCore s c) := getCore_setCore_same s c _
theorem getCore_modCore_other (c c' : Nat) (f : Core → Core) (h : c' ≠ c) : getCore (modCore s c f) c' = getCore s c' :=
  getCore_setCore_other s c c' _ h
@[simp] theorem getCl_setCl_same (c : Nat) (x : Cluster) : getCl (setCl s c x) c = x := tabGet_tabSet_same _ _ _ _
theorem getCl_setCl_other (c c' : Nat) (x : Cluster) (h : c' ≠ c) : getCl (setCl s c x) c' = getCl s c' := tabGet_tabSet_other _ _ _ h
@[simp] theorem getCl_modCl_same (c : Nat) (f : Cluster → Cluster) : getCl (modCl s c f) c = f (getCl s c) := getCl_setCl_same s c _
@[simp] theorem getCh_modCh_same (c : Nat) (f : Channel → Channel) : getCh (modCh s c f) c = f (getCh s c) := tabGet_tabSet_same _ _ _ _
theorem getCh_modCh_other (c c' : Nat) (f : Channel → Channel) (h : c' ≠ c) : getCh (modCh s c f) c' = getCh s c' := tabGet_tabSet_other _ _ _ h
@[simp] theorem getPort_modPort_same (p : Nat) (f : HostPort → HostPort) : getPort (modPort s p f) p = f (getPort s p) := tabGet_tabSet_same _ _ _ _
theorem getPort_modPort_other (p p' : Nat) (f : HostPort → HostPort) (h : p' ≠ p) : getPort (modPort s p f) p' = getPort s p' :=
  tabGet_tabSet_other _ _ _ h
@[simp] theorem getGroup_setGroup_same (c slot : Nat) (g : Option Group) : getGroup (setGroup s c slot g) c slot = g := by
  simp [getGroup, setGroup]
theorem getGroup_setGroup_other (c slot c' slot' : Nat) (g : Option Group) (h : c' ≠ c ∨ slot' ≠ slot) :
    getGroup (setGroup s c slot g) c' slot' = getGroup s c' slot' := by
  by_cases hc : c' = c
  · subst hc
    have hs : slot' ≠ slot := by
      cases h with
      | inl h => exact absurd rfl h
      | inr h => exact h
    simp [getGroup, setGroup, tabGet_tabSet_other _ _ _ hs]
  · simp [getGroup, setGroup, getCore_modCore_other s c c' _ hc]

end

end Sys2Proof.Machine
end

