-- ==== Sys2Proof/Laws/Memory.lean ====
section
/-! SUPPORT. Sys2Proof/Laws/Memory.lean: the laws of memory: what a masked write stores, that it leaves every other byte alone, and that every
operation that changes tier or scratchpad bytes keeps the canonical form. -/

namespace Sys2Proof.Machine

open Sys2Proof

/-- A fold of table writes keeps the canonical form. -/
theorem foldSet_wf {β : Type} (l : List β) (k : β → Nat) (v : β → Byte) (p : β → Bool) (t : Tab Byte) (h : tabWf (fun _ => 0) t = true) :
    tabWf (fun _ => 0) (l.foldl (fun t i => if p i = true then tabSet (fun _ => 0) t (k i) (v i) else t) t) = true := by
  induction l generalizing t with
  | nil => exact h
  | cons i l ih =>
    rw [List.foldl_cons]
    apply ih
    split
    · exact tabSet_wf _ _ _ _ h
    · exact h

theorem writeNat_wf (t : Tab Byte) (a n v mask : Nat) (h : tabWf (fun _ => 0) t = true) : tabWf (fun _ => 0) (writeNat t a n v mask) = true :=
  foldSet_wf (List.range n) (fun i => a + i) (fun i => BitVec.ofNat 8 (v / 2 ^ (8 * i))) (fun i => mask.testBit i) t h

/-- A read after a masked write: the bytes under the mask are the value's, every other byte is as it was. -/
theorem tabGet_writeNat (t : Tab Byte) (a n v mask k : Nat) :
    tabGet (fun _ => 0) (writeNat t a n v mask) k =
      if a ≤ k ∧ k < a + n ∧ mask.testBit (k - a) = true then BitVec.ofNat 8 (v / 2 ^ (8 * (k - a))) else tabGet (fun _ => 0) t k := by
  unfold writeNat
  induction n with
  | zero =>
    rw [if_neg (by omega)]
    rfl
  | succ n ih =>
    rw [List.range_succ, List.foldl_append, List.foldl_cons, List.foldl_nil]
    by_cases hk : k = a + n
    · subst hk
      have hs : a + n - a = n := by omega
      rw [hs] at ih ⊢
      by_cases hm : mask.testBit n = true
      · rw [if_pos hm, tabGet_tabSet_same, if_pos ⟨by omega, by omega, hm⟩]
      · rw [if_neg hm, ih, if_neg (by omega), if_neg (fun x => hm x.2.2)]
    · have hc : (a ≤ k ∧ k < a + (n + 1) ∧ mask.testBit (k - a) = true) ↔ (a ≤ k ∧ k < a + n ∧ mask.testBit (k - a) = true) := by
        constructor <;> rintro ⟨h1, h2, h3⟩ <;> exact ⟨h1, by omega, h3⟩
      simp only [hc]
      by_cases hm : mask.testBit n = true
      · rw [if_pos hm, tabGet_tabSet_other _ _ _ hk, ih]
      · rw [if_neg hm, ih]

theorem memory_wf_iff (m : MemSys) : Memory.wf m = true ↔ tabWf (fun _ => 0) m.tier = true ∧ tabWf (fun _ => 0) m.spad = true := by
  simp [Memory.wf]

@[simp] theorem wakeStacks_ms (s : Dev) (b : Nat) : (wakeStacks s b).ms = s.ms := by
  unfold wakeStacks
  split <;> rfl

/-- R393: a CXL.mem request changes neither memory's bytes. -/
theorem cxlRequest_bytes (s : Dev) (b : Nat) (w : Bool) (x : BitVec 512) (m : Nat) (p : Bool) :
    (cxlRequest s b w x m p).ms.tier = s.ms.tier ∧ (cxlRequest s b w x m p).ms.spad = s.ms.spad := by
  unfold cxlRequest
  split
  · exact ⟨rfl, rfl⟩
  · simp only []
    split
    · split <;> exact ⟨by simp [modMs], by simp [modMs]⟩
    · exact ⟨by simp, by simp⟩

/-- Noting what a far write replaces changes neither memory's bytes. -/
theorem noteFarOut_bytes (s : Dev) (b m : Nat) : (noteFarOut s b m).ms.tier = s.ms.tier ∧ (noteFarOut s b m).ms.spad = s.ms.spad := by
  unfold noteFarOut
  split
  · exact ⟨rfl, rfl⟩
  · split <;> exact ⟨rfl, rfl⟩

/-- R576: waking a cluster leaves memory as it is. -/
@[simp] theorem wakeCl_ms (s : Dev) (cl : Nat) : (wakeCl s cl).ms = s.ms := by
  unfold wakeCl
  split
  · rfl
  · simp only []
    split
    · rw [setF_ms, modCl_ms]
    · rw [modCl_ms]

/-- R365: a lost reservation leaves memory's bytes as they are. -/
theorem clearResv_bytes (s : Dev) (l : List Nat) (w : Writer) : (clearResv s l w).ms.tier = s.ms.tier ∧ (clearResv s l w).ms.spad = s.ms.spad := ⟨rfl, rfl⟩

/-- Counting a store leaves memory as it is. -/
theorem tierCount_ms (s : Dev) (b m : Nat) : (tierCount s b m).ms = s.ms := by
  unfold tierCount
  split
  · rw [countDie_ms, wakeStacks_ms]
  · rfl

/-- R384: a sector stored in a tier keeps memory's form. -/
theorem tierStore_wf (s : Dev) (b : Nat) (x : BitVec 512) (mask : Nat) (poison : Bool) (h : Memory.wf s.ms = true) :
    Memory.wf (tierStore s b x mask poison).ms = true := by
  unfold tierStore
  split
  · exact h
  · rw [memory_wf_iff] at h ⊢
    rw [← tierCount_ms s b mask] at h
    generalize tierCount s b mask = d at h
    rw [← (cxlRequest_bytes d b true x mask poison).1, ← (cxlRequest_bytes d b true x mask poison).2] at h
    generalize cxlRequest d b true x mask poison = d at h
    rw [← (noteFarOut_bytes d b mask).1, ← (noteFarOut_bytes d b mask).2] at h
    exact ⟨writeNat_wf _ _ _ _ _ h.1, h.2⟩

/-- R389: a merge buffer's write-back keeps memory's form. -/
theorem adderFlush_wf (s : Dev) (b : Nat) (h : Memory.wf s.ms = true) : Memory.wf (adderFlush s b).ms = true := by
  unfold adderFlush
  split
  · exact h
  · apply tierStore_wf
    simpa [Memory.wf, modMs] using h

/-- R247: a write of a scratchpad keeps memory's form. -/
theorem spadWrite_wf (s : Dev) (cl off data mask n : Nat) (poison : Bool) (thr : Writer) (h : Memory.wf s.ms = true) :
    Memory.wf (spadWrite s cl off data mask n poison thr).ms = true := by
  rw [memory_wf_iff] at h ⊢
  have hw := wakeCl_ms s cl
  exact ⟨by simpa [spadWrite, clearResv, modMs, hw] using h.1, writeNat_wf _ _ _ _ _ (by simpa [clearResv, modMs, hw] using h.2)⟩

/-- R248: a groomed region's scratchpads keep memory's form. -/
theorem clearRegionSpad_wf (s : Dev) (r : Nat) (h : Memory.wf s.ms = true) : Memory.wf (clearRegionSpad s r).ms = true := by
  rw [memory_wf_iff] at h ⊢
  exact ⟨h.1, tabFilter_wf _ _ _ h.2⟩

/-- R526: zeroed frames keep memory's form. -/
theorem zeroFrames_wf (s : Dev) (p : Nat → Bool) (h : Memory.wf s.ms = true) : Memory.wf (zeroFrames s p).ms = true := by
  rw [memory_wf_iff] at h ⊢
  exact ⟨tabFilter_wf _ _ _ h.1, h.2⟩

/-- R536: a context's scratchpad bytes loaded again keep memory's form. -/
theorem loadSpad_wf (l t : Tab Byte) (h : tabWf (fun _ => 0) t = true) : tabWf (fun _ => 0) (l.foldl (fun t e => tabSet (fun _ => 0) t e.1 e.2) t) = true := by
  induction l generalizing t with
  | nil => exact h
  | cons e l ih => exact ih _ (tabSet_wf _ _ _ _ h)

/-- The planes without power keep memory's form. -/
theorem clearPlanes_wf (s : Dev) (far : Bool) (h : Memory.wf s.ms = true) : Memory.wf (clearPlanes s far).ms = true := by
  rw [memory_wf_iff] at h ⊢
  exact ⟨tabFilter_wf _ _ _ h.1, rfl⟩

/-- Nothing is read of a run of no bytes. -/
theorem readVa_zero (x : Option Nat) (tag fuel : Nat) (s : Dev) (va : Nat) : readVa x tag fuel s va 0 = (s, { bytes := [], err := none, lost := false }) := by
  cases fuel <;> simp [readVa]

/-- A run of bytes read through pages that lie in one scratchpad window. -/
theorem readVa_spad {s : Dev} {x : Option Nat} {tag cl base N pb : Nat} {attr : PageAttr}
    (hT : ∀ a, base ≤ a → a < base + N → translate s tag a false = (s, .ok (a - base + pb) attr))
    (hP : ∀ i, i < N → placeOf s (i + pb) = .spad cl i)
    (hx : askDie s x (cl / 24) = s) (hw : wakeCl s cl = s) (hd : dieLost s (cl / 24) = false) (ho : spadOwner s tag cl = true) (fuel : Nat) :
    ∀ va n, base ≤ va → va + n ≤ base + N → n ≤ 512 * fuel → va % 512 = 0 →
      readVa x tag fuel s va n = (s, { bytes := (List.range n).map (fun i => (tabGet (fun _ => 0) s.ms.spad (cl * 0x800000 + (va - base) + i),
        s.ms.spadPoison.contains ((cl * 0x800000 + (va - base) + i) / 64))), err := none, lost := false }) := by
  induction fuel with
  | zero =>
    intro va n _ _ hn _
    have : n = 0 := by omega
    subst this
    rfl
  | succ fuel ih =>
    intro va n h1 h2 h3 h4
    by_cases hn : n = 0
    · subst hn
      rw [readVa_zero]
      rfl
    · rw [readVa, if_neg hn]
      simp only [h4, Nat.sub_zero, hT va h1 (by omega), readPa, hP (va - base) (by omega), hx, hw, hd, ho, Option.isSome_none, if_true, if_false, Bool.false_eq_true]
      by_cases hk : n ≤ 512
      · rw [Nat.min_eq_left hk, Nat.sub_self, readVa_zero]
        simp
      · have hm : min n 512 = 512 := Nat.min_eq_right (by omega)
        rw [hm, ih (va + 512) (n - 512) (by omega) (by omega) (by omega) (by omega)]
        obtain ⟨m, rfl⟩ : ∃ m, n = 512 + m := ⟨n - 512, by omega⟩
        have e : 512 + m - 512 = m := by omega
        have hb : va + 512 - base = va - base + 512 := by omega
        have hg : (List.range m).map (fun i => (tabGet (fun _ => 0) s.ms.spad (cl * 0x800000 + (va - base + 512) + i), s.ms.spadPoison.contains ((cl * 0x800000 + (va - base + 512) + i) / 64)))
            = (List.range m).map ((fun i => (tabGet (fun _ => 0) s.ms.spad (cl * 0x800000 + (va - base) + i), s.ms.spadPoison.contains ((cl * 0x800000 + (va - base) + i) / 64))) ∘ (fun i => 512 + i)) :=
          List.map_congr_left (fun i _ => by simp only [Function.comp_apply, Nat.add_assoc])
        rw [e, hb, hg, List.range_add, List.map_append, List.map_map]

/-- A translation that the TLB holds (R351 to R354). -/
theorem translate_hit {s : Dev} {tag va : Nat} {write : Bool} {t : Nat × Nat × Nat × Word} (h1 : va < 2 ^ 48) (h2 : tag < 0x10)
    (hf : s.ms.tlb.find? (fun t => t.1 == tag && va / 2 ^ t.2.2.1 * 2 ^ t.2.2.1 == t.2.1) = some t) :
    translate s tag va write = (s, if leafOk s tag (levelOfBits t.2.2.1) t.2.2.2.toNat va write then leafRes s (levelOfBits t.2.2.1) t.2.2.2.toNat va else .trans none) := by
  unfold translate
  rw [if_neg (by omega), if_neg (by omega), if_neg (by omega), hf]

/-- Memory lists nothing at reset. -/
theorem memory_wf_reset : Memory.wf State.reset.dev.ms = true := rfl

end Sys2Proof.Machine
end

