-- ==== Sys2Proof/Laws/Ops.lean ====
section
/-! SUPPORT. Sys2Proof/Laws/Ops.lean: what the shared operations do, one lemma each: a set-up write that is taken, one that is not, an
instruction that issues, and one that may not. -/

namespace Sys2Proof.Machine

open Sys2Proof

/-- A command over the device answers a next state: the device its effect gives, with the queue and the flash as they were. -/
theorem upd_next (s : State) (f : Dev → Dev) : upd s f = .next { s with dev := f s.dev } := rfl

/-- A command that makes coherent requests answers what its effect gives, or the state itself where a home refuses one. -/
theorem completesM {c : Instr} {s : State} {f : Dev → Dev} {d : Dev} (he : ∀ b, exec c (marked s b) = updM (marked s b) f) (hf : f s.dev = d) :
    CompletesM c s d := by
  intro hb b
  have h : { s.dev with ms := { s.dev.ms with blocked := false } } = s.dev := by rw [← hb]
  constructor
  · intro hd
    rw [he, updM, upd_next]
    simp only [h, hf, retried, hd, Bool.false_eq_true, if_false]
  · intro hd
    rw [he, updM, upd_next]
    simp only [marked, h, hf, retried, hd, if_true]

/-- A command under whose storage nothing shows is the command alone. -/
@[simp] theorem withFlaw_none (op : Dev → Dev) (s : Dev) : withFlaw .none op s = op s := by rfl

/-- A fabric step whose storage shows nothing is the step alone. -/
@[simp] theorem meetFab_none (cl : Nat) (s : Dev) : meetFab cl none s = s := by rfl

/-- The steps of a fabric whose storage shows nothing. -/
theorem frunStart_none (cl : Fin 192) (s : State) : exec (.frunStart cl none) s = .next { s with dev := doFrunStart cl s.dev } := rfl
theorem fabricBeat_none (cl : Fin 192) (port : Fin 8) (s : State) : exec (.fabricBeat cl port none) s = .next { s with dev := doFabricBeat cl port s.dev } := rfl
theorem runEnd_none (cl : Fin 192) (s : State) : exec (.runEnd cl none) s = .next { s with dev := doRunEnd cl s.dev } := rfl

theorem dropHeld_none {s : Dev} {port : Nat} (h : (getPort s port).held = none) : dropHeld s port = s := by
  simp only [dropHeld, h]

/-- A set-up write that reaches its register has its effect and no other. -/
theorem setupWr_taken {s : Dev} {port off : Nat} (data : Word) (eff : Dev → Dev) (h : SetupTaken s port off) :
    setupWr port off data eff s = eff s := by
  obtain ⟨h1, h2, h3, h4, h5, h6, h7⟩ := h
  simp [setupWr, h1, dropHeld_none h2, setupArrives, h3, h4, h5, setupApply, h6, h7]

/-- R459: a set-up write of a port without the lease is dropped and counted. -/
theorem setupWr_dropped {s : Dev} {port off : Nat} (data : Word) (eff : Dev → Dev) (h1 : bar0Open s port = true)
    (h2 : (getPort s port).held = none) (h3 : regAt s off = true) (h4 : holdsLease s port = false) :
    setupWr port off data eff s = dropWrite s port off := by
  simp [setupWr, h1, dropHeld_none h2, setupArrives, h3, h4]

/-- A port whose BAR0 does not answer takes no set-up write. -/
theorem setupWr_closed {s : Dev} {port : Nat} (off : Nat) (data : Word) (eff : Dev → Dev) (h : bar0Open s port = false) :
    setupWr port off data eff s = s := by
  simp [setupWr, h]

/-- The group of an instruction that may issue is its slot's. -/
theorem mayIssue_group {s : Dev} {iw : IWord} {g : Group} (h : mayIssue s iw = some g) : getGroup s iw.core iw.slot = some g := by
  unfold mayIssue at h
  split at h
  · cases h
  · split at h
    · cases h
    · rename_i g' hg
      split at h
      · cases h
      · split at h
        · cases h
        · split at h
          · cases h
          · rw [hg, h]

/-- An instruction that issues has its effect and is counted. -/
theorem issue_runs {s : Dev} {iw : IWord} {vs ss : List Nat} {g : Group} (code : Nat) (f : Dev → Group → Dev) (h : Issues s iw vs ss g) :
    issue s iw code vs ss f = countIssue (f s g) iw code g := by
  obtain ⟨h1, h2, h3, h4, h5⟩ := h
  simp [issue, meetSram, h1, h2, h3, h4, h5, mayIssue_group h1]

/-- Counting in a register block leaves every other register. -/
theorem countSel_reg (s : Dev) {sel ctr off : Nat} (code n : Nat) (h : off < ctr ∨ ctr + 64 ≤ off) : reg (countSel s sel ctr code n) off = reg s off := by
  have k : ∀ (f : Nat → Word → Word) (v : Word) (l : List Nat) (s : Dev), (∀ i ∈ l, i < 8) →
      reg (l.foldl (fun s i => if fld v (8 * i + 7) (8 * i) = code then setReg s (ctr + 8 * i) (f i (reg s (ctr + 8 * i))) else s) s) off = reg s off := by
    intro f v l
    induction l with
    | nil => intro s _; rfl
    | cons a l ih =>
      intro s hl
      have ha := hl a (by simp)
      rw [List.foldl_cons, ih _ (fun i hi => hl i (by simp [hi]))]
      split
      · exact tabGet_tabSet_other _ _ _ (by omega)
      · rfl
  unfold countSel
  dsimp only
  split
  · rfl
  · exact k (fun _ w => w + BitVec.ofNat 64 n) (reg s sel) (List.range 8) s (fun i hi => List.mem_range.mp hi)

/-- Counting in a hub's counters leaves every register but those counters. -/
theorem countHub_reg (s : Dev) {hub off : Nat} (code n : Nat) (h : off < offOBS_HUB_CTR hub 0 ∨ offOBS_HUB_CTR hub 0 + 512 ≤ off) :
    reg (countHub s hub code n) off = reg s off := by
  have k : ∀ (l : List Nat) (s : Dev), (∀ i ∈ l, i < 8) →
      reg (l.foldl (fun s w => countSel s (offOBS_HUB_SEL hub w) (offOBS_HUB_CTR hub (8 * w)) code n) s) off = reg s off := by
    intro l
    induction l with
    | nil => intro s _; rfl
    | cons a l ih =>
      intro s hl
      have ha := hl a (by simp)
      rw [List.foldl_cons, ih _ (fun i hi => hl i (by simp [hi]))]
      refine countSel_reg s code n ?_
      simp only [offOBS_HUB_CTR] at h ⊢
      omega
  exact k (List.range 8) s (fun i hi => List.mem_range.mp hi)

/-- An instruction that may not issue leaves the device as it is. -/
theorem issue_waits {s : Dev} {iw : IWord} (code : Nat) (vs ss : List Nat) (f : Dev → Group → Dev) (h : mayIssue s iw = none) :
    issue s iw code vs ss f = s := by
  simp [issue, h]

end Sys2Proof.Machine
end

