-- ==== Sys2Proof/Machine/Connectors.lean ====
section
/-! DEFINITION. Sys2Proof/Machine/Connectors.lean: the pins of the module's connectors as data (R739, R769 to R771, R774, R775, R778,
R779). Rows A to H are numbered 0 to 7, columns from 1. -/

namespace Sys2Proof.Machine

/-- The parts on the rear edge. -/
inductive RearPart where
  | j1 | j2 | j3 | j4 | inlet | outlet
deriving DecidableEq, Repr

/-- R769: what lies at a position of the rear edge, 1 to 6 from the left, on the upper or the lower level. -/
def rearEdge (upper : Bool) (pos : Nat) : Option RearPart :=
  match upper, pos with
  | true, 1 => some .inlet
  | true, 6 => some .outlet
  | false, 1 => some .j1
  | false, 2 => some .j2
  | false, 4 => some .j3
  | false, 6 => some .j4
  | _, _ => none

/-- R770: columns of a connector; each has 8 rows. -/
def connColumns : RearPart → Nat
  | .j1 => 4
  | .j2 => 98
  | .j3 => 96
  | .j4 => 4
  | _ => 0

/-- A pin of a connector: supply and ground, a lane's halves, or a signal by its name in the manual. -/
inductive Pin where
  | vin | rtn | gnd | sbGnd | res
  | txP | txN | rxP | rxN
  | vinSense | rtnSense | pwrOkN | prsntN | chassis
  | refclkP | refclkN | perstAN | perstBN | fperstN (f : Nat) | fprsntN (f : Nat)
  | i3cScl | i3cSda | syncIo | stopIo | faultN | alertN | serviceN | pwrBrakeN | leakN | modId (i : Nat)
  | tck | tms | tdi | tdo | trstN
deriving DecidableEq, Repr

/-- R771: a pin of J1. -/
def j1Pin (row col : Nat) : Option Pin :=
  if 8 ≤ row ∨ col < 1 ∨ 4 < col then none
  else if row < 3 then some .vin
  else if row < 6 then some .rtn
  else if row = 6 then [.vinSense, .rtnSense, .pwrOkN, .prsntN][col - 1]?
  else [.res, .res, .res, .chassis][col - 1]?

/-- R774, R778: a pin of a lane column of J2 and J3. -/
def lanePin (row : Nat) : Option Pin := [Pin.gnd, .txP, .txN, .gnd, .gnd, .rxP, .rxN, .gnd][row]?

/-- R775: a pin of columns 97 and 98 of J2. -/
def j2Control (row col : Nat) : Option Pin :=
  if col = 97 then [Pin.gnd, .refclkP, .refclkN, .gnd, .perstAN, .perstBN, .res, .gnd][row]?
  else if col = 98 then [Pin.fperstN 0, .fperstN 1, .fperstN 2, .fperstN 3, .fprsntN 0, .fprsntN 1, .fprsntN 2, .fprsntN 3][row]?
  else none

/-- R774, R775: a pin of J2. -/
def j2Pin (row col : Nat) : Option Pin := if 1 ≤ col ∧ col ≤ 96 then lanePin row else j2Control row col

/-- R774: the link of a lane column of J2, 0 and 1 the host ports A and B, 2 to 5 the far ports F0 to F3; its hub, HN 0 and HO 1; and the
lane. -/
def j2Lane (col : Nat) : Option (Nat × Nat × Nat) :=
  if 1 ≤ col ∧ col ≤ 96 then
    let l := (col - 1) / 16
    some (l, if l = 1 ∨ 4 ≤ l then 1 else 0, (col - 1) % 16)
  else none

/-- R778: a pin of J3. -/
def j3Pin (row col : Nat) : Option Pin := if 1 ≤ col ∧ col ≤ 96 then lanePin row else none

/-- R739, R778: the scale-out lane of a column of J3, its group, and its port in a mode of the group. -/
def j3Lane (col mode : Nat) : Option (Nat × Nat × Nat) :=
  if 1 ≤ col ∧ col ≤ 96 ∧ 1 ≤ mode ∧ mode ≤ 3 then
    let l := col - 1
    let k := if mode = 1 then 0 else if mode = 2 then l % 8 / 4 * 2 else l % 8 / 2
    some (l, l / 8, 4 * (l / 8) + k)
  else none

/-- R779: a pin of J4. -/
def j4Pin (row col : Nat) : Option Pin :=
  let grid : List (List Pin) :=
    [[.i3cScl, .i3cSda, .sbGnd, .sbGnd], [.syncIo, .sbGnd, .stopIo, .sbGnd], [.faultN, .alertN, .serviceN, .sbGnd],
      [.pwrBrakeN, .leakN, .sbGnd, .res], [.modId 0, .modId 1, .modId 2, .modId 3], [.modId 4, .sbGnd, .res, .res],
      [.tck, .tms, .tdi, .tdo], [.trstN, .sbGnd, .res, .res]]
  if col = 0 then none else (grid[row]?).bind (fun r => r[col - 1]?)

end Sys2Proof.Machine
end

