-- ==== Sys2Proof/WellFormed.lean ====
section
/-! DEFINITION. Sys2Proof/WellFormed.lean: which commands can reach the module at all. A meaning does not rest on this: it is total. -/

namespace Sys2Proof

/-- R742: a packet's payload has at most 4,096 bytes. -/
def packetOk (p : Packet) : Bool := decide (p.payload.length ≤ 4096)

/-- A command whose operands have a length that the spec's frames, reads and transfers can carry: a Tandem payload of at most 4,096
bytes (R742), a BAR4 request of 1 to 4,096 bytes, a descriptor read of 1 to 8 entries (R471), a BAR0 or BAR2 access of at least one
byte, firmware data of at least one byte (R731). -/
def Instr.wellFormed (i : Instr) : Bool :=
  match i with
  | .setupWrite _ _ _ _ => true
  | .bar0AccessError _ _ len _ => decide (0 < len.val)
  | .lowerHalfExpiry _ => true
  | .claim _ _ _ => true
  | .release _ => true
  | .leaseExpiry => true
  | .doorbell _ _ _ _ len _ => decide (0 < len.val)
  | .ringFetch _ _ _ => true
  | .descriptorArrival _ _ descs => decide (1 ≤ descs.length) && decide (descs.length ≤ 8)
  | .fetchFailure _ _ => true
  | .dispatch _ => true
  | .blockPlacement _ => true
  | .kernel _ => true
  | .copy _ _ => true
  | .fill _ _ => true
  | .reduce _ _ => true
  | .gather _ _ => true
  | .prefetch _ _ => true
  | .signal _ => true
  | .wait _ => true
  | .waitReread _ => true
  | .fence _ => true
  | .mark _ => true
  | .modelSwitch _ => true
  | .commandTimeout _ => true
  | .modUsExpiry _ _ => true
  | .recordWriteFailure _ _ => true
  | .dlDown _ => true
  | .sqEnable _ _ _ _ => true
  | .sqDisable _ _ _ _ => true
  | .cqEnable _ _ _ _ => true
  | .cqDisable _ _ _ _ => true
  | .channelReset _ _ => true
  | .bar4Write _ _ data _ => decide (1 ≤ data.length) && decide (data.length ≤ 4096)
  | .bar4Read _ _ len _ => decide (1 ≤ len) && decide (len ≤ 4096)
  | .start _ _ => true
  | .hobble _ _ _ _ => true
  | .hobbleForceAbort _ => true
  | .sliceReset _ _ => true
  | .remove _ _ => true
  | .tlbFlush _ _ => true
  | .regionLeave _ _ _ => true
  | .pageGroom _ _ => true
  | .pageGroomDone => true
  | .quantumExpiry _ => true
  | .preemptGraceExpiry _ => true
  | .cyclicEnable _ _ _ => true
  | .frameStart _ => true
  | .windowLead _ => true
  | .windowOpen _ => true
  | .windowClose _ => true
  | .dlogSync _ _ _ => true
  | .dlogStageWrite _ _ _ => true
  | .nop _ => true
  | .bra _ => true
  | .split _ => true
  | .join _ => true
  | .loop _ => true
  | .breakI _ => true
  | .exit _ => true
  | .tokenWait _ => true
  | .trap _ => true
  | .salu _ => true
  | .scmp _ => true
  | .salui _ => true
  | .scmpi _ => true
  | .mov _ => true
  | .movi _ => true
  | .movhi _ => true
  | .movsr _ => true
  | .p2s _ => true
  | .vread _ => true
  | .valu _ => true
  | .valu64 _ => true
  | .valui _ => true
  | .falu _ => true
  | .falui _ => true
  | .dalu _ => true
  | .halu _ => true
  | .cvt _ => true
  | .cvtd _ => true
  | .cvt2d _ => true
  | .fcmp _ => true
  | .icmp _ => true
  | .dcmp _ => true
  | .sel _ => true
  | .plog _ => true
  | .shfl _ => true
  | .bcast _ => true
  | .vote _ => true
  | .ld _ => true
  | .st _ => true
  | .lds _ => true
  | .sts _ => true
  | .ldl _ => true
  | .stl _ => true
  | .atom _ => true
  | .ldr _ => true
  | .stc _ => true
  | .fenceL _ => true
  | .fenceS _ => true
  | .fenceLs _ => true
  | .bar _ => true
  | .barrierComplete _ _ => true
  | .barrierWatchdog _ _ => true
  | .loadResponse _ _ => true
  | .sbSend _ => true
  | .sbOpenExpiry _ _ => true
  | .sbAck _ _ => true
  | .mma _ => true
  | .aload _ => true
  | .drain _ => true
  | .matrixLaneStart _ => true
  | .mmaComplete _ => true
  | .aloadComplete _ => true
  | .drainComplete _ => true
  | .dma _ => true
  | .dmaOpComplete _ => true
  | .fload _ => true
  | .floadValidated _ => true
  | .fswap _ => true
  | .fswapEffect _ => true
  | .frun _ => true
  | .frunStart _ _ => true
  | .fabricBeat _ _ _ => true
  | .runEnd _ _ => true
  | .homeRead _ _ _ => true
  | .homeWrite _ _ _ => true
  | .missFill _ _ _ => true
  | .flush _ _ _ => true
  | .invalidate _ _ _ => true
  | .flushInv _ _ _ => true
  | .rangeDone => true
  | .homeAtomic _ _ _ => true
  | .adderOperation _ _ _ => true
  | .adderFlushExpiry _ => true
  | .orderedReduction _ => true
  | .oredArm _ _ _ => true
  | .heartbeatExpiry _ => true
  | .modeWrite _ _ => true
  | .farWriteTimeout _ => true
  | .hostCreditTimeout _ => true
  | .scrubRead _ _ => true
  | .recover _ _ => true
  | .farRetrainDone _ _ => true
  | .unlatch _ _ => true
  | .devloadExpiry _ => true
  | .load _ _ => true
  | .inject _ _ _ => true
  | .stackLoss _ => true
  | .linkTraining _ _ => true
  | .laneRepair _ _ _ _ _ _ => true
  | .retrain _ _ _ _ => true
  | .bayAdmission _ _ => true
  | .bayReset _ _ _ => true
  | .bind _ _ _ => true
  | .bayRequest _ _ => true
  | .bayOverPower _ => true
  | .scanOut _ _ => true
  | .reinTick _ => true
  | .reinMissed => true
  | .curb _ _ => true
  | .curbRelease _ _ => true
  | .brake => true
  | .brakeRelease => true
  | .thermalTrip _ _ => true
  | .leak => true
  | .inputShutdown _ => true
  | .energySettle _ => true
  | .ageingTest _ _ _ => true
  | .droop _ _ => true
  | .droopRelease _ => true
  | .clockGate _ => true
  | .powerGate _ => true
  | .selfRefresh _ => true
  | .clusterWake _ => true
  | .regionWake _ => true
  | .dieWake _ => true
  | .budgetWrite _ _ => true
  | .rampWrite _ _ => true
  | .refclkLoss => true
  | .refclkValid => true
  | .stand _ => true
  | .primaryArbitration _ => true
  | .perstAssert _ => true
  | .perstRelease _ => true
  | .regionSelftestDone _ _ => true
  | .halterCutoff => true
  | .saddle _ => true
  | .saddleTimeout => true
  | .deviceReset _ => true
  | .getInfo => true
  | .selftest => true
  | .selftestResult => true
  | .stageLog => true
  | .fwQuery => true
  | .fwBegin => true
  | .fwWrite => true
  | .fwVerify => true
  | .fwActivate => true
  | .fwCommit => true
  | .fwAbort => true
  | .mailboxResponse => true
  | .updateIdleExpiry => true
  | .trialBootFailure => true
  | .railFailure _ => true
  | .eventRingEnable _ _ _ => true
  | .eventRingHead _ _ _ => true
  | .snapshot => true
  | .counterSample => true
  | .traceBufferEnable _ _ _ => true
  | .tsyncStep _ _ => true
  | .syncEdge _ => true
  | .holdoverExpiry => true
  | .timeRequest => true
  | .whoaStop _ => true
  | .stopIo => true
  | .resume _ => true
  | .dumpGo _ _ _ => true
  | .channelWatchdog _ => true
  | .dumpFrozen _ => true
  | .resumeHeld _ _ _ => true
  | .abortHeld _ _ _ => true
  | .debugToken _ _ _ => true
  | .debugDisable => true
  | .getTid => true
  | .getPldmVersion _ => true
  | .getPldmTypes => true
  | .getPldmCommands _ => true
  | .getSensorReading _ => true
  | .getStateSensorReadings _ => true
  | .setNumericEffecterValue _ _ => true
  | .setStateEffecterStates _ _ => true
  | .activateFirmware _ => true
  | .getVersion => true
  | .getCapabilities => true
  | .negotiateAlgorithms _ _ _ _ => true
  | .getDigests => true
  | .getCertificate _ => true
  | .challenge _ => true
  | .getMeasurements _ => true
  | .keyExchange => true
  | .finish _ => true
  | .heartbeat _ => true
  | .keyUpdate _ => true
  | .endSession _ => true
  | .getDeviceInterfaceReport _ _ => true
  | .ideKm _ _ _ => true
  | .soEnable _ _ => true
  | .write _ p => packetOk p
  | .readReq _ p => packetOk p
  | .readRsp _ p => packetOk p
  | .tandemReduce _ p => packetOk p
  | .ack _ p => packetOk p
  | .nak _ p => packetOk p
  | .cnp _ p => packetOk p
  | .time _ p => packetOk p
  | .flowReset _ p => packetOk p
  | .resendTimeout _ _ _ _ => true
  | .rateIncrease _ _ _ => true
  | .portDown _ => true
  | .portUp _ => true
  | .flowFailExpiry _ _ _ => true
  | .peerReset _ _ => true
  | .dlUp _ => true
  | .farLinkDown _ => true
  | .cxlEventRecord _ _ _ => true
  | .peerAckTimeout _ _ _ => true
  | .flowContextFree _ _ _ => true
  | .refclkRestart => true
  | .managementPlaneRestart _ => true
  | .stackTraining _ => true
  | .nearTierZeroing => true
  | .farPortEnumeration _ _ => true
  | .hostCompletionTimeout _ => true
  | .atsInvalidation _ _ _ _ => true
  | .pageRequestResponse _ _ _ _ => true
  | .configurationWrite _ _ => true
  | .msixVectorUnmask _ _ _ => true
  | .stopIoRelease => true
  | .frameOutPulseEnd => true
  | .platformEventAck => true
  | .setEventReceiver _ => true
  | .setEndpointId _ => true
  | .dynamicAddressAssignment _ _ => true
  | .debugNonce _ => true
  | .lockInterface _ _ => true
  | .startInterface _ _ => true
  | .stopInterface _ _ => true
  | .requestUpdate _ => true
  | .updateComponent _ _ => true
  | .firmwareData _ data => decide (1 ≤ data.length)
  | .cancelUpdate => true

end Sys2Proof
end

