-- ==== Sys2Proof/Tests/Slice0.lean ====
section
/-! SUPPORT. Sys2Proof/Tests/Slice0.lean: tests. Ill-formed commands are refused; the worked examples of the spec; and, for every statement of
Certificates/Slice0/Obligations.lean, states that meet the hypotheses of each of its clauses. -/

namespace Sys2Proof.Tests

open Sys2Proof Sys2Proof.Machine

set_option Elab.async false

/-! ## Ill-formed commands -/

/-- R742: a payload of 4,097 bytes. -/
def longPacket : Packet :=
  { op := 1, ver := 1, res := false, tc := 0, masked := false, poison := false, dt := 0, src := 0, dst := 0, eng := 0, psn := 0, ack := 0, addr := 0,
    len := 0xFFF, tag := 0, ce := false, payload := List.replicate 4097 0 }
theorem test_long_packet_refused : (Instr.write 0 longPacket).wellFormed = false ∧ (Instr.write 0 { longPacket with payload := List.replicate 4096 0 }).wellFormed = true := by decide +kernel

/-- R285, R357: a BAR4 access carries at least one byte and at most 4,096. -/
theorem test_bar4_length_refused : (Instr.bar4Write 0 0 []).wellFormed = false ∧ (Instr.bar4Write 0 0 (List.replicate 4097 0)).wellFormed = false
    ∧ (Instr.bar4Read 0 0 0).wellFormed = false ∧ (Instr.bar4Read 0 0 4097).wellFormed = false ∧ (Instr.bar4Read 0 0 4096).wellFormed = true := by decide +kernel

/-- R471: a descriptor read carries one to eight descriptors. -/
theorem test_descriptor_count_refused : (Instr.descriptorArrival 0 0 []).wellFormed = false ∧ (Instr.descriptorArrival 0 0 (List.replicate 9 0)).wellFormed = false
    ∧ (Instr.descriptorArrival 0 0 (List.replicate 8 0)).wellFormed = true := by decide +kernel

/-- A BAR0 or BAR2 access and firmware data carry at least one byte. -/
theorem test_empty_access_refused : (Instr.bar0AccessError 0 0 0 true).wellFormed = false ∧ (Instr.doorbell 0 none 0 0 0 0).wellFormed = false
    ∧ (Instr.firmwareData 0 []).wellFormed = false := by decide +kernel

/-! ## Worked examples of the spec -/

/-- 01_organization: core 647 is in region 26; the scratchpad of cluster 161 appears at 0x0400_5080_0000. -/
theorem test_core_647 : coreRegion 647 = 26 ∧ placeOf Dev.init 0x040050800000 = .spad 161 0 := by decide +kernel

/-- The BF16 products of 02_number_formats: 1.5 * 2^-14 times 2^-13, n times. -/
def smallPairs (n : Nat) : List (FVal × FVal) := List.replicate n (decodeVal .bf16 0x38C0, decodeVal .bf16 0x3900)

/-- 02_number_formats: with 1.0 in the window the 31 products are truncated away. -/
theorem test_chunk_window : fpChunk 0 ((decodeVal .bf16 0x3F80, decodeVal .bf16 0x3F80) :: smallPairs 31) 0 = (0x3F800000, 0) := by decide +kernel

/-- 02_number_formats: in a chunk of their own they count, and the next chunk gives 0x3F80_0003. -/
theorem test_chunk_placement : fpChunk (fpChunk 0 (smallPairs 31) 0).1 [(decodeVal .bf16 0x3F80, decodeVal .bf16 0x3F80)] 0 = (0x3F800003, 0) := by decide +kernel

/-- 02_number_formats: the two-term FP32 product under each PASS. -/
theorem test_passes : [1, 2, 3].map (fun p => (fpChunk 0 [(decodeVal .fp32 0x3F800008, decodeVal .fp32 0x3F800008), (decodeVal .fp32 0xBF800000, decodeVal .fp32 0x3F800010)] p).1)
    = [0, 0, 0x2B800000] := by decide +kernel

/-- 02_number_formats: 9.75 to E4M3: 10 by RNE, 9 by RTZ, and stochastically 10 from R = 0x4000_0000 on; no flag. -/
theorem test_drain_rounding : convertBits .fp32 .e4m3 .rne false 0 0x411C0000 = (0x52, 0) ∧ convertBits .fp32 .e4m3 .rtz false 0 0x411C0000 = (0x51, 0)
    ∧ convertBits .fp32 .e4m3 .sr false 0x40000000 0x411C0000 = (0x52, 0) ∧ convertBits .fp32 .e4m3 .sr false 0x3FFFFFFF 0x411C0000 = (0x51, 0) := by decide +kernel

/-- 07_unified_cache: the home of 0x0065_3C7A_4A00 under LOCAL, HALF and DEVICE, and its set; 09_memory_tiers: its stack, pseudo-channel,
bank, row and first column. -/
theorem test_home_hash : homeNominal 0x653C7A4A00 0 = (3, 3, 0x653C7A4A00) ∧ homeNominal 0x653C7A4A00 1 = (2, 3, 0x453C7A4A00)
    ∧ homeNominal 0x653C7A4A00 2 = (6, 3, 0xC53C7A4A00) ∧ setIdx 0x653C7A4A00 = 954 ∧ (homeNominal 0x653C7A4200 1).1 = 3 := by decide +kernel

theorem test_near_place : nearPlace 0x653C7A4A00 = (6, 60, 10, 0x29E3, 512) ∧ stackOf 0x453C7A4A00 = 4 ∧ stackOf 0xC53C7A4A00 = 12 ∧ pseudoChannel 0x653C7A4A00 = 60 := by decide +kernel

/-- 18_scale_out: offset 0x2_4000_0000 of module 1,234's window. -/
theorem test_peer_window : peerMod 0x585040000000 = 1234 ∧ peerOff 0x585040000000 = 0x240000000 := by decide +kernel


/-! ## The states -/

/-- A Saddled module with both host ports up, whose port A holds the lease: OWNER 1, STACK_OK and DIES_OK all set, STAGE 2. -/
def up : Dev :=
  let p : HostPort := { HostPort.init with up := true, inReset := false }
  { Dev.init with ports := [(0, p), (1, p)], leaseEnd := 10 ^ 12, bridle := { Dev.init.bridle with up := true }, su := { Startup.init with powered := true, begun := true, standDone := true }, regs := [(0x10, 0x10000), (0x400008, 0xFFFF), (0xA00000, 0x400000FF00000000)] }

/-- A state over a device. -/
def at_ (d : Dev) : State := { State.reset with dev := d }

/-- Registers of channel 0 (owned, enabled), its submission ring 0 (64 entries, PASID 5, port A, ACTIVE) and completion ring 0. -/
def chanRegs : Tab Word :=
  [(0x100000, 0x08004E21), (0x100008, 0x0800000000000000), (0x101008, 0x0000510000000601), (0x101010, 0x4000000000000000), (0x102010, 0x000001000000000D), (0x102018, 0x4000000000000000)]

/-- Registers of slice 0: RUNNING, REGIONS 1, CHANNELS 1, PASID 5; and of region 0: IN_USE, HOLDERS 1. -/
def sliceRegs : Tab Word :=
  [(0x200000, 0x4000000000000000), (0x200010, 1), (0x200018, 1), (0x200040, 0x8000000000000005), (0x204100, 0x4000000000010000)]

/-- Their offsets. -/
theorem test_register_offsets :
    chanRegs.map (fun e => e.1) = [offCH_CFG 0, offCH_STATUS 0, offCH_SQ_CFG 0 0, offCH_SQ_STATE 0 0, offCH_CQ_CFG 0 0, offCH_CQ_STATE 0 0]
      ∧ sliceRegs.map (fun e => e.1) = [offSLC_CTL 0, offSLC_RGNS 0, offSLC_CHAN 0, offSLC_PASID 0 0, offSLC_RGN 0]
      ∧ up.regs.map (fun e => e.1) = [offID_SEM, offMT_STATUS, offSU_STATUS] := by decide +kernel

/-- Slice 0 runs on region 0 with channel 0, submission ring 0 and completion ring 0, on host port A; all 36 agents are members. -/
def run : Dev :=
  { up with regs := [(0x10, 0x10000)] ++ chanRegs ++ sliceRegs ++ [(0x300010, 0x00003F0FFFFFFFFF), (0x400008, 0xFFFF), (0xA00000, 0x400000FF00000000)], ms := { up.ms with tlb := [(0, 0, 21, 7), (0, 0x40000000, 21, 0x040000000007)] } }

/-- A command of slice 0's channel. -/
def cmd (d : Block64) : Cmd :=
  { key := 7, chan := 0, ring := 0, index := 0, desc := d, tag := 0, cq := 0, tStart := 0, t0 := 0, deadline := none, phase := .dispatched, status := none,
    poisoned := false, flags := 0, nextBlock := 0, blocksDone := 0, lost := [], stopReq := none, saved := false,
    savedAt := 0, moved := false, energy := 0, window := none, late := false, tiles := [], cores := [] }

/-- The slice with one command in flight. -/
def sent1 (c : Cmd) : Dev := { run with cmds := [c], nextKey := 8 }

/-- A descriptor: its fields as words of 64 bits, the first lowest. -/
def desc (l : List Nat) : Block64 := BitVec.ofNat 512 (l.reverse.foldl (fun a x => a * 2 ^ 64 + x) 0)

/-- A word of an instruction for group slot 0 of core 0, always executed (p7): its fields as bit positions and values. -/
def ins (l : List (Nat × Nat)) : IWord :=
  { core := 0, slot := 0, hdr := 7, body := BitVec.ofNat 52 (l.foldl (fun a f => a + f.2 * 2 ^ (f.1 - 12)) 0), poison := false }

/-- A KERNEL of one block of one group, at 0x10000, with arguments at 0x20000. -/
def kernel : Cmd := { cmd (desc [1, 0, 0x10000, 0x20000, 0, 1]) with phase := .running, nextBlock := 1 }

/-- Its group, with lanes 0 and 1 active. -/
def grp : Group := { newGroup kernel 0 0 with act := 3, live := 3 }

/-- A group runs on core 0, in a block with 4 KiB of local memory. -/
def onCore (g : Group) : Dev :=
  setCore (sent1 kernel) 0 { Core.init with groups := [(0, some g)], blocks := [{ cmd := 7, index := 0, groups := 1, nv := 8, lmKiB := 4, lmBase := 0, slots := [0] }] }

/-! ## Words by the encoding of R168 to R170, most significant field first -/

/-- SR: SALU SUB, s3 := s1 - s2, under p7. -/
theorem test_decode_salu : decodeWord 0 0 false 0 (1#28 ++ 0#6 ++ 2#6 ++ 1#6 ++ 3#6 ++ 0#1 ++ 7#3 ++ 0x1#4 ++ 0x0#4) = .salu (ins [(12, 3), (18, 1), (24, 2), (36, 1)]) := by decide +kernel
/-- SI: SCMPI LT, s3 := s1 < -1. -/
theorem test_decode_scmpi : decodeWord 0 0 false 0 (0xFFFFFFFFF#36 ++ 2#4 ++ 1#6 ++ 3#6 ++ 0#1 ++ 7#3 ++ 0x1#4 ++ 0x9#4) = .scmpi (ins [(12, 3), (18, 1), (24, 2), (28, 0xFFFFFFFFF)]) := by decide +kernel
/-- VR: VALU MAD, v9 := v1 * v2 + v3; and CVT2D from FP32. -/
theorem test_decode_valu : decodeWord 0 0 false 0 (4#13 ++ 0#1 ++ 0#2 ++ 0#4 ++ 3#8 ++ 2#8 ++ 1#8 ++ 9#8 ++ 0#1 ++ 7#3 ++ 0x3#4 ++ 0x0#4) = .valu (ins [(12, 9), (20, 1), (28, 2), (36, 3), (51, 4)])
    ∧ decodeWord 0 0 false 0 (0#13 ++ 0#1 ++ 0#2 ++ 0#4 ++ 0#8 ++ 0#8 ++ 1#8 ++ 2#8 ++ 0#1 ++ 7#3 ++ 0x7#4 ++ 0x2#4) = .cvt2d (ins [(12, 2), (20, 1)]) := by decide +kernel
/-- VI: FALUI FMUL, v2 := v1 * 1.0. -/
theorem test_decode_falui : decodeWord 0 0 false 0 (0x3F800000#32 ++ 2#4 ++ 1#8 ++ 2#8 ++ 0#1 ++ 7#3 ++ 0x4#4 ++ 0x8#4) = .falui (ins [(12, 2), (20, 1), (28, 2), (32, 0x3F800000)]) := by decide +kernel
/-- MEM: LD of 32 bits at s4 + v1, to v2; LDL likewise. -/
theorem test_decode_load : decodeWord 0 0 false 0 (0#15 ++ 0#1 ++ 0#2 ++ 0#2 ++ 0#3 ++ 0#2 ++ 0#1 ++ 0#1 ++ 2#3 ++ 4#6 ++ 1#8 ++ 2#8 ++ 0#1 ++ 7#3 ++ 0xA#4 ++ 0x0#4) = .ld (ins [(12, 2), (20, 1), (28, 4), (34, 2)])
    ∧ decodeWord 0 0 false 0 (0#15 ++ 0#1 ++ 0#2 ++ 0#2 ++ 0#3 ++ 0#2 ++ 0#1 ++ 0#1 ++ 2#3 ++ 4#6 ++ 1#8 ++ 2#8 ++ 0#1 ++ 7#3 ++ 0xB#4 ++ 0x0#4) = .ldl (ins [(12, 2), (20, 1), (28, 4), (34, 2)]) := by decide +kernel
/-- ATM: STC of v3 at s4 + v1, result to v2. -/
theorem test_decode_stc : decodeWord 0 0 false 0 (0#8 ++ 3#8 ++ 0#1 ++ 0#3 ++ 0#2 ++ 0#3 ++ 0#4 ++ 0#1 ++ 4#6 ++ 1#8 ++ 2#8 ++ 0#1 ++ 7#3 ++ 0xC#4 ++ 0x2#4) = .stc (ins [(12, 2), (20, 1), (28, 4), (48, 3)]) := by decide +kernel
/-- SYN: FENCE of each KIND at scope 3, and of the reserved KIND 0; CTL: BRA to -1. -/
theorem test_decode_fence : decodeWord 0 0 false 0 (0#42 ++ 0#4 ++ 1#2 ++ 0#1 ++ 3#3 ++ 0#1 ++ 7#3 ++ 0xD#4 ++ 0x0#4) = .fenceL (ins [(12, 3), (16, 1)])
    ∧ decodeWord 0 0 false 0 (0#42 ++ 0#4 ++ 2#2 ++ 0#1 ++ 3#3 ++ 0#1 ++ 7#3 ++ 0xD#4 ++ 0x0#4) = .fenceS (ins [(12, 3), (16, 2)])
    ∧ decodeWord 0 0 false 0 (0#42 ++ 0#4 ++ 3#2 ++ 0#1 ++ 3#3 ++ 0#1 ++ 7#3 ++ 0xD#4 ++ 0x0#4) = .fenceLs (ins [(12, 3), (16, 3)])
    ∧ decodeWord 0 0 false 0 (0#42 ++ 0#4 ++ 0#2 ++ 0#1 ++ 3#3 ++ 0#1 ++ 7#3 ++ 0xD#4 ++ 0x0#4) = .fenceL (ins [(12, 3)])
    ∧ decodeWord 0 0 false 0 (0xFFFFFF#24 ++ 0#24 ++ 0#4 ++ 0#1 ++ 7#3 ++ 0x0#4 ++ 0x1#4) = .bra (ins [(40, 0xFFFFFF)]) := by decide +kernel
/-- ASY: MX with token 5, its control word in s6, descriptors in s8 and s10, for each operation of the control word; and FRUN. -/
theorem test_decode_async : (List.range 4).map (fun mx => decodeWord 0 0 false mx (0#30 ++ 5#4 ++ 10#6 ++ 8#6 ++ 6#6 ++ 0#1 ++ 7#3 ++ 0xE#4 ++ 0x0#4))
      = (let w := ins [(12, 6), (18, 8), (24, 10), (30, 5)]; [.mma w, .mma w, .aload w, .drain w])
    ∧ decodeWord 0 0 false 0 (0#30 ++ 5#4 ++ 10#6 ++ 8#6 ++ 6#6 ++ 0#1 ++ 7#3 ++ 0xE#4 ++ 0x4#4) = .frun (ins [(12, 6), (18, 8), (24, 10), (30, 5)]) := by decide +kernel
/-- R170: the opcodes of group 0xF and an OP that the map does not list are reserved. -/
theorem test_decode_reserved : decodeWord 0 0 false 0 (0#52 ++ 0#1 ++ 7#3 ++ 0xF#4 ++ 0x0#4) = .nop { ins [] with opcode := some 0xF0 }
    ∧ decodeWord 0 0 false 0 (0#52 ++ 0#1 ++ 7#3 ++ 0x1#4 ++ 0x2#4) = .nop { ins [] with opcode := some 0x12 } := by decide +kernel

/-- 13_power: an interval of the energy example, its regions 0 to 3 and the others as two: k is 1.06, and the run's share is 338 mJ before k. -/
def interval : EnergyMeas :=
  { ein := 2650000000, dyn := [1600000000], leak := [41000000, 279000000], sdyn := 240000000, hdyn := 60000000, sidle := 100000000, hidle := 80000000, u := 100000000, fill := 0,
    runs := [{ key := 7, dyn := [(0, 220000000)], res := [(0, 1000)], bS := 4500, bH := 12 }], bS := 30000, bH := 120, own := [4000000], vin := 5000, iin := 0, p10 := 0,
    temps := { regions := [], hubs := [], stackT := [] } }

theorem test_energy_example : settleK interval = (2650000000, 2500000000, false)
    ∧ interval.runs.map (fun j => runShare (sent1 kernel) interval j 0) = [338000000] := by decide +kernel

def sigCmd : Cmd := cmd (desc [8, 2 ^ 32, 0x100, 5])
def page : PageAttr := { home := 0, cache := 0, sharedRO := false, owner := 0 }
def sigEnd : Dev × LineData × BitVec 8 × WrRes := cohRmw (sent1 sigCmd) 0 0x100 page { kind := .op false, need := 16, mask := 255 * 2 ^ 0x100, poison := 0, thr := noThread, f := signalLine 1 0x100 5 }
def waitCmd : Cmd := cmd (desc [9, 0, 0x100, 5])
def waitEnd : Dev × AccRes := readPa (sent1 waitCmd) none 0 0x100 8 page
def fenceCmd : Cmd := cmd (desc [0x0A, 2 ^ 32, 0x200, 2])
theorem pair_eta {α β : Type} (p : α × β) : p = (p.1, p.2) := rfl
def copy : Cmd := cmd (desc [2, 0, 0, 0x1000, 63])
def copyOp : MvOp := (mvOp (sent1 copy) (.chan 7)).get (by decide +kernel)
def copyEnd : Dev × MvRes := inFlight copyOp.id (fun s => (markSources copyOp (((srcRuns copyOp.desc).zip (dstRuns copyOp.desc)).foldl (copyRun copyOp) (s, MvRes.start)).2.runs (((srcRuns copyOp.desc).zip (dstRuns copyOp.desc)).foldl (copyRun copyOp) (s, MvRes.start)).1, (((srcRuns copyOp.desc).zip (dstRuns copyOp.desc)).foldl (copyRun copyOp) (s, MvRes.start)).2)) (sent1 copy)
def fill : Cmd := cmd (desc [3, 0, 0xAB, 0x1000, 63])
def fillOp : MvOp := (mvOp (sent1 fill) (.chan 7)).get (by decide +kernel)
def fillEnd : Dev × MvRes := inFlight fillOp.id (fun s => (dstRuns fillOp.desc).foldl (fillRun fillOp) (s, MvRes.start)) (sent1 fill)
def reduce : Cmd := cmd (desc [4, 0, 0, 0x1000, 3])
def reduceOp : MvOp := (mvOp (sent1 reduce) (.chan 7)).get (by decide +kernel)
def reduceEnd : Dev × MvRes := inFlight reduceOp.id (fun s => (markSources reduceOp (((srcRuns reduceOp.desc).zip (dstRuns reduceOp.desc)).foldl (reduceRun reduceOp) (s, MvRes.start)).2.runs (((srcRuns reduceOp.desc).zip (dstRuns reduceOp.desc)).foldl (reduceRun reduceOp) (s, MvRes.start)).1, (((srcRuns reduceOp.desc).zip (dstRuns reduceOp.desc)).foldl (reduceRun reduceOp) (s, MvRes.start)).2)) (sent1 reduce)
def gather : Cmd := cmd (desc [5, 0, 0, 0x1000, 2 ^ 20, 2 ^ 48 + 0x2000, 4 * 2 ^ 16])
def gatherOp : MvOp := (mvOp (sent1 gather) (.chan 7)).get (by decide +kernel)
def gatherEnd : Dev × MvRes := inFlight gatherOp.id (fun s => (List.range (mvN1 gatherOp.desc)).foldl (gatherStep gatherOp) (s, MvRes.start)) (sent1 gather)
def prefetch : Cmd := cmd (desc [6, 0, 0, 0, 63])
def prefetchOp : MvOp := (mvOp (sent1 prefetch) (.chan 7)).get (by decide +kernel)
def prefetchEnd : Dev × MvRes := inFlight prefetchOp.id (fun s => ((runLines prefetchOp.desc (srcRuns prefetchOp.desc)).map (fun l => l * 512)).foldl (prefetchLine prefetchOp) (s, MvRes.start)) (sent1 prefetch)
def copyDma : DmaOp := { id := 9, core := 0, slot := 0, cmd := 7, tok := 1, desc := desc [2, 0, 0, 0x1000, 63], phase := .moved, poison := false }
def dmaGrp : Group := { grp with sr := [(8, 2), (11, 0x1000), (12, 63)] }
def ord : Nat → OrdOp := fun r => { id := 3, home := 0, pa := 0x1000, attr := page, rank := r, slice := 0, cmd := 7, op := 7, rop := 0, dt := 0, ops := [(0, 1)], poison := false }
def ordDev : Nat → Dev := fun r => modMs (setF (sent1 reduce) (fCD_SLICE_CFG_ORED_NM1 0) 1) (fun m => { m with ordSent := [ord r] })
def ordEnd : Dev × Nat := ordChain 2 0 64 1 (ordApply (modMs (ordDev 0) (fun m => { m with ordSent := [] })) (ord 0)) 1
def barWrite : Dev × WrRes := writeBytesVa (wakeWindow run 0x1000) none 0x10 0 0x1000 ([1, 2].map (fun b => (b, false)))
def barRead : Dev × AccRes := readBytesVa (wakeWindow run 0x1000) none 0x10 0x1000 8
def two : Dev := setF (setF (setF (sent1 { kernel with tag := 1, key := 8, nextBlock := 0 }) (fSLC_CTL_STATE 1) 2) (fSLC_RGNS_REGIONS 1) 1) (fSLC_RGN_HOLDERS 0) 3
def late : Cmd := { kernel with stopReq := some 5 }
def table : Nat → CycRun → Dev := fun kind r => let s := setF (setF (setF (setF run (fSLC_CYC_CFG_FRAME_US 0) 1000) (fSLC_CYC_CFG_EN 0) 1) (fSLC_CYC_E_KIND 0 0) kind) (fSLC_CYC_E_LEN_US 0 0) 10
  modCh s 0 (fun ch => { ch with cyc := r })
abbrev Runs (vs ss : IWord → List Nat) (op : Dev → Group → IWord → Option ArithRes) (iw : IWord) : Prop := Issues (onCore grp) iw (vs iw) (ss iw) grp ∧ (op (onCore grp) grp iw).isSome = true
def half : Group := { grp with p := [(0, 2)] }
def split : Group := { grp with act := 2, stack := [{ kind := .els, pc := 64, mask := 1 }] }
def loop : Group := { half with stack := [{ kind := .loop, pc := 64, mask := 3 }, { kind := .join, pc := 96, mask := 3 }] }
def lone : Group := { grp with act := 1, live := 1 }
def acc : LaneAcc := { lane := 0, va := 0x40, pa := 0x40, attr := page }
def stored : Dev × BitVec 32 := bufferLines (ins [(12, 1), (20, 2), (28, 5), (34, 2), (49, 64)]) 7 4 false [{ acc := acc, val := 0, poison := false }] [0] (onCore lone, 0)
def storedS : Dev × BitVec 32 := bufferLines (ins [(12, 1), (20, 255), (28, 5), (34, 3), (49, 64)]) 7 8 false [{ acc := acc, val := 0, poison := false }] [0] (onCore lone, 0)
def block : Block := { cmd := 7, index := 0, groups := 1, nv := 8, lmKiB := 4, lmBase := 0, slots := [0] }
def atomL : IWord := ins [(12, 1), (20, 2), (28, 5), (48, 3), (47, 1)]
def atomLEnd : Core × Group × Bool × ArithFlags := atomLanes (onCore lone) atomL lone block [{ lane := 0, va := 0, pa := 0, attr := page }]
def atBar : Group := { lone with hold := .barrier 0 15 0 false, pend := some (0, 15), arr := 1 }
def load : MemReq := { id := 9, instr := 9, slot := 0, cmd := 7, tag := 0, kind := .load, line := 8, va := 8, attr := page, sectors := 1, elems := [{ lane := 0, off := 0, opnd := 0, cmp := 0, poison := false }], vd := 1, size := 4, sext := false, scalar := false, aop := 0, dt := 0, acq := false, scope := 0, marked := false, fwdMask := 0, fwd := 0, fwdPoison := 0, l1alloc := 1, dead := false, served := false, data := 0, poison := 0, results := [], waiting := false, returned := false }
def asked : MemReq → Dev := fun r => modCore (onCore lone) 0 (fun c => { c with reqs := [r] })
def line8 : CacheLine := { agent := 0, line := 8, backing := 8, home := true, st := .hv, sv := 255, dm := 0, ps := 0, tag := 0, ret := 0, sharers := 0, owner := 0, pin := 0, used := 0, written := 0, data := 0 }
def hit : Dev := modMs (asked load) (fun m => { m with lines := [line8] })
def miss : Nat → MissEntry := fun id => { slice := 0, line := 8, backing := 8, sectors := 1, attr := page, tag := 0, ret := 0, reqs := [.core 0 id] }
def missed : Nat → Dev := fun id => modMs (asked load) (fun m => { m with misses := [miss id] })
def filling : Nat → Dev := fun id => modMs (missed id) (fun m => { m with resp := some (8, { load := 0, poison := 0 }) })
def reserving : Dev := modMs (asked { load with kind := .ldr }) (fun m => { m with lines := [line8] })
def reserved : Dev × AtomRes := atomServe cohRmw reserving 0 0 { load with kind := .ldr }
def adding : Dev := modMs (asked { load with kind := .atom, waiting := true }) (fun m => { m with adderQ := [{ home := 0, line := 8, core := 0, req := 9, n := 1 }] })
def addedTo : Dev := modMs (countDie adding 0 0x83 1) (fun m => { m with adderQ := [] })
def added : Dev × AtomRes := atomServe adderRmw addedTo 0 0 { load with kind := .atom, waiting := true }
def entry : SbEntry := { line := 8, data := 1, mask := 1, poison := 0, groups := 1, cmds := [7], tag := 0, st := .sealed, attr := page, since := 0, seq := 3, tso := false, writers := [(0, 0, 0)], rel := false, sentNo := 0, applied := false, peer := none }
def buffered : SbEntry → Dev := fun e => modCore (onCore lone) 0 (fun c => { c with sb := [e] })
def sent : SbEntry := { entry with st := .sent }
def one : Nat := 0x3F800000 * 2 ^ 32
def mmaGrp : Group := { lone with sr := [(8, 0x101), (10, 64 * 2 ^ 24), (11, BitVec.ofNat 64 one), (12, BitVec.ofNat 64 (64 * 2 ^ 24 + 4096)), (13, BitVec.ofNat 64 one)] }
def aloadGrp : Group := { lone with sr := [(8, 2), (10, 64 * 2 ^ 24), (11, BitVec.ofNat 64 one), (12, BitVec.ofNat 64 (64 * 2 ^ 24 + 4096)), (13, BitVec.ofNat 64 one)] }
def drainGrp : Group := { lone with sr := [(8, 3), (10, 64 * 2 ^ 24), (11, BitVec.ofNat 64 one), (12, BitVec.ofNat 64 (64 * 2 ^ 24 + 4096)), (13, BitVec.ofNat 64 one)] }
def mx : Word → MxOp := fun ctrl => { id := 9, slot := 0, cmd := 7, tok := 1, ctrl := ctrl, a0 := 64 * 2 ^ 24, a1 := BitVec.ofNat 64 one, b0 := 64 * 2 ^ 24 + 4096, b1 := BitVec.ofNat 64 one, origin := 0, reuseA := false, reuseB := false, dataA := 0x3F800000, dataB := 0x40000000, pzA := false, pzB := false, staleA := false, staleB := false, opPoison := false }
def drainIn : Nat := 2 ^ 48 + 2 ^ (8 * 0x105)
def imageBytes : List (Nat × Byte) := [(0x0, 0x56), (0x1, 0x46), (0x2, 0x46), (0x3, 0x31), (0x4, 0x1), (0x6, 0x1), (0x9, 0x29), (0x10, 0x53), (0x11, 0x9E), (0x12, 0x14), (0x13, 0xC0), (0x100, 0x1), (0x128, 0x1)]
def image : Nat := imageBytes.foldl (fun a e => a + e.2.toNat * 2 ^ (8 * e.1)) 0
def fabGrp : Group := { lone with sr := [(10, 0x10000)] }
def fab : FabKind → Word → FabOp := fun k a => { id := 9, core := 0, slot := 0, cmd := 7, tok := 1, kind := k, arg0 := a, arg1 := 0, origin := 0, poison := false, loaded := true }
def fabQ : List FabOp → Option FabRun → Nat → Dev := fun q r img => modCl (onCore lone) 0 (fun c => { c with fabQ := q, run := r, ctxA := { image := img, valid := true } })
def fabRun : Nat → Option Nat → FabRun := fun _ t => { op := fab .frun 0, ptab := [(0, 0)], entry := 0, iter := 0, tail := t, pes := [], xl := [], ins := [], outs := [] }
def beatImage : Nat := image + 2 ^ (8 * 0x104)
def beat : Beat × ArithFlags := spadBeat (fabQ [] (some (fabRun 0 none)) beatImage) 0 0 0 0
def drainImage : Nat := beatImage + 2 ^ (8 * 0x105)
def drained : Beat := { op := 0, cmd := 7, outer := 0, inner := 0, count := 1, last := false, poison := false, words := List.replicate 16 0, lanePoison := List.replicate 16 false }
def adder : AdderSector := { ctl := 0, sector := 64, data := 5, poison := false, last := 0, stamp := 0 }
def far : Nat → Dev := setF up (fMT_FAR_CAP_STATE 0)
def back : Dev × List (Word × Word) := let d := writeReg up offMT_BACK_CTL 0x10001
  readBack (64 * getF d fMT_BACK_BASE_BASE) (getF d fMT_BACK_CTL_ENTRIES) d
def begun : Dev := { Dev.init with su := { Startup.init with powered := true, standDone := true, begun := true } }
def linked : Dev := setF (setF (setF up (fDL_LINK_STATE 3) 2) (fDL_LINK_MODULES 3) 0xFF) (fDL_LINK_RATE 3) 5
def stand : Dev := { Dev.init with su := { Startup.init with powered := true } }
def dumpable : Dev := setF (setF run (fOBS_DUMP_LEN_DUMP_LEN 0) 4096) (fOBS_DUMP_BASE_PORT 0) 1
def meas : TickMeas := { pin := 500000, meters := [], settings := [], bare := 500000, reach := 600000, ratios := [], temps := { regions := [], hubs := [], stackT := [] } }
def ticked : Dev := let t := setTemps (setF up fPW_STATUS_REIN_UP 1) meas.temps; { t with pw := { t.pw with missedClamp := false, ratios := meas.ratios.map (fun e => (e.1.val, e.2.val)) } }
def granted : Dev × List Nat := allotments ticked meas (((nextBeff ticked : Int) - ((meas.pin.toNat : Int) - ((meas.meters.map (fun w => w.toNat)).sum : Nat)) - (ticked.pw.hist.foldl (fun (x : Int) h => x + h.1 - h.2) 0) / 200).toNat)
def energy : EnergyMeas := { ein := 1000, dyn := [], leak := [], sdyn := 0, hdyn := 0, sidle := 0, hidle := 0, u := 0, fill := 0, runs := [], bS := 0, bH := 0, own := [], vin := 5000, iin := 100, p10 := 50, temps := { regions := [], hubs := [], stackT := [] } }
def settled : Nat × Nat × Bool := settleK energy
def measured : Dev := let t := setTemps up energy.temps; setF (setF (setF t fPW_INPUT_VIN energy.vin.toNat) fPW_INPUT_IIN energy.iin.toNat) fPW_INPUT_P10_W energy.p10.toNat
def idled : Dev × Nat := (List.range 16).foldl (fun (a : Dev × Nat) n => (if idleShare a.1 energy n * settled.1 / settled.2.1 = 0 then a.1 else creditIdle a.1 n (idleShare a.1 energy n * settled.1 / settled.2.1), a.2 + idleShare a.1 energy n * settled.1 / settled.2.1)) (measured, 0)
def released : Dev := setF { stand with su := { stand.su with standDone := true } } fPW_STATUS_REFCLK_OK 1
def atStep : List (Nat × Nat) → Dev := fun l => { setF up fSU_STATUS_STAGE 1 with su := { up.su with steps := l } }
def mail : Nat → Nat → Word → Dev := fun opc len data => setReg (setReg (setF up fSU_MBX_CTL_BUSY 1) (offSU_MBX_REQ 0) (BitVec.ofNat 64 (opc + 2 ^ 16 * len))) (offSU_MBX_REQ 1) data
def mailed : Nat → Nat → Sec → State := fun opc len q => { State.reset with dev := mail opc len 0, sec := q }
def updating : Nat → Nat → Nat → Update := fun path comp size => { path := path, len := 0x1000, comp := comp, base := 0, size := size, at' := 0, verified := false }
def writing : Update → Sec := fun u => { Sec.shipped with run := 1, update := some u }
def held : Update → State := fun u => { at_ up with sec := writing u }
def managed : Dev → State := fun d => { at_ d with sec := { Sec.shipped with run := 1 } }
def talking : Spdm → Dev := fun x => { up with mg := { up.mg with spdm := x } }
def open1 : Spdm := { version := true, caps := true, algs := true, handshake := some 1, sessions := [(1, 0)], nextId := 2 }
def soRegs : Tab Word := [(0x800000, 0x00040000D7A088B5), (0x800040, 0x0040000000000000), (0x800048, 0x0040000000000000), (0x800200, 0x8000000000000000)]
def peerRegs : Tab Word := [(0x820028, 1), (0xA00000, 0x400000FF00000000)]
def tandem : Dev := { run with regs := [(0x10, 0x10000)] ++ chanRegs ++ sliceRegs ++ [(0x300010, 0x00003F0FFFFFFFFF), (0x400008, 0xFFFF)] ++ soRegs ++ peerRegs }
def frame : BitVec 4 → List Byte → Packet := fun op b => { op := op, ver := 1, res := false, tc := 0, masked := false, poison := false, dt := 0, src := 5, dst := 0, eng := 0x400, psn := 0, ack := 0, addr := 0, len := 7, tag := 7, ce := false, payload := b }
def rxf : RxFlow := { eng := 0x400, src := 5, tc := 0, hub := 0, expect := 0, held := [], rsp := [], cnpAt := none }
def exporting : Dev := { tandem with regs := [(0x10, 0x10000)] ++ chanRegs ++ sliceRegs ++ [(0x300010, 0x00003F0FFFFFFFFF), (0x400008, 0xFFFF)] ++ soRegs ++ [(0x810030, 0xF000000000000000), (0x810038, 0xFFF0000000000000)] ++ peerRegs, tandem := { tandem.tandem with rx := [rxf] } }
/-- Tandem is enabled with 64 MiB for each hub's retransmission area, port 0 is UP and is module 5's; export entry 3 gives every right to every module. -/
theorem test_scale_out_registers :
    tandem.regs = (setF (setF (setF (setF (setF run fSO_CFG_EN 1) (fSO_PORT_STATE 0) 2) (fSO_PEER_PORTMASK 5) 1) (fSO_RTX_SIZE_MIB 0) 64) (fSO_RTX_SIZE_MIB 1) 64).regs
      ∧ exporting.regs = (setF (setF (setF (setF (setF tandem (fSO_EXP0_VALID 3) 1) (fSO_EXP0_RED 3) 1) (fSO_EXP0_WR 3) 1) (fSO_EXP0_RD 3) 1) (fSO_EXP1_SRC_HI 3) 4095).regs := by decide +kernel
def eight : List Byte := [1, 2, 3, 4, 5, 6, 7, 8]
def landed : Packet → Dev := fun p => modRx (countHub exporting 0 0xC5 (32 + p.payload.length)) (isRx p.eng.toNat p.src.toNat p.tc.toNat) (fun f => { f with held := f.held ++ [p] })
def placed : Packet → Dev × List RxPart := fun p => match rxParts 0 (p.op != 2) (packetLen p / 512 + 2) (landed p) 0 0 (packetLen p) with
  | (d, .inr l) => (d, l)
  | (d, .inl _) => (d, [])
def pkt : BitVec 32 → TxPkt := fun n => { pkt := { frame 2 [] with psn := n, src := 0, dst := 5 }, reqs := [7], sent := true, resends := 0, sentAt := 0 }
def txf : TxFlow := { eng := 0x400, mod := 5, tc := 0, hub := 0, port := some 0, next := 1, unacked := [pkt 0], rate := 400000, rateAt := 0, ackAt := 0, idleAt := 0, waitAt := none }
def flows : TxFlow → Dev := fun f => { tandem with tandem := { tandem.tandem with tx := [f] } }
def asking : PeerReq := { id := 7, kind := 2, tag := 0, cmd := 7, pa := 0x100000000000 + 5 * 0xF00000000, dt := 0, data := 0, mask := 255, poison := false, who := none, eng := some 0x400, framed := true }
def waiting : Nat → Dev := fun tc => { flows { txf with tc := tc } with peerOut := [asking] }
theorem class_flow : ∀ t : Fin 8, (((txFlow (countHub (waiting t) 0 0xC5 40) 0x400 5 t).map (fun f => f.unacked)).getD []).find? (fun y => y.reqs.contains 7) = some (pkt 0) := by decide +kernel
def dropping : Dev := modMs run (fun m => { m with drop := some { dead := 1, kind := 0, first := 0, last := 0, dies := [], links := [], hubs := [], regions := [] } })
def level : Sec := { Sec.shipped with bankA := { Bank.shipped with svn := 4 }, bankB := { Bank.shipped with svn := 4, revoke := 3 }, run := 1, trial := 2 }
def raised : Sec := { Sec.shipped with bankA := { Bank.shipped with svn := 3 }, bankB := { Bank.shipped with svn := 4, revoke := 3 }, run := 1, trial := 2 }
def fwCommitted (s : State) : State := match exec .fwCommit s with
  | .next t => t
  | _ => s
def budgetSpec : RegSpec := (regSpecAt 0x500008).get (by decide +kernel)
def budgetField : FieldSpec := { msb := 11, lsb := 0, acc := .rw, legal := [(1000, 3600)] }
def cfgSpec : RegSpec := (regSpecAt 0x500000).get (by decide +kernel)
def cfgField : FieldSpec := cfgSpec.fields.filter (fun f => f.msb == 39) |>.head (by decide +kernel)
def frameDev : Dev := onCore { grp with p := [(1, 1), (0, 2)] }
def nums : Group := { grp with sr := [(2, 0x8000000000000000), (3, 0xFFFFFFFFFFFFFFFF)] }
def nans : Group := { grp with v := [(2 * 32, 0x7F800001)] }
def full : Group := { half with stack := List.replicate 30 { kind := .join, pc := 96, mask := 3 } }
def gateSpec : RegSpec := (regSpecAt 0x500028).get (by decide +kernel)
def gateField : FieldSpec := gateSpec.fields.filter (fun f => f.msb == 23) |>.head (by decide +kernel)
def sigSpad : Cmd := cmd (desc [8, 2 ^ 32, 0x40000100, 5])
def sigSpadEnd : Dev × LineData × BitVec 8 := spadRmw (sent1 sigSpad) 0 0x100 (255 * 2 ^ 0x100) 0 noThread (signalLine 1 0x100 5)
def sigHost : Dev := modMs (sent1 (cmd (desc [8, 0, 0x80000100, 5]))) (fun m => { m with tlb := m.tlb ++ [(0, 0x80000000, 21, 0x080000000007)] })
def sigHostEnd : Dev × WrRes := writePa sigHost none 0 0x080000000100 page (BitVec.ofNat 4096 (5 * 2 ^ 0x800)) (255 * 2 ^ 0x100) 0 noThread 7

/-! ## A fabric image in a scratchpad (R218 to R224) -/

/-- A FLOAD is first in its cluster's queue; its image lies at the start of scratchpad 0. -/
def loading : Dev := modMs (fabQ [fab .fload 0x40000000] none 0) (fun m => { m with spad := imageBytes })
def strict {α : Type} (f : Nat → α) (c : Nat) : α := match c with | 0 => f 0 | n + 1 => f (n + 1)
theorem strict_eq {α : Type} (f : Nat → α) (c : Nat) : strict f c = f c := by cases c <;> rfl

def go {β : Type} (f : Nat → β → Nat) : List β → Nat → Nat
  | [], c => c
  | b :: l, c => strict (fun c => go f l (f c b)) c
theorem foldl_go {β : Type} (f : Nat → β → Nat) (l : List β) (c : Nat) : l.foldl f c = go f l c := by
  induction l generalizing c with
  | nil => rfl
  | cons b l ih => rw [List.foldl_cons, go, strict_eq, ih]
theorem checkOk_go (img : Nat) : checkOk img = (Nat.xor (go (fun c b => crcBits 8 (Nat.xor c b.toNat)) (leBytes (iSIZE img) (img - imgN img 0x10 4 * 2 ^ 128)) 0xFFFFFFFF) 0xFFFFFFFF == imgN img 0x10 4) := by
  simp only [checkOk, crc32, foldl_go]
theorem image_check : checkOk image = true := (checkOk_go image).trans (by decide +kernel)
theorem image_rest : (headerOk image && (List.range (iNENT image)).all (fun e => entryOk image e && windowOk image e) && (List.range (iNTAB image)).all (tableOk image)) = true := by decide +kernel
theorem image_ok : imageOk image = true := by
  have h := image_rest
  simp only [Bool.and_eq_true] at h
  simp only [imageOk, Bool.and_eq_true]
  exact ⟨⟨⟨h.1.1, image_check⟩, h.1.2⟩, h.2⟩

theorem load_place (s : Dev) (i : Nat) (h : i < 0x2900) : placeOf s (i + 0x040000000000) = .spad 0 i := by
  have e0 : i + 0x040000000000 - 0x040000000000 = i := by omega
  have e1 : i / 0x800000 = 0 := by omega
  have e2 : i % 0x800000 = i := by omega
  unfold placeOf
  rw [if_neg (by omega), if_neg (by omega), if_neg (by omega), if_pos (by omega)]
  simp only [e0, e1, e2]
  rw [if_pos (by omega)]

theorem load_ht : loading.ms.tlb = [(0, 0, 21, 7), (0, 0x40000000, 21, 0x040000000007)] := by decide +kernel
theorem load_tlb (a : Nat) (h3 : a / 2 ^ 21 * 2 ^ 21 = 0x40000000) : loading.ms.tlb.find? (fun t => t.1 == 0 && a / 2 ^ t.2.2.1 * 2 ^ t.2.2.1 == t.2.1) = some (0, 0x40000000, 21, 0x040000000007) := by
  have n1 : ¬ ((0 : Nat) == 0 && a / 2 ^ 21 * 2 ^ 21 == 0) = true := by rw [h3]; decide
  have n2 : ((0 : Nat) == 0 && a / 2 ^ 21 * 2 ^ 21 == 0x40000000) = true := by rw [h3]; decide
  rw [load_ht]
  exact (List.find?_cons_of_neg (p := fun t : Nat × Nat × Nat × Word => t.1 == 0 && a / 2 ^ t.2.2.1 * 2 ^ t.2.2.1 == t.2.1) n1).trans (List.find?_cons_of_pos n2)
theorem load_leaf (s : Dev) (a : Nat) : leafOk s 0 2 0x040000000007 a false = true := by
  have b1 : Nat.testBit 0x040000000007 55 = false := by decide +kernel
  have b2 : Nat.testBit 0x040000000007 56 = false := by decide +kernel
  simp [leafOk, nField, b1, b2]
theorem load_res (s : Dev) (a : Nat) (h1 : 0x40000000 ≤ a) (h2 : a < 0x40000000 + 0x2900) : leafRes s 2 0x040000000007 a = .ok (a - 0x40000000 + 0x040000000000) page := by
  have e0 : nField 0x040000000007 47 16 * 2 ^ 16 = 0x040000000000 := by decide +kernel
  have e2 : a % 2 ^ levelBits 2 = a - 0x40000000 := by
    have : 2 ^ levelBits 2 = 2097152 := by decide +kernel
    rw [this]
    omega
  have hpg : ({ home := nField 0x040000000007 52 51, cache := nField 0x040000000007 54 53, sharedRO := Nat.testBit 0x040000000007 55, owner := nField 0x040000000007 63 60 } : PageAttr) = page := by decide +kernel
  unfold leafRes
  simp only [e0, e2, hpg]
  rw [if_neg (by omega), Nat.add_comm]
theorem load_trans (a : Nat) (h1 : 0x40000000 ≤ a) (h2 : a < 0x40000000 + 0x2900) :
    translate loading 0 a false = (loading, .ok (a - 0x40000000 + 0x040000000000) page) := by
  have en : (0x040000000007 : Word).toNat = 0x040000000007 := by decide +kernel
  have hv : levelOfBits 21 = 2 := by decide
  rw [translate_hit (by omega) (by omega) (load_tlb a (by omega))]
  simp only [en, hv, load_leaf, load_res loading a h1 h2, if_true]
theorem load_read (n : Nat) (h : n ≤ 0x2900) : readBytesVa loading (coreEntry 0) 0 0x40000000 n = (loading, { bytes := (List.range n).map (fun i => (tabGet (fun _ => 0) imageBytes i, false)), err := none, lost := false }) := by
  have k : ∀ i, tabGet (fun _ => (0 : Byte)) loading.ms.spad (0 * 0x800000 + (0x40000000 - 0x40000000) + i) = tabGet (fun _ => 0) imageBytes i ∧ loading.ms.spadPoison.contains ((0 * 0x800000 + (0x40000000 - 0x40000000) + i) / 64) = false := by
    intro i
    have e : 0 * 0x800000 + (0x40000000 - 0x40000000) + i = i := by omega
    rw [e]
    exact ⟨rfl, rfl⟩
  unfold readBytesVa
  rw [readVa_spad load_trans (fun i hi => load_place loading i hi) (by decide +kernel) (by decide +kernel) (by decide +kernel) (by decide +kernel) _ _ n (by omega) (by omega) (by omega) (by omega)]
  congr 2
  exact List.map_congr_left (fun i _ => Prod.ext (k i).1 (k i).2)

def imgRead (n : Nat) : AccRes := { bytes := (List.range n).map (fun i => (tabGet (fun _ => 0) imageBytes i, false)), err := none, lost := false }

theorem leNat_append (l m : List Byte) : leNat (l ++ m) = leNat l + 256 ^ l.length * leNat m := by
  induction l with
  | nil => simp [leNat]
  | cons b l ih =>
    simp only [List.cons_append, leNat, ih, List.length_cons, Nat.pow_succ]
    rw [Nat.mul_add, ← Nat.mul_assoc, Nat.mul_comm 256 (256 ^ _), Nat.add_assoc]
theorem leNat_zeros (l : List Byte) (h : ∀ b ∈ l, b = 0) : leNat l = 0 := by
  induction l with
  | nil => rfl
  | cons b l ih => simp [leNat, h b (by simp), ih (fun x hx => h x (by simp [hx]))]
theorem tail_zero (i : Nat) : tabGet (fun _ => (0 : Byte)) imageBytes (0x129 + i) = 0 := by
  have : ∀ (t : Tab Byte), (t.all (fun e => decide (e.1 < 0x129))) = true → tabGet (fun _ => 0) t (0x129 + i) = 0 := by
    intro t
    induction t with
    | nil => intro _; rfl
    | cons e t ih =>
      intro h
      simp only [List.all_cons, Bool.and_eq_true, decide_eq_true_eq] at h
      rw [tabGet, if_neg (by omega), ih h.2]
  exact this _ (by decide +kernel)
theorem image_read : image = accNat (imgRead 0x2900).bytes := by
  have e : (imgRead 0x2900).bytes.map (fun b => b.1) = (List.range 0x129).map (fun i => tabGet (fun _ => 0) imageBytes i) ++ (List.range 0x27D7).map (fun i => tabGet (fun _ => 0) imageBytes (0x129 + i)) := by
    have : (0x2900 : Nat) = 0x129 + 0x27D7 := by decide
    rw [imgRead, this, List.range_add]
    simp only [List.map_append, List.map_map]
    rfl
  rw [accNat, e, leNat_append, leNat_zeros ((List.range 0x27D7).map (fun i => tabGet (fun _ => 0) imageBytes (0x129 + i))) (by intro b hb; obtain ⟨i, _, rfl⟩ := List.mem_map.mp hb; exact tail_zero i)]
  decide +kernel
theorem load_tag : cmdTag loading 7 = 0 := by decide +kernel
theorem load_addr : (0x40000000 : Word).toNat = 0x40000000 := by decide +kernel
theorem load_run (n : Nat) (h : n ≤ 0x2900) :
    readBytesVa (at_ loading).dev (coreEntry (fab .fload 0x40000000).core) (cmdTag (at_ loading).dev (fab .fload 0x40000000).cmd) (fab .fload 0x40000000).arg0.toNat n = (loading, imgRead n) := by
  show readBytesVa loading (coreEntry 0) (cmdTag loading 7) (0x40000000 : Word).toNat n = _
  rw [load_tag, load_addr]
  exact load_read n h
theorem load_launch : launchFor (0x400 + (fab .fload 0x40000000).core) (fab .fload 0x40000000).cmd loading = loading := by decide +kernel
theorem load_run' (n : Nat) (h : n ≤ 0x2900) :
    readBytesVa (launchFor (0x400 + (fab .fload 0x40000000).core) (fab .fload 0x40000000).cmd loading) (coreEntry (fab .fload 0x40000000).core) (cmdTag (at_ loading).dev (fab .fload 0x40000000).cmd) (fab .fload 0x40000000).arg0.toNat n = (loading, imgRead n) := by
  rw [load_launch]
  exact load_run n h

/-! ## The hypotheses are met -/

/-- A bay is admitted where some descriptor passes every check: its signature is a free value of the model (log 20). -/
theorem test_meets_bay_admitted (desc : BitVec 4096) (h : bayCause desc Sec.shipped.bankA.listDigest = none) :
    ∃ (s : State), s.dev.su.powered = true ∧ s.dev.su.begun = false ∧ stage s.dev = 0 ∧ (getF s.dev fID_PART_BAYS).testBit 0 = true ∧ bayCause desc (if s.sec.run = 2 then s.sec.bankB else s.sec.bankA).listDigest = none :=
  ⟨at_ stand, by decide +kernel, by decide +kernel, by decide +kernel, by decide +kernel, h⟩

/-- A PLDM update verifies where its bundle passes every check: its signatures are free values of the model (log 20). -/
theorem test_meets_update_verified (x : Bank) (h : checkBundle (writing (updating 2 3 8)) Bank.shipped 0x1000 = some x) :
    ∃ (s : State) (u : Update) (q : Sec), answers s = true ∧ s.sec.update = some u ∧ u.path = 2 ∧ u.verified = false ∧ verifyUpdate s.sec u s.dev.now = (q, true) :=
  ⟨held (updating 2 3 8), updating 2 3 8, _, by decide +kernel, by decide +kernel, by decide +kernel, by decide +kernel, by
    have e : getBank (held (updating 2 3 8)).sec (idleBank (held (updating 2 3 8)).sec) = Bank.shipped := by decide +kernel
    unfold verifyUpdate
    rw [e, show checkBundle (held (updating 2 3 8)).sec Bank.shipped (updating 2 3 8).len = some x from h]⟩

/-- The hypotheses of StepRunsFrontCommand are met. -/
theorem test_meets_step_runs_front_command : ∃ (s : State) (c : Instr) (rest : List Instr), s.pending = c :: rest :=
  ⟨{ State.reset with pending := [.leaseExpiry, .snapshot] }, .leaseExpiry, [.snapshot], by decide +kernel⟩

/-- The hypotheses of EmptyQueueIdles are met: one state for each of its clauses. -/
theorem test_meets_empty_queue_idles :
    (∃ (s : State), s.pending = [] ∧ s.dev.ms.drop = none ∧ s.dev.todo = [])
    ∧ (∃ (s : State) (r : DropRun), s.pending = [] ∧ s.dev.ms.drop = some r ∧ s.dev.todo = [])
    ∧ (∃ (s : State) (n : Fin 16), s.pending = [] ∧ s.dev.ms.drop = none ∧ s.dev.todo = [.stop n] ∧ slState s.dev n = 4) :=
  ⟨⟨State.reset, by decide +kernel, by decide +kernel, by decide +kernel⟩,
    ⟨at_ dropping, { dead := 1, kind := 0, first := 0, last := 0, dies := [], links := [], hubs := [], regions := [] }, by decide +kernel, by decide +kernel, by decide +kernel⟩,
    ⟨at_ ({ setF run (fSLC_CTL_STATE 0) 4 with todo := [.stop 0] }), 0, by decide +kernel, by decide +kernel, by decide +kernel, by decide +kernel⟩⟩

/-- The hypotheses of FirmwareSafeKept are met. -/
theorem test_meets_firmware_safe_kept : ∃ (s : State) (t : State), FirmwareSafe s.sec ∧ step s = .next t :=
  ⟨State.reset, _, by unfold FirmwareSafe; decide +kernel, rfl⟩

/-- The hypotheses of FuseVersionRisesByCommit are met: one state for each of its clauses. -/
theorem test_meets_fuse_version_rises_by_commit :
    (∃ (s : State) (t : State), step s = .next t ∧ t.sec.fuseSvn ≠ s.sec.fuseSvn)
    ∧ (∃ (s : State) (t : State) (b : Nat) (x : Bank), MailAsked s 0x0035 true (· = 0) ∧ b = (if s.sec.trial = 0 then s.sec.run else s.sec.trial) ∧ x = getBank s.sec b ∧ exec .fwCommit s = .next t ∧ s.sec.bankA.valid = true ∧ s.sec.bankB.valid = true ∧ x.svn ≤ s.sec.bankA.svn ∧ x.svn ≤ s.sec.bankB.svn)
    ∧ (∃ (s : State) (t : State) (b : Nat) (x : Bank), MailAsked s 0x0035 true (· = 0) ∧ b = (if s.sec.trial = 0 then s.sec.run else s.sec.trial) ∧ x = getBank s.sec b ∧ exec .fwCommit s = .next t ∧ ¬(s.sec.bankA.valid = true ∧ s.sec.bankB.valid = true ∧ x.svn ≤ s.sec.bankA.svn ∧ x.svn ≤ s.sec.bankB.svn))
    ∧ (∃ (s : State) (b : Nat), FirmwareSafe s.sec ∧ (b = 1 ∨ b = 2) ∧ (getBank s.sec b).valid = true) :=
  ⟨⟨{ mailed 0x35 0 level with pending := [.fwCommit] }, (fwCommitted { mailed 0x35 0 level with pending := [] }), rfl, by decide +kernel⟩,
    ⟨mailed 0x35 0 level, fwCommitted (mailed 0x35 0 level), _, _, by decide +kernel, rfl, rfl, rfl, by decide +kernel, by decide +kernel, by decide +kernel, by decide +kernel⟩,
    ⟨mailed 0x35 0 raised, fwCommitted (mailed 0x35 0 raised), _, _, by decide +kernel, rfl, rfl, rfl, by decide +kernel⟩,
    ⟨State.reset, 2, by unfold FirmwareSafe; decide +kernel, by decide +kernel, by decide +kernel⟩⟩

/-- The hypotheses of BridleRestartLeavesOtherPlanes are met. -/
theorem test_meets_bridle_restart_leaves_other_planes : ∃ (s : State) (t : State) (up : Bool), exec (.managementPlaneRestart up) s = .next t :=
  ⟨at_ up, _, false, rfl⟩

/-- The hypotheses of UnleasedWritesDropped are met: one state for each of its clauses. -/
theorem test_meets_unleased_writes_dropped :
    (∃ (c : Instr) (s : State) (port : Nat) (off : Nat), setupTarget c = some (port, off) ∧ bar0Open s.dev port = true ∧ (getPort s.dev port).held = none ∧ regAt s.dev off = true ∧ holdsLease s.dev port = false)
    ∧ (∃ (s : State) (port : Fin 2) (off : BitVec 26) (h : HeldHalf), bar0Open s.dev port = true ∧ (getPort s.dev port).held = some h ∧ off.toNat % 8 = 4 ∧ h.off = off.toNat - 4 ∧ off.toNat - 4 ≠ offID_SEM ∧ regAt s.dev (off.toNat - 4) = true ∧ holdsLease s.dev port = false) :=
  ⟨⟨.setupWrite 1 0x500008 false 7, at_ up, 1, 0x500008, by decide +kernel, by decide +kernel, by decide +kernel, by decide +kernel, (by decide +kernel)⟩,
    ⟨at_ (modPort up 1 (fun p => { p with held := some { off := 0x500008, data := 1, since := 5 } })), 1, 0x50000C, { off := 0x500008, data := 1, since := 5 }, by decide +kernel, by decide +kernel, by decide +kernel, by decide +kernel, (by decide +kernel), by decide +kernel, by decide +kernel⟩⟩

/-- The hypotheses of ReservedEncodingsIgnored are met: one state for each of its clauses. -/
theorem test_meets_reserved_encodings_ignored :
    (∃ (off : Nat) (r : RegSpec) (f : FieldSpec) (val : Word), regSpecAt off = some r ∧ f ∈ r.fields ∧ (f.acc = .rw ∨ f.acc = .rwl) ∧ legalEnc f (fld val f.msb f.lsb) = false)
    ∧ (∃ (s : State) (port : Fin 2) (off : BitVec 26) (r : RegSpec) (f : FieldSpec) (val : Word), SetupTaken s.dev port off.toNat ∧ off.toNat % 8 = 0 ∧ off.toNat / 0x100000 = 5 ∧ off.toNat ≠ offPW_BUDGET ∧ off.toNat ≠ offPW_RAMP ∧ regSpecAt off.toNat = some r ∧ f ∈ r.fields ∧ (f.acc = .rw ∨ f.acc = .rwl) ∧ legalEnc f (fld val f.msb f.lsb) = false) :=
  ⟨⟨0x500008, budgetSpec, budgetField, 999, by decide +kernel, by decide +kernel, by decide +kernel, by decide +kernel⟩,
    ⟨at_ up, 0, 0x500000, cfgSpec, cfgField, 101 * 2 ^ 32, by decide +kernel, by decide +kernel, by decide +kernel, by decide +kernel, (by decide +kernel), by decide +kernel, by decide +kernel, by decide +kernel, by decide +kernel⟩⟩

/-- The hypotheses of OddAccessesLogged are met. -/
theorem test_meets_odd_accesses_logged : ∃ (s : State) (port : Fin 2) (off : BitVec 26) (len : Fin 4097), bar0Open s.dev port = true ∧ (getPort s.dev port).held = none ∧ (¬((len.val = 4 ∨ len.val = 8) ∧ off.toNat % len.val = 0)) ∧ off.toNat % 8 ≠ 0 :=
  ⟨at_ up, 1, 0x3FFFFFF, 8, by decide +kernel, by decide +kernel, by decide +kernel, by decide +kernel⟩

/-- The hypotheses of EnabledRingsHeld are met: one state for each of its clauses. -/
theorem test_meets_enabled_rings_held :
    (∃ (s : State) (port : Fin 2) (chan : Fin 16) (ring : Fin 64), SetupTaken s.dev port (offCH_SQ_CFG chan ring) ∧ getF s.dev (fCH_SQ_CFG_ENABLE chan ring) = 1)
    ∧ (∃ (s : State) (port : Fin 2) (chan : Fin 16) (ring : Fin 64), SetupTaken s.dev port (offCH_CQ_CFG chan ring) ∧ getF s.dev (fCH_CQ_CFG_ENABLE chan ring) = 1 ∧ cqNamed s.dev chan ring = false) :=
  ⟨⟨at_ run, 0, 0, 0, by decide +kernel, by decide +kernel⟩,
    ⟨at_ (setF run (fCH_CQ_CFG_ENABLE 0 63) 1), 0, 0, 63, by decide +kernel, by decide +kernel, by decide +kernel⟩⟩

/-- The hypotheses of SliceRegistersHeld are met: one state for each of its clauses. -/
theorem test_meets_slice_registers_held :
    (∃ (s : State) (port : Fin 2) (n : Fin 16) (off : BitVec 26), SetupTaken s.dev port off.toNat ∧ 2 ≤ getF s.dev (fSLC_CTL_STATE n) ∧ ((off.toNat = offSLC_RGNS n ∨ off.toNat = offSLC_CHAN n ∨ off.toNat = offSLC_PTBASE n ∨ off.toNat = offSLC_CTXTAB n ∨ ∃ k : Fin 8, off.toNat = offSLC_PASID n k)))
    ∧ (∃ (s : State) (port : Fin 2) (n : Fin 16) (off : BitVec 26), SetupTaken s.dev port off.toNat ∧ 2 ≤ getF s.dev (fSLC_CTL_STATE n) ∧ ((off.toNat = offSLC_RGNS n ∨ off.toNat = offSLC_CHAN n ∨ off.toNat = offSLC_PTBASE n ∨ off.toNat = offSLC_CTXTAB n ∨ ∃ k : Fin 8, off.toNat = offSLC_PASID n k)))
    ∧ (∃ (s : State) (port : Fin 2) (n : Fin 16) (off : BitVec 26), SetupTaken s.dev port off.toNat ∧ 2 ≤ getF s.dev (fSLC_CTL_STATE n) ∧ ((off.toNat = offSLC_RGNS n ∨ off.toNat = offSLC_CHAN n ∨ off.toNat = offSLC_PTBASE n ∨ off.toNat = offSLC_CTXTAB n ∨ ∃ k : Fin 8, off.toNat = offSLC_PASID n k)))
    ∧ (∃ (s : State) (port : Fin 2) (n : Fin 16) (off : BitVec 26), SetupTaken s.dev port off.toNat ∧ 2 ≤ getF s.dev (fSLC_CTL_STATE n) ∧ ((off.toNat = offSLC_RGNS n ∨ off.toNat = offSLC_CHAN n ∨ off.toNat = offSLC_PTBASE n ∨ off.toNat = offSLC_CTXTAB n ∨ ∃ k : Fin 8, off.toNat = offSLC_PASID n k)))
    ∧ (∃ (s : State) (port : Fin 2) (n : Fin 16) (off : BitVec 26), SetupTaken s.dev port off.toNat ∧ 2 ≤ getF s.dev (fSLC_CTL_STATE n) ∧ ((off.toNat = offSLC_RGNS n ∨ off.toNat = offSLC_CHAN n ∨ off.toNat = offSLC_PTBASE n ∨ off.toNat = offSLC_CTXTAB n ∨ ∃ k : Fin 8, off.toNat = offSLC_PASID n k)))
    ∧ (∃ (s : State) (port : Fin 2) (n : Fin 16) (off : BitVec 26) (data : Word), SetupTaken s.dev port off.toNat ∧ 2 ≤ getF s.dev (fSLC_CTL_STATE n) ∧ off.toNat = offSLC_CFG n ∧ fld data 44 32 ≠ getF s.dev (fSLC_CFG_PIN_KIB n)) :=
  ⟨⟨at_ run, 0, 0, BitVec.ofNat 26 (offSLC_RGNS 0), by decide +kernel, by decide +kernel, .inl rfl⟩,
    ⟨at_ run, 0, 0, BitVec.ofNat 26 (offSLC_CHAN 0), by decide +kernel, by decide +kernel, .inr (.inl rfl)⟩,
    ⟨at_ run, 0, 0, BitVec.ofNat 26 (offSLC_PTBASE 0), by decide +kernel, by decide +kernel, .inr (.inr (.inl rfl))⟩,
    ⟨at_ run, 0, 0, BitVec.ofNat 26 (offSLC_CTXTAB 0), by decide +kernel, by decide +kernel, .inr (.inr (.inr (.inl rfl)))⟩,
    ⟨at_ run, 0, 0, BitVec.ofNat 26 (offSLC_PASID 0 7), by decide +kernel, by decide +kernel, .inr (.inr (.inr (.inr ⟨7, rfl⟩)))⟩,
    ⟨at_ run, 0, 0, BitVec.ofNat 26 (offSLC_CFG 0), 5 * 2 ^ 32, by decide +kernel, by decide +kernel, by decide +kernel, by decide +kernel⟩⟩

/-- The hypotheses of WaitingInstructionsChangeNothing are met: one state for each of its clauses. -/
theorem test_meets_waiting_instructions_change_nothing :
    (∃ (s : State) (iw : IWord), mayIssue s.dev iw = none)
    ∧ (∃ (s : State) (iw : IWord) (g : Group), mayIssue s.dev iw = some g ∧ iw.poison = false ∧ iw.opcode = none ∧ busy g [] [sSD iw, sSA iw, sSB iw] = true)
    ∧ (∃ (s : State) (iw : IWord) (g : Group), mayIssue s.dev iw = some g ∧ iw.poison = false ∧ iw.opcode = none ∧ busy g (usesVR iw 1 1 1 1) [] = true)
    ∧ (∃ (s : State) (iw : IWord) (g : Group), mayIssue s.dev iw = some g ∧ iw.poison = false ∧ iw.opcode = none ∧ busy g (usesVR iw 2 2 2 2) [] = true)
    ∧ (∃ (s : State) (iw : IWord) (g : Group), mayIssue s.dev iw = some g ∧ iw.poison = true)
    ∧ (∃ (s : State) (iw : IWord) (g : Group) (b : BitVec 8), mayIssue s.dev iw = some g ∧ iw.poison = false ∧ iw.opcode = some b ∧ opListed b = false)
    ∧ (∃ (s : State) (iw : IWord) (g : Group) (b : BitVec 8), mayIssue s.dev iw = some g ∧ iw.poison = false ∧ iw.opcode = some b ∧ opListed b = true) :=
  ⟨⟨at_ (onCore grp), { ins [] with slot := 5 }, by decide +kernel⟩,
    ⟨at_ (onCore { grp with busyS := [3] }), ins [(12, 1), (18, 2), (24, 3)], { grp with busyS := [3] }, by decide +kernel, by decide +kernel, by decide +kernel, by decide +kernel⟩,
    ⟨at_ (onCore { grp with busyV := [2] }), ins [(12, 1), (20, 2), (28, 3)], { grp with busyV := [2] }, by decide +kernel, by decide +kernel, by decide +kernel, by decide +kernel⟩,
    ⟨at_ (onCore { grp with busyV := [5] }), ins [(12, 0), (20, 2), (28, 4)], { grp with busyV := [5] }, by decide +kernel, by decide +kernel, by decide +kernel, by decide +kernel⟩,
    ⟨at_ (onCore grp), { ins [] with poison := true }, grp, by decide +kernel, by decide +kernel⟩,
    ⟨at_ (onCore grp), { ins [] with opcode := some 0xFF }, grp, 0xFF, by decide +kernel, by decide +kernel, by decide +kernel, by decide +kernel⟩,
    ⟨at_ (onCore grp), { ins [] with opcode := some 0 }, grp, 0, by decide +kernel, by decide +kernel, by decide +kernel, by decide +kernel⟩⟩

/-- The hypotheses of GuardedOffDoesNothing are met: one state for each of its clauses. -/
theorem test_meets_guarded_off_does_nothing :
    (∃ (s : State) (iw : IWord) (g : Group), execMask g iw = 0 ∧ Issues s.dev iw [] [] g ∧ ctlLegal iw false false = true ∧ ctlLegal iw true false = true ∧ ctlLegal iw false true = true ∧ cT2 iw < 2 ^ 16)
    ∧ (∃ (s : State) (iw : IWord) (g : Group), execMask g iw = 0 ∧ Issues s.dev iw [] [] g ∧ fenceLegal iw 1 = true)
    ∧ (∃ (s : State) (iw : IWord) (g : Group), execMask g iw = 0 ∧ Issues s.dev iw [] [] g ∧ fenceLegal iw 2 = true)
    ∧ (∃ (s : State) (iw : IWord) (g : Group), execMask g iw = 0 ∧ Issues s.dev iw [] [] g ∧ fenceLegal iw 3 = true)
    ∧ (∃ (s : State) (iw : IWord) (g : Group), execMask g iw = 0 ∧ Issues s.dev iw [] [] g ∧ barLegal s.dev iw g = true)
    ∧ (∃ (s : State) (iw : IWord) (g : Group), execMask g iw = 0 ∧ Issues s.dev iw [] [iVD iw, mSB iw] g ∧ ldsLegal iw = true ∧ scopeLegal (mORD iw) (mSCOPE iw) true = true ∧ mL1H iw < 3)
    ∧ (∃ (s : State) (iw : IWord) (g : Group), execMask g iw = 0 ∧ Issues s.dev iw [] [iVD iw, mSB iw] g ∧ ldsLegal iw = true ∧ scopeLegal (mORD iw) (mSCOPE iw) false = true ∧ mL1H iw = 0 ∧ mDEAD iw = 0)
    ∧ (∃ (s : State) (iw : IWord) (g : Group), execMask g iw = 0 ∧ xRES iw = 0 ∧ xSD1 iw % 2 = 0 ∧ Issues s.dev iw [] (mxUses 1 iw) g ∧ Issues s.dev iw [] (mxUses 2 iw) g ∧ Issues s.dev iw [] (mxUses 3 iw) g)
    ∧ (∃ (s : State) (iw : IWord) (g : Group), execMask g iw = 0 ∧ Issues s.dev iw [] ((List.range 8).map (fun i => xSC iw + i)) g ∧ xRES iw = 0 ∧ xSD1 iw = 0 ∧ xSD2 iw = 0 ∧ xSC iw % 8 = 0)
    ∧ (∃ (s : State) (iw : IWord) (g : Group), execMask g iw = 0 ∧ Issues s.dev iw [] [xSD1 iw, xSD1 iw + 1] g ∧ xRES iw = 0 ∧ xSC iw = 0 ∧ xSD2 iw = 0 ∧ xSD1 iw % 2 = 0)
    ∧ (∃ (s : State) (iw : IWord) (g : Group), execMask g iw = 0 ∧ Issues s.dev iw [] [] g ∧ xRES iw = 0 ∧ xSC iw = 0 ∧ xSD1 iw = 0 ∧ xSD2 iw = 0)
    ∧ (∃ (s : State) (iw : IWord) (g : Group), execMask g iw = 0 ∧ Issues s.dev iw [] [xSC iw, xSD1 iw, xSD2 iw] g ∧ xRES iw = 0) :=
  ⟨⟨at_ (onCore grp), { ins [] with hdr := 0 }, grp, by decide +kernel, by decide +kernel, by decide +kernel, by decide +kernel, (by decide +kernel), by decide +kernel⟩,
    ⟨at_ (onCore grp), { ins [(16, 1)] with hdr := 0 }, grp, by decide +kernel, by decide +kernel, by decide +kernel⟩,
    ⟨at_ (onCore grp), { ins [(16, 2)] with hdr := 0 }, grp, by decide +kernel, by decide +kernel, by decide +kernel⟩,
    ⟨at_ (onCore grp), { ins [(16, 3)] with hdr := 0 }, grp, by decide +kernel, by decide +kernel, by decide +kernel⟩,
    ⟨at_ (onCore grp), { ins [] with hdr := 0 }, grp, by decide +kernel, by decide +kernel, by decide +kernel⟩,
    ⟨at_ (onCore grp), { ins [(12, 1), (20, 255), (28, 5), (34, 3), (49, 64)] with hdr := 0 }, grp, by decide +kernel, by decide +kernel, by decide +kernel, by decide +kernel, (by decide +kernel)⟩,
    ⟨at_ (onCore grp), { ins [(12, 1), (20, 255), (28, 5), (34, 3), (49, 64)] with hdr := 0 }, grp, by decide +kernel, by decide +kernel, by decide +kernel, by decide +kernel, (by decide +kernel), by decide +kernel⟩,
    ⟨at_ (onCore grp), { ins [(12, 8), (18, 10), (24, 12)] with hdr := 0 }, grp, by decide +kernel, by decide +kernel, by decide +kernel, by decide +kernel, (by decide +kernel), by decide +kernel⟩,
    ⟨at_ (onCore grp), { ins [(12, 8)] with hdr := 0 }, grp, by decide +kernel, by decide +kernel, by decide +kernel, by decide +kernel, (by decide +kernel), by decide +kernel⟩,
    ⟨at_ (onCore grp), { ins [(18, 10)] with hdr := 0 }, grp, by decide +kernel, by decide +kernel, by decide +kernel, by decide +kernel, (by decide +kernel), by decide +kernel⟩,
    ⟨at_ (onCore grp), { ins [] with hdr := 0 }, grp, by decide +kernel, by decide +kernel, by decide +kernel, by decide +kernel, (by decide +kernel), by decide +kernel⟩,
    ⟨at_ (onCore grp), { ins [(12, 8), (18, 9), (24, 11)] with hdr := 0 }, grp, by decide +kernel, by decide +kernel, by decide +kernel⟩⟩

/-- The hypotheses of ScalarArithmeticFrame are met: one state for each of its clauses. -/
theorem test_meets_scalar_arithmetic_frame :
    (∃ (iw : IWord), Runs (fun _ => []) (fun iw => [sSD iw, sSA iw, sSB iw]) (fun _ g iw => opSalu g iw) iw)
    ∧ (∃ (iw : IWord), Runs (fun _ => []) (fun iw => [sSD iw, sSA iw, sSB iw]) (fun _ g iw => opScmp g iw) iw)
    ∧ (∃ (iw : IWord), Runs (fun _ => []) (fun iw => [sSD iw, sSA iw]) (fun _ g iw => opSalui g iw) iw)
    ∧ (∃ (iw : IWord), Runs (fun _ => []) (fun iw => [sSD iw, sSA iw]) (fun _ g iw => opScmpi g iw) iw)
    ∧ (∃ (iw : IWord), Runs (fun _ => []) (fun iw => [sSD iw, sSA iw]) (fun _ g iw => opMov g iw) iw)
    ∧ (∃ (iw : IWord), Runs (fun _ => []) (fun iw => [sSD iw]) (fun _ g iw => opMovi g iw) iw)
    ∧ (∃ (iw : IWord), Runs (fun _ => []) (fun iw => [sSD iw, sSA iw]) (fun _ g iw => opMovhi g iw) iw)
    ∧ (∃ (iw : IWord), Runs (fun _ => []) (fun iw => [sSD iw]) (fun s g iw => opMovsr (timeBase s) (flagsOf s iw) g iw) iw)
    ∧ (∃ (iw : IWord), Runs (fun _ => []) (fun iw => [sSD iw]) (fun _ g iw => opP2s g iw) iw)
    ∧ (∃ (iw : IWord), Runs (fun iw => [sMOD iw % 256]) (fun iw => [sSD iw]) (fun _ g iw => opVread g iw) iw)
    ∧ (∃ (iw : IWord), Runs (fun _ => []) (fun iw => [iVD iw % 64]) (fun _ g iw => opVote g iw) iw) :=
  ⟨⟨ins [(12, 1), (18, 2), (24, 3)], by decide +kernel⟩,
    ⟨ins [(12, 1), (18, 2), (24, 3)], by decide +kernel⟩,
    ⟨ins [(12, 1), (18, 2)], by decide +kernel⟩,
    ⟨ins [(12, 1), (18, 2)], by decide +kernel⟩,
    ⟨ins [(12, 1), (18, 2)], by decide +kernel⟩,
    ⟨ins [(12, 1), (28, 5)], by decide +kernel⟩,
    ⟨ins [(12, 1), (18, 1)], by decide +kernel⟩,
    ⟨ins [(12, 1)], by decide +kernel⟩,
    ⟨ins [(12, 1)], by decide +kernel⟩,
    ⟨ins [(12, 1), (36, 2)], by decide +kernel⟩,
    ⟨ins [(12, 1), (20, 7)], by decide +kernel⟩⟩

/-- The hypotheses of VectorArithmeticFrame are met: one state for each of its clauses. -/
theorem test_meets_vector_arithmetic_frame :
    (∃ (iw : IWord), Runs (fun iw => usesVR iw 1 1 1 1) (fun _ => []) (fun _ g iw => opValu g iw) iw)
    ∧ (∃ (iw : IWord), Runs (fun iw => usesVR iw 2 2 2 0) (fun _ => []) (fun _ g iw => opValu64 g iw) iw)
    ∧ (∃ (iw : IWord), Runs (fun iw => usesVR iw 1 1 0 0) (fun _ => []) (fun _ g iw => opValui g iw) iw)
    ∧ (∃ (iw : IWord), Runs (fun iw => usesVR iw 1 1 1 1) (fun _ => []) (fun _ g iw => opFalu g iw) iw)
    ∧ (∃ (iw : IWord), Runs (fun iw => usesVR iw 1 1 0 0) (fun _ => []) (fun _ g iw => opFalui g iw) iw)
    ∧ (∃ (iw : IWord), Runs (fun iw => usesVR iw 2 2 2 2) (fun _ => []) (fun _ g iw => opDalu g iw) iw)
    ∧ (∃ (iw : IWord), Runs (fun iw => usesVR iw 1 1 1 1) (fun _ => []) (fun _ g iw => opHalu g iw) iw)
    ∧ (∃ (iw : IWord), Runs (fun iw => usesVR iw 1 1 1 1) (fun _ => []) (fun s g iw => opCvt (seedOf s iw) g iw) iw)
    ∧ (∃ (iw : IWord), Runs (fun iw => usesVR iw 1 2 1 1) (fun _ => []) (fun s g iw => opCvtd (seedOf s iw) g iw) iw)
    ∧ (∃ (iw : IWord), Runs (fun iw => usesVR iw 2 1 0 0) (fun _ => []) (fun _ g iw => opCvt2d g iw) iw)
    ∧ (∃ (iw : IWord), Runs (fun iw => usesVR iw 1 1 1 0) (fun _ => []) (fun _ g iw => opSel g iw) iw)
    ∧ (∃ (iw : IWord), Runs (fun iw => usesVR iw 1 1 1 0) (fun _ => []) (fun _ g iw => opShfl g iw) iw)
    ∧ (∃ (iw : IWord), Runs (fun iw => usesVR iw 1 1 0 0) (fun _ => []) (fun _ g iw => opBcast g iw) iw)
    ∧ (∃ (iw : IWord), Runs (fun iw => usesVR iw 0 1 1 0) (fun _ => []) (fun _ g iw => opFcmp g iw) iw)
    ∧ (∃ (iw : IWord), Runs (fun iw => usesVR iw 0 1 1 0) (fun _ => []) (fun _ g iw => opIcmp g iw) iw)
    ∧ (∃ (iw : IWord), Runs (fun iw => usesVR iw 0 2 2 0) (fun _ => []) (fun _ g iw => opDcmp g iw) iw)
    ∧ (∃ (iw : IWord), Runs (fun _ => []) (fun _ => []) (fun _ g iw => opPlog g iw) iw) :=
  ⟨⟨ins [(12, 1), (20, 2), (28, 3)], by decide +kernel⟩,
    ⟨ins [(12, 0), (20, 2), (28, 4)], by decide +kernel⟩,
    ⟨ins [(12, 1), (20, 2)], by decide +kernel⟩,
    ⟨ins [(12, 1), (20, 2), (28, 3)], by decide +kernel⟩,
    ⟨ins [(12, 1), (20, 2)], by decide +kernel⟩,
    ⟨ins [(12, 0), (20, 2), (28, 4)], by decide +kernel⟩,
    ⟨ins [(12, 1), (20, 2), (28, 3), (44, 1)], by decide +kernel⟩,
    ⟨ins [(12, 1), (20, 2)], by decide +kernel⟩,
    ⟨ins [(12, 1), (20, 2)], by decide +kernel⟩,
    ⟨ins [(12, 2), (20, 1)], by decide +kernel⟩,
    ⟨ins [(12, 1), (20, 2), (28, 3)], by decide +kernel⟩,
    ⟨ins [(12, 1), (20, 2), (28, 3)], by decide +kernel⟩,
    ⟨ins [(12, 1), (20, 2)], by decide +kernel⟩,
    ⟨ins [(12, 1), (20, 2), (28, 3)], by decide +kernel⟩,
    ⟨ins [(12, 1), (20, 2), (28, 3)], by decide +kernel⟩,
    ⟨ins [(12, 1), (20, 2), (28, 4)], by decide +kernel⟩,
    ⟨ins [(12, 1), (20, 7), (28, 7)], by decide +kernel⟩⟩

/-- The hypotheses of IntegerResults are met: one state for each of its clauses. -/
theorem test_meets_integer_results :
    ((∀ k ∈ [0, 1, 2, 3, 19, 4, 5, 6, 7, 8, 9, 10, 11, 26, 27], sMOD (ins [(12, 1), (18, 2), (24, 3), (36, k)]) = k ∧ Issues (onCore nums) (ins [(12, 1), (18, 2), (24, 3), (36, k)]) [] [sSD (ins [(12, 1), (18, 2), (24, 3), (36, k)]), sSA (ins [(12, 1), (18, 2), (24, 3), (36, k)]), sSB (ins [(12, 1), (18, 2), (24, 3), (36, k)])] nums ∧ execOnce nums (ins [(12, 1), (18, 2), (24, 3), (36, k)]) = true ∧ sSC (ins [(12, 1), (18, 2), (24, 3), (36, k)]) = 0 ∧ getSP nums (sSA (ins [(12, 1), (18, 2), (24, 3), (36, k)])) = false ∧ getSP nums (sSB (ins [(12, 1), (18, 2), (24, 3), (36, k)])) = false ∧ predPoisonAny nums (ins [(12, 1), (18, 2), (24, 3), (36, k)]) = false))
    ∧ ((∀ k, k < 13 → iMOD (ins [(12, 1), (20, 2), (28, 3), (51, k)]) = k ∧ Issues (onCore grp) (ins [(12, 1), (20, 2), (28, 3), (51, k)]) (usesVR (ins [(12, 1), (20, 2), (28, 3), (51, k)]) 1 1 1 1) [] grp ∧ iTYP (ins [(12, 1), (20, 2), (28, 3), (51, k)]) = 0 ∧ iRND (ins [(12, 1), (20, 2), (28, 3), (51, k)]) = 0 ∧ iSAT (ins [(12, 1), (20, 2), (28, 3), (51, k)]) = 0 ∧ iVC (ins [(12, 1), (20, 2), (28, 3), (51, k)]) = 0 ∧ legV grp (iVD (ins [(12, 1), (20, 2), (28, 3), (51, k)])) = true ∧ legV grp (iVA (ins [(12, 1), (20, 2), (28, 3), (51, k)])) = true ∧ legV grp (iVB (ins [(12, 1), (20, 2), (28, 3), (51, k)])) = true ∧ legV grp 0 = true ∧ iVD (ins [(12, 1), (20, 2), (28, 3), (51, k)]) ≠ 255 ∧ (execMask grp (ins [(12, 1), (20, 2), (28, 3), (51, k)])).getLsbD 1 = true)) :=
  ⟨by decide +kernel,
    by decide +kernel⟩

/-- The hypotheses of NaNConverts are met: one state for each of its clauses. -/
theorem test_meets_na_n_converts :
    (∃ (src : NumFmt) (bits : Nat), decodeVal src bits = .nan)
    ∧ (∃ (iw : IWord) (src : NumFmt) (dst : NumFmt) (l : Nat), Issues (onCore nans) iw (usesVR iw 1 1 1 1) [] nans ∧ fmtOfCode (iMOD iw % 16) = some src ∧ fmtOfCode (iTYP iw) = some dst ∧ (opCvt (seedOf (onCore nans) iw) nans iw).isSome = true ∧ iVD iw ≠ 255 ∧ l < 32 ∧ (execMask nans iw).getLsbD l = true ∧ decodeVal src ((getV nans (iVA iw) l).toNat % 2 ^ fmtBits src) = .nan) :=
  ⟨⟨.fp32, 0x7F800001, by decide +kernel⟩,
    ⟨ins [(12, 1), (20, 2), (44, 1)], .fp32, .bf16, 0, by decide +kernel, by decide +kernel, by decide +kernel, by decide +kernel, (by decide +kernel), by decide +kernel, by decide +kernel, by decide +kernel⟩⟩

/-- The hypotheses of SplitIsExact are met. -/
theorem test_meets_split_is_exact : ∃ (bits : Nat) (sg : Bool) (m : Nat) (q : Int), decodeVal .fp32 bits = .fin sg m q :=
  ⟨0xFF7FFFFF, _, _, _, rfl⟩

/-- The hypotheses of PopsGiveLiveLanes are met: one state for each of its clauses. -/
theorem test_meets_pops_give_live_lanes :
    (∃ (iw : IWord) (g : Group) (act : BitVec 32) (pc : Word) (st : List StackEntry), ControlRuns (onCore g) iw false false g ∧ execOnce g iw = true ∧ popNext g.live g.stack = some (act, pc, st))
    ∧ (∃ (iw : IWord) (g : Group), ControlRuns (onCore g) iw true true g ∧ g.stack.length + 2 ≤ 32 ∧ g.act ≠ 0)
    ∧ (∃ (live : BitVec 32) (st : List StackEntry) (act : BitVec 32) (pc : Word) (st' : List StackEntry), popToLoop live st = some (act, pc, st')) :=
  ⟨⟨ins [], split, 1, 64, [], by decide +kernel, by decide +kernel, by decide +kernel⟩,
    ⟨{ ins [(40, 8), (16, 4)] with hdr := 0 }, full, by decide +kernel, by decide +kernel, by decide +kernel⟩,
    ⟨3, loop.stack, 3, 64, [{ kind := .join, pc := 96, mask := 3 }], by decide +kernel⟩⟩

/-- The hypotheses of TierSectorWrites are met: one state for each of its clauses. -/
theorem test_meets_tier_sector_writes :
    (∃ (s : Dev) (b : Nat) (mask : Nat), b % 64 = 0 ∧ mask < 2 ^ 64 ∧ tierDead s b = false)
    ∧ (∃ (s : Dev) (b : Nat) (mask : Nat), b % 64 = 0 ∧ mask < 2 ^ 64 ∧ mask ≠ 2 ^ 64 - 1 ∧ tierDead s b = false)
    ∧ (∃ (s : Dev) (b : Nat) (mask : Nat), b % 64 = 0 ∧ mask < 2 ^ 64 ∧ mask ≠ 2 ^ 64 - 1 ∧ tierDead s b = false ∧ isFar b = true) :=
  ⟨⟨up, 0xFFFFFFFFC0, 2 ^ 64 - 1, by decide +kernel, by decide +kernel, by decide +kernel⟩,
    ⟨up, 0, 1, by decide +kernel, by decide +kernel, by decide +kernel, by decide +kernel⟩,
    ⟨setF up (fMT_FAR_CAP_STATE 0) 1, 0x010000000040, 3, by decide +kernel, by decide +kernel, by decide +kernel, by decide +kernel, (by decide +kernel)⟩⟩

/-- The hypotheses of NearZeroingClears are met. -/
theorem test_meets_near_zeroing_clears : ∃ (s : State) (t : State), s.dev.su.begun = true ∧ stepDone s.dev 5 = true ∧ stepDone s.dev 7 = false ∧ exec .nearTierZeroing s = .next t :=
  ⟨at_ (atStep [(5, 1)]), _, by decide +kernel, by decide +kernel, by decide +kernel, rfl⟩

/-- The hypotheses of SetupCompletes are met: one state for each of its clauses. -/
theorem test_meets_setup_completes :
    (∃ (s : State) (port : Fin 2) (off : BitVec 26), SetupTaken s.dev port off.toNat ∧ off.toNat % 8 = 0 ∧ off.toNat ≠ offID_SEM)
    ∧ (∃ (s : State) (port : Fin 2) (off : BitVec 26), bar0Open s.dev port = true ∧ (getPort s.dev port).held = none ∧ regAt s.dev off.toNat = true ∧ off.toNat % 8 = 0 ∧ s.dev.ms.blocked = false)
    ∧ (∃ (s : State) (port : Fin 2) (off : BitVec 26) (h : HeldHalf) (d : Dev), bar0Open s.dev port = true ∧ (getPort s.dev port).held = some h ∧ off.toNat = h.off + 4 ∧ off.toNat % 8 = 4 ∧ h.off ≠ offID_SEM ∧ d = modPort s.dev port (fun p => { p with held := none }) ∧ SetupTaken d port h.off)
    ∧ (∃ (s : State) (port : Fin 2) (off : BitVec 26) (len : Fin 4097), bar0Open s.dev port = true ∧ (len.val = 4 ∨ len.val = 8) ∧ off.toNat % len.val = 0 ∧ regAt s.dev (off.toNat / 8 * 8) = true)
    ∧ (∃ (s : State) (port : Fin 2) (off : BitVec 26) (len : Fin 4097), bar0Open s.dev port = true ∧ (getPort s.dev port).held = none ∧ (¬((len.val = 4 ∨ len.val = 8) ∧ off.toNat % len.val = 0 ∧ regAt s.dev (off.toNat / 8 * 8) = true)))
    ∧ (∃ (s : State) (port : Fin 2) (h : HeldHalf), (getPort s.dev port).held = some h)
    ∧ (∃ (s : State) (port : Fin 2) (lease : BitVec 6), bar0Open s.dev port = true ∧ (getPort s.dev port).held = none ∧ lease.toNat ≠ 0 ∧ lease.toNat ≤ 60 ∧ (leaseFree s.dev = true ∨ getF s.dev fID_SEM_OWNER = port.val + 1))
    ∧ (∃ (s : State) (port : Fin 2) (lease : BitVec 6), bar0Open s.dev port = true ∧ (getPort s.dev port).held = none ∧ lease.toNat ≠ 0 ∧ lease.toNat ≤ 60 ∧ leaseFree s.dev = false ∧ getF s.dev fID_SEM_OWNER ≠ port.val + 1)
    ∧ (∃ (s : State) (port : Fin 2), bar0Open s.dev port = true ∧ (getPort s.dev port).held = none ∧ holdsLease s.dev port = true)
    ∧ (∃ (s : State), getF s.dev fID_SEM_OWNER ≠ 0)
    ∧ (∃ (s : State) (port : Fin 2), bar0Open s.dev port = true ∧ (getPort s.dev port).held = none ∧ regAt s.dev offOBS_WHOA_CTL = true ∧ holdsLease s.dev port = true ∧ whoaStopped s.dev = true ∧ stage s.dev = 2 ∧ tdiHolds s.dev offOBS_WHOA_CTL = false ∧ s.dev.obs.stopIn = false)
    ∧ (∃ (s : State) (d : Dev), s.dev.obs.stopIn = true ∧ d = setF { s.dev with obs := { s.dev.obs with stopIn := false } } fSU_PINS_STOP s.dev.obs.stopOut.toNat) :=
  ⟨⟨at_ up, 0, 0x500008, by decide +kernel, by decide +kernel, by decide +kernel⟩,
    ⟨at_ up, 0, 0x500008, by decide +kernel, by decide +kernel, by decide +kernel, by decide +kernel, (by decide +kernel)⟩,
    ⟨at_ (modPort up 0 (fun p => { p with held := some { off := 0x500008, data := 1, since := 5 } })), 0, 0x50000C, { off := 0x500008, data := 1, since := 5 }, _, by decide +kernel, by decide +kernel, by decide +kernel, by decide +kernel, (by decide +kernel), rfl, by decide +kernel⟩,
    ⟨at_ up, 0, 4, 4, by decide +kernel, by decide +kernel, by decide +kernel, by decide +kernel⟩,
    ⟨at_ up, 0, 3, 4, by decide +kernel, by decide +kernel, by decide +kernel⟩,
    ⟨at_ (modPort up 0 (fun p => { p with held := some { off := 8, data := 1, since := 5 } })), 0, { off := 8, data := 1, since := 5 }, by decide +kernel⟩,
    ⟨at_ up, 0, 60, by decide +kernel, by decide +kernel, by decide +kernel, by decide +kernel, (by decide +kernel)⟩,
    ⟨at_ up, 1, 1, by decide +kernel, by decide +kernel, by decide +kernel, by decide +kernel, (by decide +kernel), by decide +kernel⟩,
    ⟨at_ up, 0, by decide +kernel, by decide +kernel, by decide +kernel⟩,
    ⟨at_ up, by decide +kernel⟩,
    ⟨at_ (setF up fOBS_WHOA_CTL_STOPPED 1), 0, by decide +kernel, by decide +kernel, by decide +kernel, by decide +kernel, (by decide +kernel), by decide +kernel, by decide +kernel, by decide +kernel⟩,
    ⟨at_ ({ up with obs := { up.obs with stopIn := true } }), _, by decide +kernel, rfl⟩⟩

/-- The hypotheses of RingsComplete are met: one state for each of its clauses. -/
theorem test_meets_rings_complete :
    (∃ (s : State) (port : Fin 2) (vf : Option (Fin 16)) (page : Fin 4096) (off : Fin 4096) (len : Fin 65) (data : Word), pageAnswers s.dev port vf page = true ∧ off.val = 0 ∧ len.val = 8 ∧ fld data 63 32 = 0 ∧ fld data 31 16 < 64 ∧ (page.val % 256 = fld data 31 16 ∨ page.val % 256 = 64) ∧ getF s.dev (fCH_SQ_STATE_STATE (page.val / 256) (fld data 31 16)) = 1 ∧ fld data 15 0 < 2 ^ getF s.dev (fCH_SQ_CFG_LOG2SZ (page.val / 256) (fld data 31 16)))
    ∧ (∃ (s : State) (port : Fin 2) (vf : Option (Fin 16)) (page : Fin 4096) (off : Fin 4096) (len : Fin 65) (data : Word), pageAnswers s.dev port vf page = true ∧ off.val = 0 ∧ len.val = 8 ∧ fld data 63 32 = 0 ∧ 64 ≤ fld data 31 16 ∧ fld data 31 16 < 128 ∧ (page.val % 256 = fld data 31 16 - 64 ∨ page.val % 256 = 64) ∧ getF s.dev (fCH_CQ_STATE_STATE (page.val / 256) (fld data 31 16 - 64)) = 1 ∧ fld data 15 0 < 2 ^ getF s.dev (fCH_CQ_CFG_LOG2SZ (page.val / 256) (fld data 31 16 - 64)))
    ∧ (∃ (s : State) (chan : Fin 16) (ring : Fin 64) (mapped : Bool) (start : Nat) (k : Nat) (p : Nat) (key : Nat × Nat), p = portOf (getF s.dev (fCH_SQ_CFG_PORT chan ring)) ∧ key = (getF s.dev (fCH_SQ_CFG_PASID chan ring), ringPage s.dev chan ring start) ∧ chanLive s.dev chan ring = true ∧ getF s.dev (fCH_SQ_STATE_STATE chan ring) = 1 ∧ portUp s.dev p = true ∧ nextRead s.dev chan ring = (start, k) ∧ k ≠ 0 ∧ (ringPasid s.dev chan ring = none ∨ mapped = true ∨ (getPort s.dev p).atc.contains key = true) ∧ portReads s.dev p < 768)
    ∧ (∃ (s : State) (chan : Fin 16) (ring : Fin 64) (mapped : Bool) (start : Nat) (k : Nat) (p : Nat) (key : Nat × Nat), p = portOf (getF s.dev (fCH_SQ_CFG_PORT chan ring)) ∧ key = (getF s.dev (fCH_SQ_CFG_PASID chan ring), ringPage s.dev chan ring start) ∧ chanLive s.dev chan ring = true ∧ getF s.dev (fCH_SQ_STATE_STATE chan ring) = 1 ∧ portUp s.dev p = true ∧ nextRead s.dev chan ring = (start, k) ∧ k ≠ 0 ∧ (ringPasid s.dev chan ring = none ∨ mapped = true ∨ (getPort s.dev p).atc.contains key = true) ∧ 768 ≤ portReads s.dev p)
    ∧ (∃ (s : State) (chan : Fin 16) (ring : Fin 64) (mapped : Bool) (start : Nat) (k : Nat) (p : Nat) (key : Nat × Nat), p = portOf (getF s.dev (fCH_SQ_CFG_PORT chan ring)) ∧ key = (getF s.dev (fCH_SQ_CFG_PASID chan ring), ringPage s.dev chan ring start) ∧ chanLive s.dev chan ring = true ∧ getF s.dev (fCH_SQ_STATE_STATE chan ring) = 1 ∧ portUp s.dev p = true ∧ nextRead s.dev chan ring = (start, k) ∧ k ≠ 0 ∧ (ringPasid s.dev chan ring).isSome = true ∧ mapped = false ∧ (getPort s.dev p).atc.contains key = false ∧ (getPort s.dev p).pageReqs.length < 256 ∧ (getPort s.dev p).pageReqs.contains key = false)
    ∧ (∃ (s : State) (chan : Fin 16) (ring : Fin 64) (descs : List Block64) (r : FetchRead), (getCh s.dev chan).reads.find? (fun x => x.ring == ring.val) = some r ∧ r.pri = false ∧ descs.length = r.count ∧ whoaStopped s.dev = false ∧ getF s.dev (fCH_SQ_STATE_STATE chan ring) = 1)
    ∧ (∃ (s : State) (chan : Fin 16) (ring : Fin 64), (getCh s.dev chan).reads.any (fun r => r.ring == ring.val) = true ∧ getF s.dev (fCH_SQ_STATE_STATE chan ring) = 1)
    ∧ (∃ (s : State) (chan : Fin 16) (tag : Nat) (f : Fetched) (heads : List (Nat × Fetched)), ¬(stage s.dev = 1 ∧ stepDone s.dev 12 = true) ∧ heads = (List.range 64).filterMap (fun n => ringHead s.dev chan n) ∧ (∀ h ∈ heads, coopWaits s.dev chan h.1 h.2 = false) ∧ firstBy (fun h => ringOrder s.dev chan h.2.ring) heads = some (tag, f)) :=
  ⟨⟨at_ run, 0, none, 64, 0, 8, 0x3F, by decide +kernel, by decide +kernel, by decide +kernel, by decide +kernel, (by decide +kernel), by decide +kernel, by decide +kernel, by decide +kernel⟩,
    ⟨at_ run, 0, none, 0, 0, 8, 0x400001, by decide +kernel, by decide +kernel, by decide +kernel, by decide +kernel, (by decide +kernel), by decide +kernel, by decide +kernel, by decide +kernel, by decide +kernel⟩,
    ⟨at_ (setF run (fCH_SQ_STATE_TAIL 0 0) 3), 0, 0, true, 0, 3, _, _, rfl, rfl, by decide +kernel, by decide +kernel, by decide +kernel, by decide +kernel, (by decide +kernel), by decide +kernel, by decide +kernel⟩,
    ⟨at_ (modCh (setF (setF run (fCH_SQ_STATE_TAIL 0 0) 3) (fCH_SQ_CFG_PORT 1 0) 1) 1 (fun ch => { ch with reads := List.replicate 768 { ring := 0, index := 0, count := 1, pri := false } })), 0, 0, true, 0, 3, _, _, rfl, rfl, by decide +kernel, by decide +kernel, by decide +kernel, by decide +kernel, (by decide +kernel), by decide +kernel, by decide +kernel⟩,
    ⟨at_ (setF run (fCH_SQ_STATE_TAIL 0 0) 3), 0, 0, false, 0, 3, _, _, rfl, rfl, by decide +kernel, by decide +kernel, by decide +kernel, by decide +kernel, (by decide +kernel), by decide +kernel, by decide +kernel, by decide +kernel, by decide +kernel, (by decide +kernel)⟩,
    ⟨at_ (modCh run 0 (fun ch => { ch with reads := [{ ring := 0, index := 0, count := 2, pri := false }] })), 0, 0, [0, 0], { ring := 0, index := 0, count := 2, pri := false }, by decide +kernel, by decide +kernel, by decide +kernel, by decide +kernel, (by decide +kernel)⟩,
    ⟨at_ (modCh run 0 (fun ch => { ch with reads := [{ ring := 0, index := 0, count := 2, pri := false }] })), 0, 0, by decide +kernel, by decide +kernel⟩,
    ⟨at_ (modCh run 0 (fun ch => { ch with fetched := [{ ring := 0, index := 0, desc := 8, requeued := false }] })), 0, 0, { ring := 0, index := 0, desc := 8, requeued := false }, _, by decide +kernel, rfl, by decide +kernel, by decide +kernel⟩⟩

/-- The hypotheses of ChannelEventsComplete are met: one state for each of its clauses. -/
theorem test_meets_channel_events_complete :
    (∃ (s : State) (key : Nat) (d : Nat) (c : Cmd), getCmd s.dev key = some c ∧ c.deadline = some d ∧ whoaStopped s.dev = false ∧ c.saved = false ∧ frozenSlice s.dev c.tag = false ∧ c.status = none)
    ∧ (∃ (s : State) (chan : Fin 16) (cq : Fin 64), (getCqr s.dev chan cq).count ≠ 0 ∧ getF s.dev (fCH_CQ_CFG_MOD_US chan cq) ≠ 0 ∧ getF s.dev (fCH_CQ_CFG_IRQ_EN chan cq) = 1 ∧ getF s.dev (fCH_CQ_STATE_STATE chan cq) = 1 ∧ whoaStopped s.dev = false)
    ∧ (∃ (s : State) (chan : Fin 16) (cq : Fin 64), getF s.dev (fCH_CQ_STATE_STATE chan cq) = 1)
    ∧ (∃ (s : State) (port : Fin 2), portUp s.dev port = true)
    ∧ (∃ (s : State) (port : Fin 2) (chan : Fin 16), SetupTaken s.dev port (offCH_RESET chan)) :=
  ⟨⟨at_ (sent1 { cmd 1 with deadline := some 5 }), 7, 5, { cmd 1 with deadline := some 5 }, by decide +kernel, by decide +kernel, by decide +kernel, by decide +kernel, (by decide +kernel), by decide +kernel⟩,
    ⟨at_ (setCqr (setF (setF run (fCH_CQ_CFG_MOD_US 0 0) 5) (fCH_CQ_CFG_IRQ_EN 0 0) 1) 0 0 { count := 1, first := 0 }), 0, 0, by decide +kernel, by decide +kernel, by decide +kernel, by decide +kernel, (by decide +kernel)⟩,
    ⟨at_ run, 0, 0, by decide +kernel⟩,
    ⟨at_ up, 1, by decide +kernel⟩,
    ⟨at_ up, 0, 15, by decide +kernel⟩⟩

/-- The hypotheses of RingEnablesComplete are met: one state for each of its clauses. -/
theorem test_meets_ring_enables_complete :
    (∃ (s : State) (port : Fin 2) (chan : Fin 16) (ring : Fin 64) (data : Word) (s1 : Dev), SetupTaken s.dev port (offCH_SQ_CFG chan ring) ∧ getF s.dev (fCH_SQ_CFG_ENABLE chan ring) = 0 ∧ s1 = writeReg s.dev (offCH_SQ_CFG chan ring) (data ||| 1) ∧ 6 ≤ getF s1 (fCH_SQ_CFG_LOG2SZ chan ring) ∧ getF s1 (fCH_SQ_CFG_LOG2SZ chan ring) ≤ 16 ∧ (getF s1 (fCH_SQ_CFG_PORT chan ring) = 1 ∨ getF s1 (fCH_SQ_CFG_PORT chan ring) = 2) ∧ getF s1 (fCH_CQ_STATE_STATE chan (getF s1 (fCH_SQ_CFG_CQ chan ring))) = 1 ∧ pasidOk s1 chan (getF s1 (fCH_SQ_CFG_PASID chan ring)) = true)
    ∧ (∃ (s : State) (port : Fin 2) (chan : Fin 16) (ring : Fin 64) (data : Word), SetupTaken s.dev port (offCH_SQ_CFG chan ring) ∧ getF s.dev (fCH_SQ_CFG_ENABLE chan ring) = 1 ∧ othersChange s.dev (offCH_SQ_CFG chan ring) (putFld data 0 0 0) = false)
    ∧ (∃ (s : State) (port : Fin 2) (chan : Fin 16) (ring : Fin 64) (data : Word) (s1 : Dev), SetupTaken s.dev port (offCH_CQ_CFG chan ring) ∧ getF s.dev (fCH_CQ_CFG_ENABLE chan ring) = 0 ∧ s1 = writeReg s.dev (offCH_CQ_CFG chan ring) (data ||| 1) ∧ 6 ≤ getF s1 (fCH_CQ_CFG_LOG2SZ chan ring) ∧ getF s1 (fCH_CQ_CFG_LOG2SZ chan ring) ≤ 16 ∧ (getF s1 (fCH_CQ_CFG_PORT chan ring) = 1 ∨ getF s1 (fCH_CQ_CFG_PORT chan ring) = 2) ∧ (getF s1 (fCH_CQ_CFG_VFV chan ring) = 0 ∨ getF s1 (fCH_CQ_CFG_VECTOR chan ring) < 64) ∧ pasidOk s1 chan (getF s1 (fCH_CQ_CFG_PASID chan ring)) = true)
    ∧ (∃ (s : State) (port : Fin 2) (chan : Fin 16) (ring : Fin 64) (data : Word), SetupTaken s.dev port (offCH_CQ_CFG chan ring) ∧ getF s.dev (fCH_CQ_CFG_ENABLE chan ring) = 1 ∧ othersChange s.dev (offCH_CQ_CFG chan ring) (putFld data 0 0 0) = false ∧ cqNamed s.dev chan ring = false) :=
  ⟨⟨at_ run, 0, 0, 1, 0x510000000600, _, by decide +kernel, by decide +kernel, rfl, by decide +kernel, by decide +kernel, by decide +kernel, by decide +kernel, (by decide +kernel)⟩,
    ⟨at_ run, 0, 0, 0, 0x510000000600, by decide +kernel, by decide +kernel, by decide +kernel⟩,
    ⟨at_ run, 0, 0, 1, 0x51000000000C, _, by decide +kernel, by decide +kernel, rfl, by decide +kernel, by decide +kernel, by decide +kernel, by decide +kernel, (by decide +kernel)⟩,
    ⟨at_ (setF run (fCH_CQ_CFG_ENABLE 0 63) 1), 0, 0, 63, 0, by decide +kernel, by decide +kernel, by decide +kernel, by decide +kernel⟩⟩

/-- The hypotheses of KernelsComplete are met: one state for each of its clauses. -/
theorem test_meets_kernels_complete :
    (∃ (s : State) (key : Nat) (c : Cmd) (c2 : Cmd) (d : Dev), CmdRuns s.dev key 1 .dispatched c ∧ kernelBad s.dev c = false ∧ kCoop c.desc = false ∧ d = placeAll 6144 (modCmd s.dev key (fun c => { c with phase := .running })) c.tag ∧ getCmd d key = some c2 ∧ c2.nextBlock ≠ 0)
    ∧ (∃ (s : State) (key : Nat) (c : Cmd) (d : Dev), CmdRuns s.dev key 1 .dispatched c ∧ kernelBad s.dev c = false ∧ kCoop c.desc = true ∧ placeWhole (kNblk c.desc) s.dev key = some d)
    ∧ (∃ (s : State) (owner : Fin 18) (d : Dev), whoaStopped s.dev = false ∧ (ownerTags owner).any (frozenSlice s.dev) = false ∧ (ownerTags owner).findSome? (placeNext s.dev) = some d)
    ∧ (∃ (s : State) (key : Nat) (pin : Nat) (cls : List Nat) (c : Cmd) (r : MsRes), CmdRuns s.dev key 0x0C .dispatched c ∧ msBad s.dev c = false ∧ (msSelects s.dev c.tag c.desc).all (regionIdle s.dev c.tag) = true ∧ pin = getF s.dev (fSLC_CFG_PIN_KIB c.tag) * 1024 ∧ cls = (msSelects s.dev c.tag c.desc).flatMap regionClusters ∧ r = (cls.zip (List.range cls.length)).foldl (msCluster c pin) { dev := s.dev, err := none, lost := false, poison := false } ∧ r.err = none ∧ r.lost = false ∧ r.poison = false) :=
  ⟨⟨at_ (sent1 (cmd (desc [1, 0, 0x10000, 0x20000, 0, 1]))), 7, cmd (desc [1, 0, 0x10000, 0x20000, 0, 1]), { cmd (desc [1, 0, 0x10000, 0x20000, 0, 1]) with phase := .running, nextBlock := 1, cores := [0] }, _, by decide +kernel, by decide +kernel, by decide +kernel, rfl, by decide +kernel, by decide +kernel⟩,
    ⟨at_ (sent1 (cmd (desc [1, 0, 0x10000, 0x20000, 0, 0x4000000000001]))), 7, cmd (desc [1, 0, 0x10000, 0x20000, 0, 0x4000000000001]), (placeWhole 1 (sent1 (cmd (desc [1, 0, 0x10000, 0x20000, 0, 0x4000000000001]))) 7).getD run, by decide +kernel, by decide +kernel, by decide +kernel, by decide +kernel⟩,
    ⟨at_ (sent1 { cmd (desc [1, 0, 0x10000, 0x20000, 0, 1]) with phase := .running }), 0, (placeNext (sent1 { cmd (desc [1, 0, 0x10000, 0x20000, 0, 1]) with phase := .running }) 0).getD run, by decide +kernel, by decide +kernel, by decide +kernel⟩,
    ⟨at_ (setF (sent1 (cmd (desc [0x0C]))) (fSLC_RGNS_REGIONS 0) 0), 7, _, _, cmd (desc [0x0C]), _, by decide +kernel, by decide +kernel, by decide +kernel, rfl, rfl, rfl, by decide +kernel, by decide +kernel, by decide +kernel⟩⟩

/-- The hypotheses of ChannelCommandsComplete are met: one state for each of its clauses. -/
theorem test_meets_channel_commands_complete :
    (∃ (s : State) (key : Nat) (pa : Nat) (c : Cmd) (s1 : Dev) (s2 : Dev) (attr : PageAttr) (d : LineData) (m : BitVec 8) (w : WrRes), CmdRuns s.dev key 8 .dispatched c ∧ c.key = key ∧ sgADDR c.desc % 8 = 0 ∧ translate s.dev c.tag (sgADDR c.desc) true = (s1, .ok pa attr) ∧ placeOf s1 pa = .tier ∧ cohRmw s1 c.tag pa attr { kind := .op false, need := BitVec.ofNat 8 (maskSectors (255 * 2 ^ (pa % 512))), mask := 255 * 2 ^ (pa % 512), poison := 0, thr := noThread, f := signalLine (sgOP c.desc) (pa % 512) (sgVALUE c.desc) } = (s2, d, m, w) ∧ w.err = none ∧ w.lost = false)
    ∧ (∃ (s : State) (key : Nat) (pa : Nat) (cl : Nat) (o : Nat) (c : Cmd) (s1 : Dev) (s2 : Dev) (attr : PageAttr) (d : LineData) (m : BitVec 8), CmdRuns s.dev key 8 .dispatched c ∧ c.key = key ∧ sgADDR c.desc % 8 = 0 ∧ translate s.dev c.tag (sgADDR c.desc) true = (s1, .ok pa attr) ∧ placeOf s1 pa = .spad cl o ∧ dieLost s1 (cl / 24) = false ∧ spadOwner s1 c.tag cl = true ∧ spadRmw s1 cl o (255 * 2 ^ (pa % 512)) 0 noThread (signalLine (sgOP c.desc) (o % 512) (sgVALUE c.desc)) = (s2, d, m))
    ∧ (∃ (s : State) (key : Nat) (pa : Nat) (port : Nat) (h : Nat) (c : Cmd) (s1 : Dev) (s2 : Dev) (attr : PageAttr) (w : WrRes), CmdRuns s.dev key 8 .dispatched c ∧ c.key = key ∧ sgADDR c.desc % 8 = 0 ∧ translate s.dev c.tag (sgADDR c.desc) true = (s1, .ok pa attr) ∧ placeOf s1 pa = .host port h ∧ c.tag < 0x20 ∧ sgOP c.desc = 0 ∧ writePa s1 none c.tag pa attr (BitVec.ofNat 4096 (sgVALUE c.desc * 2 ^ (8 * (pa % 512)))) (255 * 2 ^ (pa % 512)) 0 noThread key = (s2, w) ∧ w.err = none ∧ w.lost = false)
    ∧ (∃ (s : State) (key : Nat) (pa : Nat) (c : Cmd) (s1 : Dev) (s2 : Dev) (attr : PageAttr) (r : AccRes) (again : Bool), CmdRuns s.dev key 9 (if again then .running else .dispatched) c ∧ c.key = key ∧ sgADDR c.desc % 8 = 0 ∧ translate s.dev c.tag (sgADDR c.desc) false = (s1, .ok pa attr) ∧ placeOf s1 pa = .tier ∧ c.tag < 0x10 ∧ readPa s1 none c.tag pa 8 attr = (s2, r) ∧ r.err = none ∧ anyPoison r.bytes = false)
    ∧ (∃ (s : State) (key : Nat) (c : Cmd), CmdRuns s.dev key 0x0A .dispatched c ∧ fnROP c.desc = 0)
    ∧ (∃ (s : State) (key : Nat) (c : Cmd) (d : Dev), CmdRuns s.dev key 0x0A .dispatched c ∧ fnROP c.desc ≠ 0 ∧ fenceBad c.desc = false ∧ fenceRange (ropOf (fnROP c.desc)) (key + 1) c.tag 130 s.dev (fnADDR c.desc) (fnLINES c.desc) = (d, none))
    ∧ (∃ (s : State) (key : Nat) (c : Cmd), CmdRuns s.dev key 0x0B .dispatched c) :=
  ⟨⟨at_ (sent1 sigCmd), 7, 0x100, sigCmd, sent1 sigCmd, sigEnd.1, page, sigEnd.2.1, sigEnd.2.2.1, sigEnd.2.2.2, by decide +kernel, by decide +kernel, by decide +kernel, by decide +kernel, (by decide +kernel), by decide +kernel, by decide +kernel, by decide +kernel⟩,
    ⟨at_ (sent1 sigSpad), 7, 0x040000000100, 0, 0x100, sigSpad, sent1 sigSpad, sigSpadEnd.1, page, sigSpadEnd.2.1, sigSpadEnd.2.2, by decide +kernel, by decide +kernel, by decide +kernel, by decide +kernel, (by decide +kernel), by decide +kernel, by decide +kernel, by decide +kernel⟩,
    ⟨at_ sigHost, 7, 0x080000000100, 0, 0x100, cmd (desc [8, 0, 0x80000100, 5]), sigHost, sigHostEnd.1, page, sigHostEnd.2, by decide +kernel, by decide +kernel, by decide +kernel, by decide +kernel, (by decide +kernel), by decide +kernel, by decide +kernel, by decide +kernel, by decide +kernel, (by decide +kernel)⟩,
    ⟨at_ (sent1 waitCmd), 7, 0x100, waitCmd, sent1 waitCmd, waitEnd.1, page, waitEnd.2, false, by decide +kernel, by decide +kernel, by decide +kernel, by decide +kernel, (by decide +kernel), by decide +kernel, by decide +kernel, by decide +kernel, by decide +kernel⟩,
    ⟨at_ (sent1 (cmd (desc [0x0A]))), 7, cmd (desc [0x0A]), by decide +kernel, by decide +kernel⟩,
    ⟨at_ (sent1 fenceCmd), 7, fenceCmd, (fenceRange .flush 8 0 130 (sent1 fenceCmd) 0x200 2).1, by decide +kernel, by decide +kernel, by decide +kernel, by decide +kernel⟩,
    ⟨at_ (sent1 (cmd (desc [0x0B]))), 7, cmd (desc [0x0B]), by decide +kernel⟩⟩

/-- The hypotheses of MoversComplete are met: one state for each of its clauses. -/
theorem test_meets_movers_complete :
    (∃ (s : State) (op : OpRef) (f : Flaw) (o : MvOp) (d : Dev) (t : MvRes), MoverRuns (flawIn f s.dev) 2 op o ∧ inFlight o.id (fun s => (markSources o (((srcRuns o.desc).zip (dstRuns o.desc)).foldl (copyRun o) (s, MvRes.start)).2.runs (((srcRuns o.desc).zip (dstRuns o.desc)).foldl (copyRun o) (s, MvRes.start)).1, (((srcRuns o.desc).zip (dstRuns o.desc)).foldl (copyRun o) (s, MvRes.start)).2)) (flawIn f s.dev) = (d, t))
    ∧ (∃ (s : State) (op : OpRef) (f : Flaw) (o : MvOp) (d : Dev) (t : MvRes), MoverRuns (flawIn f s.dev) 3 op o ∧ inFlight o.id (fun s => (dstRuns o.desc).foldl (fillRun o) (s, MvRes.start)) (flawIn f s.dev) = (d, t))
    ∧ (∃ (s : State) (op : OpRef) (f : Flaw) (o : MvOp) (d : Dev) (t : MvRes), MoverRuns (flawIn f s.dev) 4 op o ∧ inFlight o.id (fun s => (markSources o (((srcRuns o.desc).zip (dstRuns o.desc)).foldl (reduceRun o) (s, MvRes.start)).2.runs (((srcRuns o.desc).zip (dstRuns o.desc)).foldl (reduceRun o) (s, MvRes.start)).1, (((srcRuns o.desc).zip (dstRuns o.desc)).foldl (reduceRun o) (s, MvRes.start)).2)) (flawIn f s.dev) = (d, t))
    ∧ (∃ (s : State) (op : OpRef) (f : Flaw) (o : MvOp) (d : Dev) (t : MvRes), MoverRuns (flawIn f s.dev) 5 op o ∧ inFlight o.id (fun s => (List.range (mvN1 o.desc)).foldl (gatherStep o) (s, MvRes.start)) (flawIn f s.dev) = (d, t))
    ∧ (∃ (s : State) (op : OpRef) (f : Flaw) (o : MvOp) (d : Dev) (t : MvRes), MoverRuns (flawIn f s.dev) 6 op o ∧ inFlight o.id (fun s => ((runLines o.desc (srcRuns o.desc)).map (fun l => l * 512)).foldl (prefetchLine o) (s, MvRes.start)) (flawIn f s.dev) = (d, t))
    ∧ (∃ (s : State) (key : Nat) (e : Nat) (c : Cmd), whoaStopped s.dev = false ∧ getCmd s.dev key = some c ∧ isMover (dOpcode c.desc) = true ∧ c.moved = true ∧ c.phase ≠ .draining ∧ orderedLeft s.dev key = false ∧ engineOf s.dev c.tag c.chan c.desc = some e)
    ∧ (∃ (s : State) (cl : Fin 192) (id : Nat) (o : DmaOp), whoaStopped s.dev = false ∧ (getCl s.dev cl).dmaQ.find? (fun o => o.id == id) = some o ∧ o.phase = .moved ∧ orderedLeft s.dev id = false ∧ peerBusy s.dev o.cmd = false) :=
  ⟨⟨at_ (sent1 copy), .chan 7, .none, copyOp, copyEnd.1, copyEnd.2, ⟨by decide +kernel, by decide +kernel, by decide +kernel, by decide +kernel, by intro k h; cases h; decide +kernel, by decide +kernel, by decide +kernel⟩, pair_eta copyEnd⟩,
    ⟨at_ (sent1 fill), .chan 7, .none, fillOp, fillEnd.1, fillEnd.2, ⟨by decide +kernel, by decide +kernel, by decide +kernel, by decide +kernel, by intro k h; cases h; decide +kernel, by decide +kernel, by decide +kernel⟩, pair_eta fillEnd⟩,
    ⟨at_ (sent1 reduce), .chan 7, .none, reduceOp, reduceEnd.1, reduceEnd.2, ⟨by decide +kernel, by decide +kernel, by decide +kernel, by decide +kernel, by intro k h; cases h; decide +kernel, by decide +kernel, by decide +kernel⟩, pair_eta reduceEnd⟩,
    ⟨at_ (sent1 gather), .chan 7, .none, gatherOp, gatherEnd.1, gatherEnd.2, ⟨by decide +kernel, by decide +kernel, by decide +kernel, by decide +kernel, by intro k h; cases h; decide +kernel, by decide +kernel, by decide +kernel⟩, pair_eta gatherEnd⟩,
    ⟨at_ (sent1 prefetch), .chan 7, .none, prefetchOp, prefetchEnd.1, prefetchEnd.2, ⟨by decide +kernel, by decide +kernel, by decide +kernel, by decide +kernel, by intro k h; cases h; decide +kernel, by decide +kernel, by decide +kernel⟩, pair_eta prefetchEnd⟩,
    ⟨at_ (sent1 { copy with phase := .running, moved := true }), 7, 0, { copy with phase := .running, moved := true }, by decide +kernel, by decide +kernel, by decide +kernel, by decide +kernel, (by decide +kernel), by decide +kernel, by decide +kernel⟩,
    ⟨at_ (modCl (onCore grp) 0 (fun c => { c with dmaQ := [copyDma] })), 0, 9, copyDma, by decide +kernel, by decide +kernel, by decide +kernel, by decide +kernel, (by decide +kernel)⟩⟩

/-- The hypotheses of DmaAndOrderedComplete are met: one state for each of its clauses. -/
theorem test_meets_dma_and_ordered_complete :
    (∃ (s : State) (iw : IWord) (g : Group) (c : Cmd) (d : Block64) (o : DmaOp) (qs : List TrkReq) (d1 : Dev) (d2 : Dev), Issues s.dev iw [] ((List.range 8).map (fun i => xSC iw + i)) g ∧ xRES iw = 0 ∧ xSD1 iw = 0 ∧ xSD2 iw = 0 ∧ xSC iw % 8 = 0 ∧ execOnce g iw = true ∧ getCmd s.dev g.cmd = some c ∧ d = regDesc g c (xSC iw) ∧ isMover (dOpcode d) = true ∧ mvInvalid s.dev c.tag d (512 * 1024) = false ∧ mcastRefused s.dev c.tag c.chan d = false ∧ (getCl s.dev (coreCluster iw.core)).dmaQ.length < 16 ∧ tokCount g (xTOK iw) ≠ 255 ∧ qs = mvReqs s.dev c.tag d ∧ asyncReady s.dev iw.core qs = true ∧ o = { id := s.dev.nextKey, core := iw.core, slot := iw.slot, cmd := g.cmd, tok := xTOK iw, desc := d, phase := .queued, poison := asyPoison g iw ((List.range 8).map (fun i => xSC iw + i)) } ∧ d1 = modCl (mvInval (trkTake s.dev iw.core o.id g.cmd qs) iw.core c.tag d) (coreCluster iw.core) (fun x => { x with dmaQ := x.dmaQ ++ [o] }) ∧ d2 = (if o.poison then markPoison d1 g.cmd else d1))
    ∧ (∃ (s : State) (id : Nat) (n : Nat) (e : Nat) (e2 : Nat) (q : OrdOp) (d : Dev), whoaStopped s.dev = false ∧ s.dev.ms.ordSent.find? (fun q => q.id == id) = some q ∧ n = getF s.dev (fCD_SLICE_CFG_ORED_NM1 q.slice) + 1 ∧ e = ((ordEntry s.dev q.home (q.pa / 64)).map (fun x => x.expect)).getD 0 ∧ ((ordEntry s.dev q.home (q.pa / 64)).isSome = true ∨ (s.dev.ms.ordSectors.filter (fun x => x.home == q.home)).length < 1024) ∧ q.rank = e ∧ ordChain n q.home (q.pa / 64) (s.dev.ms.reorder.length + 1) (ordApply (modMs s.dev (fun m => { m with ordSent := m.ordSent.filter (fun x => x.id != id) })) q) ((e + 1) % n) = (d, e2))
    ∧ (∃ (s : State) (id : Nat) (e : Nat) (q : OrdOp), whoaStopped s.dev = false ∧ s.dev.ms.ordSent.find? (fun q => q.id == id) = some q ∧ e = ((ordEntry s.dev q.home (q.pa / 64)).map (fun x => x.expect)).getD 0 ∧ ((ordEntry s.dev q.home (q.pa / 64)).isSome = true ∨ (s.dev.ms.ordSectors.filter (fun x => x.home == q.home)).length < 1024) ∧ q.rank ≠ e ∧ (s.dev.ms.reorder.filter (fun x => x.home == q.home)).length < 256) :=
  ⟨⟨at_ (onCore dmaGrp), ins [(12, 8), (30, 1)], dmaGrp, kernel, _, _, _, _, _, by decide +kernel, by decide +kernel, by decide +kernel, by decide +kernel, (by decide +kernel), by decide +kernel, by decide +kernel, rfl, by decide +kernel, by decide +kernel, by decide +kernel, by decide +kernel, (by decide +kernel), rfl, by decide +kernel, rfl, rfl, rfl⟩,
    ⟨at_ (ordDev 0), 3, _, _, ordEnd.2, ord 0, ordEnd.1, by decide +kernel, by decide +kernel, rfl, rfl, by decide +kernel, by decide +kernel, by decide +kernel⟩,
    ⟨at_ (ordDev 1), 3, _, ord 1, by decide +kernel, by decide +kernel, rfl, by decide +kernel, by decide +kernel, by decide +kernel⟩⟩

/-- The hypotheses of HostPortsComplete are met: one state for each of its clauses. -/
theorem test_meets_host_ports_complete :
    (∃ (s : State) (port : Fin 2) (addr : Nat) (data : List Byte) (f : Flaw) (d : Dev) (w : WrRes), portUp (flawIn f s.dev) port = true ∧ whoaStopped (flawIn f s.dev) = false ∧ writeBytesVa (wakeWindow (flawIn f s.dev) addr) none 0x10 0 addr (data.map (fun b => (b, false))) = (d, w))
    ∧ (∃ (s : State) (port : Fin 2) (addr : Nat) (len : Nat) (f : Flaw) (d : Dev) (r : AccRes), portUp (flawIn f s.dev) port = true ∧ whoaStopped (flawIn f s.dev) = false ∧ readBytesVa (wakeWindow (flawIn f s.dev) addr) none 0x10 addr len = (d, r))
    ∧ (∃ (s : State) (port : Fin 2), portUp s.dev port = true ∧ whoaStopped s.dev = true)
    ∧ (∃ (s : State) (port : Fin 2), portUp s.dev port = true ∧ whoaStopped s.dev = true)
    ∧ (∃ (s : State) (port : Fin 2), portUp s.dev port = true)
    ∧ (∃ (s : State) (port : Fin 2) (pasid : Nat) (page : Nat) (d : Dev), (getPort s.dev port).pageReqs.contains (pasid, page) = true ∧ d = modPort s.dev port (fun x => { x with pageReqs := x.pageReqs.filter (fun e => e != (pasid, page)) }))
    ∧ (∃ (s : State) (port : Fin 2) (pasid : Nat) (page : Nat) (d : Dev), (getPort s.dev port).pageReqs.contains (pasid, page) = true ∧ d = modPort s.dev port (fun x => { x with pageReqs := x.pageReqs.filter (fun e => e != (pasid, page)) }))
    ∧ (∃ (s : State) (chan : Fin 16) (ring : Fin 64), (getCh s.dev chan).reads.any (fun r => r.ring == ring.val) = true ∧ getF s.dev (fCH_SQ_STATE_STATE chan ring) = 1)
    ∧ (∃ (s : State) (core : Fin 768) (id : Nat) (p : Nat) (h : Nat) (q : MemReq), (getCore s.dev core).reqs.find? (fun q => q.id == id) = some q ∧ placeOf s.dev (q.line * 512) = .host p h ∧ q.served = false)
    ∧ (∃ (s : State) (port : Fin 2), portUp s.dev port = true)
    ∧ (∃ (s : State) (port : Fin 2), portUp s.dev port = true)
    ∧ (∃ (s : State) (port : Fin 2), portUp s.dev port = true)
    ∧ (∃ (s : State) (port : Fin 2), portUp s.dev port = true)
    ∧ (∃ (s : State) (port : Fin 2) (vf : Option (Fin 16)) (v : Fin 2048) (d : Dev), portUp s.dev port = true ∧ (getPort s.dev port).msixOff.contains (vecKey (vf.map Fin.val) v) = true ∧ d = modPort s.dev port (fun x => { x with msixOff := x.msixOff.filter (fun e => e != vecKey (vf.map Fin.val) v), pendingVec := x.pendingVec.filter (fun e => e != vecKey (vf.map Fin.val) v) })) :=
  ⟨⟨at_ run, 0, 0x1000, [1, 2], .none, barWrite.1, barWrite.2, by decide +kernel, by decide +kernel, pair_eta barWrite⟩,
    ⟨at_ run, 1, 0x1000, 8, .none, barRead.1, barRead.2, by decide +kernel, by decide +kernel, pair_eta barRead⟩,
    ⟨at_ (setF up fOBS_WHOA_CTL_STOPPED 1), 0, by decide +kernel, by decide +kernel⟩,
    ⟨at_ (setF up fOBS_WHOA_CTL_STOPPED 1), 1, by decide +kernel, by decide +kernel⟩,
    ⟨at_ up, 0, by decide +kernel⟩,
    ⟨at_ (modPort up 0 (fun x => { x with pageReqs := [(5, 9)] })), 0, 5, 9, _, by decide +kernel, rfl⟩,
    ⟨at_ (modPort up 0 (fun x => { x with pageReqs := [(5, 9)] })), 0, 5, 9, _, by decide +kernel, rfl⟩,
    ⟨at_ (modCh run 0 (fun ch => { ch with reads := [{ ring := 0, index := 0, count := 2, pri := false }] })), 0, 0, by decide +kernel, by decide +kernel⟩,
    ⟨at_ (asked { load with line := 0x080000000000 / 512 }), 0, 9, 0, 0, { load with line := 0x080000000000 / 512 }, by decide +kernel, by decide +kernel, by decide +kernel⟩,
    ⟨at_ up, 0, by decide +kernel⟩,
    ⟨at_ up, 0, by decide +kernel⟩,
    ⟨at_ up, 1, by decide +kernel⟩,
    ⟨at_ up, 1, by decide +kernel⟩,
    ⟨at_ (modPort up 0 (fun x => { x with msixOff := [2047] })), 0, none, 2047, _, by decide +kernel, by decide +kernel, rfl⟩⟩

/-- The hypotheses of SliceCommandsComplete are met: one state for each of its clauses. -/
theorem test_meets_slice_commands_complete :
    (∃ (s : State) (port : Fin 2) (slice : Fin 16) (s1 : Dev), SetupTaken s.dev port (offSLC_CTL slice) ∧ slState s.dev slice ≤ 1 ∧ starting s.dev slice = false ∧ s1 = readCtxTab (writeReg s.dev (offSLC_CTL slice) (slcWord 1 0 false)) slice ∧ startCheck s1 slice = none)
    ∧ (∃ (s : State) (port : Fin 2) (slice : Fin 16), SetupTaken s.dev port (offSLC_CTL slice) ∧ slState s.dev slice = 2 ∧ dumping s.dev slice = false ∧ starting s.dev slice = false)
    ∧ (∃ (s : State) (slice : Fin 16) (d : Dev), slState s.dev slice = 3 ∧ d = ((s.dev.cmds.filter (fun c => c.tag == slice.val && !c.saved)).map (fun c => c.key)).foldl (fun s k => failCmd s k 0x05) s.dev)
    ∧ (∃ (s : State) (port : Fin 2) (slice : Fin 16), SetupTaken s.dev port (offSLC_CTL slice) ∧ slState s.dev slice = 1 ∧ dumping s.dev slice = false ∧ starting s.dev slice = false)
    ∧ (∃ (s : State) (port : Fin 2) (slice : Fin 16), SetupTaken s.dev port (offSLC_CTL slice) ∧ slState s.dev slice = 1 ∧ dumping s.dev slice = false ∧ starting s.dev slice = false)
    ∧ (∃ (s : State) (port : Fin 2) (slice : Fin 16), SetupTaken s.dev port (offSLC_CTL slice) ∧ (slState s.dev slice = 1 ∨ slState s.dev slice = 2) ∧ starting s.dev slice = false)
    ∧ (∃ (s : State) (port : Fin 2) (slice : Fin 16), SetupTaken s.dev port (offSLC_RGNS slice) ∧ slFixed s.dev slice = false)
    ∧ (∃ (s : Dev) (slice : Nat), slState s slice = 4)
    ∧ (∃ (s : Dev) (slice : Nat), slState s slice = 4) :=
  ⟨⟨at_ (setF (setF (setF (setF up (fSLC_PASID_VALID 1 0) 1) (fSLC_PASID_PASID 1 0) 6) (fSLC_PTBASE_BASE 1) 8) (fSLC_CHAN_CHANNELS 1) 2), 0, 1, _, by decide +kernel, by decide +kernel, by decide +kernel, rfl, by decide +kernel⟩,
    ⟨at_ run, 0, 0, by decide +kernel, by decide +kernel, by decide +kernel, by decide +kernel⟩,
    ⟨at_ (setF (sent1 (cmd 1)) (fSLC_CTL_STATE 0) 3), 0, _, by decide +kernel, rfl⟩,
    ⟨at_ (setF run (fSLC_CTL_STATE 0) 1), 0, 0, by decide +kernel, by decide +kernel, by decide +kernel, by decide +kernel⟩,
    ⟨at_ (setF run (fSLC_CTL_STATE 0) 1), 0, 0, by decide +kernel, by decide +kernel, by decide +kernel, by decide +kernel⟩,
    ⟨at_ run, 0, 0, by decide +kernel, by decide +kernel, by decide +kernel⟩,
    ⟨at_ (setF run (fSLC_CTL_STATE 0) 1), 0, 0, by decide +kernel, by decide +kernel⟩,
    ⟨setF run (fSLC_CTL_STATE 0) 4, 0, by decide +kernel⟩,
    ⟨setF run (fSLC_CTL_STATE 0) 4, 0, by decide +kernel⟩⟩

/-- The hypotheses of RegionTimesComplete are met: one state for each of its clauses. -/
theorem test_meets_region_times_complete :
    (∃ (s : State) (port : Fin 2) (nfm1 : BitVec 16), SetupTaken s.dev port offSLC_PG_CMD ∧ s.dev.pgq.length < 16 ∧ (List.range (nfm1.toNat + 1)).any (fun i => frameBad s.dev (getF s.dev fSLC_PG_BASE_FRAME + i)) = false)
    ∧ (∃ (s : State) (f : Nat) (n : Nat) (rest : List (Nat × Nat)), s.dev.pgq = (f, n) :: rest ∧ (List.range n).find? (fun i => frameBad s.dev (f + i)) = none)
    ∧ (∃ (s : State) (region : Fin 32) (a : Nat) (b : Nat) (d : Dev), whoaStopped s.dev = false ∧ residentOf s.dev region = some a ∧ (getRgn s.dev region).req = none ∧ (getRgn s.dev region).window = none ∧ nextHolder s.dev a region = some b ∧ d = { s.dev with now := max s.dev.now ((getRgn s.dev region).entered + 1000 * getF s.dev (fSLC_CFG_QUANTUM_US a)) })
    ∧ (∃ (s : State) (key : Nat) (t : Nat) (c : Cmd) (late : List (Nat × Core)), whoaStopped s.dev = false ∧ getCmd s.dev key = some c ∧ c.stopReq = some t ∧ c.status = none ∧ late = s.dev.cores.filter (fun e => (coreGroups e.2).any (fun g => g.cmd == key && !groupHalted g)) ∧ late ≠ [])
    ∧ (∃ (s : State) (port : Fin 2) (slice : Fin 16) (data : Word) (d : Dev), SetupTaken s.dev port (offSLC_DLOG_CTL slice) ∧ (data.getLsbD 0 || data.getLsbD 1 || data.getLsbD 2) = false ∧ d = (((writeReg s.dev (offSLC_DLOG_CTL slice) (data ||| 16)).dlog.filter (fun e => e.1 == slice.val)).map (fun e => (e.2.1, e.2.2 / 64))).eraseDups.foldl (fun s w => dlogWord s slice w.1 w.2) (writeReg s.dev (offSLC_DLOG_CTL slice) (data ||| 16)))
    ∧ (∃ (s : State) (slice : Fin 16) (map : Fin 3) (word : Nat), (dlogWord s.dev slice map word).dlog.any (fun e => e.1 == slice.val) = false) :=
  ⟨⟨at_ run, 0, 1, by decide +kernel, by decide +kernel, by decide +kernel⟩,
    ⟨at_ ({ run with pgq := [(3, 2)] }), 3, 2, [], by decide +kernel, by decide +kernel⟩,
    ⟨at_ two, 0, 0, 1, _, by decide +kernel, by decide +kernel, by decide +kernel, by decide +kernel, (by decide +kernel), rfl⟩,
    ⟨at_ ({ onCore grp with cmds := [late] }), 7, 5, late, _, by decide +kernel, by decide +kernel, by decide +kernel, by decide +kernel, rfl, by decide +kernel⟩,
    ⟨at_ ({ run with dlog := [(0, 0, 70)] }), 0, 0, 0, _, by decide +kernel, by decide +kernel, rfl⟩,
    ⟨at_ ({ run with dlog := [(0, 0, 70)] }), 0, 0, 1, by decide +kernel⟩⟩

/-- The hypotheses of CyclicComplete are met: one state for each of its clauses. -/
theorem test_meets_cyclic_complete :
    (∃ (s : State) (port : Fin 2) (chan : Fin 16) (data : Word) (w : Word) (d : Dev), SetupTaken s.dev port (offSLC_CYC_CFG chan) ∧ w = data ||| BitVec.ofNat 64 (2 ^ 63) ∧ cycOk (writeReg s.dev (offSLC_CYC_CFG chan) w) chan = true ∧ getF s.dev (fSLC_CYC_CFG_EN chan) = 0 ∧ d = setF (writeReg (stopCyclic s.dev chan) (offSLC_CYC_CFG chan) w) (fSLC_CYC_STAT_FRAMES chan) 0)
    ∧ (∃ (s : State) (chan : Fin 16) (r : CycRun), r = (getCh s.dev chan).cyc ∧ cycRuns s.dev chan = true ∧ r.opened = none ∧ (cycUsed s.dev chan).length ≤ r.next ∧ getF s.dev fSU_SYNCIO_MODE ≠ 3)
    ∧ (∃ (s : State) (chan : Fin 16) (r : CycRun) (e : Nat) (k : Nat) (d : Dev), r = (getCh s.dev chan).cyc ∧ leadEntry s.dev chan = some (e, k) ∧ cycRuns s.dev chan = true ∧ r.opened = none ∧ r.lead = none ∧ getF s.dev (fSLC_CYC_E_KIND chan e) = 1 ∧ d = modCh (advanceTo s.dev (frameStart s.dev chan k + entStart s.dev chan e - leadNs s.dev chan)) chan (fun ch => { ch with cyc := { r with lead := some e } }))
    ∧ (∃ (s : State) (chan : Fin 16) (r : CycRun) (e : Nat) (rest : List Nat), r = (getCh s.dev chan).cyc ∧ cycRuns s.dev chan = true ∧ r.opened = none ∧ r.frame ≠ 0 ∧ (cycUsed s.dev chan).drop r.next = e :: rest ∧ getF s.dev (fSLC_CYC_E_KIND chan e) ≠ 1)
    ∧ (∃ (s : State) (chan : Fin 16) (r : CycRun) (e : Nat) (d : Dev), r = (getCh s.dev chan).cyc ∧ cycRuns s.dev chan = true ∧ r.opened = some e ∧ d = modCh (advanceTo s.dev (frameStart s.dev chan (r.frame - 1) + entEnd s.dev chan e)) chan (fun ch => { ch with cyc := { r with opened := none } }) ∧ (d.cmds.filter (fun x => x.chan == chan.val && x.window == some e && x.status.isNone)) = [])
    ∧ (∃ (s : State), s.dev.pins.syncOut = true) :=
  ⟨⟨at_ (setF (setF (setF run (fSLC_CYC_E_KIND 0 0) 2) (fSLC_CYC_E_LEN_US 0 0) 10) (fSLC_CYC_E_START_US 0 0) 990), 0, 0, 1000, _, _, by decide +kernel, rfl, by decide +kernel, by decide +kernel, rfl⟩,
    ⟨at_ (table 2 { CycRun.init with frame := 4, next := 1 }), 0, _, rfl, by decide +kernel, by decide +kernel, by decide +kernel, by decide +kernel⟩,
    ⟨at_ (table 1 CycRun.init), 0, _, 0, 0, _, rfl, by decide +kernel, by decide +kernel, by decide +kernel, by decide +kernel, (by decide +kernel), rfl⟩,
    ⟨at_ (table 2 { CycRun.init with frame := 1 }), 0, _, 0, [], rfl, by decide +kernel, by decide +kernel, by decide +kernel, by decide +kernel, (by decide +kernel)⟩,
    ⟨at_ (table 2 { CycRun.init with frame := 1, next := 1, opened := some 0 }), 0, _, 0, _, rfl, by decide +kernel, by decide +kernel, rfl, by decide +kernel⟩,
    ⟨at_ ({ up with pins := { up.pins with syncOut := true } }), by decide +kernel⟩⟩

/-- The hypotheses of ScalarArithmeticCompletes are met: one state for each of its clauses. -/
theorem test_meets_scalar_arithmetic_completes :
    (∃ (iw : IWord), Runs (fun _ => []) (fun iw => [sSD iw, sSA iw, sSB iw]) (fun _ g iw => opSalu g iw) iw)
    ∧ (∃ (iw : IWord), Runs (fun _ => []) (fun iw => [sSD iw, sSA iw, sSB iw]) (fun _ g iw => opScmp g iw) iw)
    ∧ (∃ (iw : IWord), Runs (fun _ => []) (fun iw => [sSD iw, sSA iw]) (fun _ g iw => opSalui g iw) iw)
    ∧ (∃ (iw : IWord), Runs (fun _ => []) (fun iw => [sSD iw, sSA iw]) (fun _ g iw => opScmpi g iw) iw)
    ∧ (∃ (iw : IWord), Runs (fun _ => []) (fun iw => [sSD iw, sSA iw]) (fun _ g iw => opMov g iw) iw)
    ∧ (∃ (iw : IWord), Runs (fun _ => []) (fun iw => [sSD iw]) (fun _ g iw => opMovi g iw) iw)
    ∧ (∃ (iw : IWord), Runs (fun _ => []) (fun iw => [sSD iw, sSA iw]) (fun _ g iw => opMovhi g iw) iw)
    ∧ (∃ (iw : IWord), Runs (fun _ => []) (fun iw => [sSD iw]) (fun s g iw => opMovsr (timeBase s) (flagsOf s iw) g iw) iw)
    ∧ (∃ (iw : IWord), Runs (fun _ => []) (fun iw => [sSD iw]) (fun _ g iw => opP2s g iw) iw)
    ∧ (∃ (iw : IWord), Runs (fun iw => [sMOD iw % 256]) (fun iw => [sSD iw]) (fun _ g iw => opVread g iw) iw) :=
  ⟨⟨ins [(12, 1), (18, 2), (24, 3)], by decide +kernel⟩,
    ⟨ins [(12, 1), (18, 2), (24, 3)], by decide +kernel⟩,
    ⟨ins [(12, 1), (18, 2)], by decide +kernel⟩,
    ⟨ins [(12, 1), (18, 2)], by decide +kernel⟩,
    ⟨ins [(12, 1), (18, 2)], by decide +kernel⟩,
    ⟨ins [(12, 1), (28, 5)], by decide +kernel⟩,
    ⟨ins [(12, 1), (18, 1)], by decide +kernel⟩,
    ⟨ins [(12, 1)], by decide +kernel⟩,
    ⟨ins [(12, 1)], by decide +kernel⟩,
    ⟨ins [(12, 1), (36, 2)], by decide +kernel⟩⟩

/-- The hypotheses of VectorArithmeticCompletes are met: one state for each of its clauses. -/
theorem test_meets_vector_arithmetic_completes :
    (∃ (iw : IWord), Runs (fun iw => usesVR iw 1 1 1 1) (fun _ => []) (fun _ g iw => opValu g iw) iw)
    ∧ (∃ (iw : IWord), Runs (fun iw => usesVR iw 2 2 2 0) (fun _ => []) (fun _ g iw => opValu64 g iw) iw)
    ∧ (∃ (iw : IWord), Runs (fun iw => usesVR iw 1 1 0 0) (fun _ => []) (fun _ g iw => opValui g iw) iw)
    ∧ (∃ (iw : IWord), Runs (fun iw => usesVR iw 1 1 1 1) (fun _ => []) (fun _ g iw => opFalu g iw) iw)
    ∧ (∃ (iw : IWord), Runs (fun iw => usesVR iw 1 1 0 0) (fun _ => []) (fun _ g iw => opFalui g iw) iw)
    ∧ (∃ (iw : IWord), Runs (fun iw => usesVR iw 2 2 2 2) (fun _ => []) (fun _ g iw => opDalu g iw) iw)
    ∧ (∃ (iw : IWord), Runs (fun iw => usesVR iw 1 1 1 1) (fun _ => []) (fun _ g iw => opHalu g iw) iw)
    ∧ (∃ (iw : IWord), Runs (fun iw => usesVR iw 1 1 1 1) (fun _ => []) (fun s g iw => opCvt (seedOf s iw) g iw) iw)
    ∧ (∃ (iw : IWord), Runs (fun iw => usesVR iw 1 2 1 1) (fun _ => []) (fun s g iw => opCvtd (seedOf s iw) g iw) iw)
    ∧ (∃ (iw : IWord), Runs (fun iw => usesVR iw 2 1 0 0) (fun _ => []) (fun _ g iw => opCvt2d g iw) iw)
    ∧ (∃ (iw : IWord), Runs (fun iw => usesVR iw 0 1 1 0) (fun _ => []) (fun _ g iw => opFcmp g iw) iw)
    ∧ (∃ (iw : IWord), Runs (fun iw => usesVR iw 0 1 1 0) (fun _ => []) (fun _ g iw => opIcmp g iw) iw)
    ∧ (∃ (iw : IWord), Runs (fun iw => usesVR iw 0 2 2 0) (fun _ => []) (fun _ g iw => opDcmp g iw) iw)
    ∧ (∃ (iw : IWord), Runs (fun iw => usesVR iw 1 1 1 0) (fun _ => []) (fun _ g iw => opSel g iw) iw)
    ∧ (∃ (iw : IWord), Runs (fun _ => []) (fun _ => []) (fun _ g iw => opPlog g iw) iw)
    ∧ (∃ (iw : IWord), Runs (fun iw => usesVR iw 1 1 1 0) (fun _ => []) (fun _ g iw => opShfl g iw) iw)
    ∧ (∃ (iw : IWord), Runs (fun iw => usesVR iw 1 1 0 0) (fun _ => []) (fun _ g iw => opBcast g iw) iw)
    ∧ (∃ (iw : IWord), Runs (fun _ => []) (fun iw => [iVD iw % 64]) (fun _ g iw => opVote g iw) iw) :=
  ⟨⟨ins [(12, 1), (20, 2), (28, 3)], by decide +kernel⟩,
    ⟨ins [(12, 0), (20, 2), (28, 4)], by decide +kernel⟩,
    ⟨ins [(12, 1), (20, 2)], by decide +kernel⟩,
    ⟨ins [(12, 1), (20, 2), (28, 3)], by decide +kernel⟩,
    ⟨ins [(12, 1), (20, 2)], by decide +kernel⟩,
    ⟨ins [(12, 0), (20, 2), (28, 4)], by decide +kernel⟩,
    ⟨ins [(12, 1), (20, 2), (28, 3), (44, 1)], by decide +kernel⟩,
    ⟨ins [(12, 1), (20, 2)], by decide +kernel⟩,
    ⟨ins [(12, 1), (20, 2)], by decide +kernel⟩,
    ⟨ins [(12, 2), (20, 1)], by decide +kernel⟩,
    ⟨ins [(12, 1), (20, 2), (28, 3)], by decide +kernel⟩,
    ⟨ins [(12, 1), (20, 2), (28, 3)], by decide +kernel⟩,
    ⟨ins [(12, 1), (20, 2), (28, 4)], by decide +kernel⟩,
    ⟨ins [(12, 1), (20, 2), (28, 3)], by decide +kernel⟩,
    ⟨ins [(12, 1), (20, 7), (28, 7)], by decide +kernel⟩,
    ⟨ins [(12, 1), (20, 2), (28, 3)], by decide +kernel⟩,
    ⟨ins [(12, 1), (20, 2)], by decide +kernel⟩,
    ⟨ins [(12, 1), (20, 7)], by decide +kernel⟩⟩

/-- The hypotheses of ControlCompletes are met: one state for each of its clauses. -/
theorem test_meets_control_completes :
    (∃ (s : State) (iw : IWord) (g : Group), ControlRuns s.dev iw false false g)
    ∧ (∃ (s : State) (iw : IWord) (g : Group), ControlRuns s.dev iw true false g ∧ g.act &&& predMask g iw = 0)
    ∧ (∃ (s : State) (iw : IWord) (g : Group), ControlRuns s.dev iw true false g ∧ g.act &&& predMask g iw = g.act ∧ g.act ≠ 0)
    ∧ (∃ (s : State) (iw : IWord) (g : Group) (t : BitVec 32) (f : BitVec 32) (j : StackEntry), ControlRuns s.dev iw true true g ∧ t = g.act &&& predMask g iw ∧ f = g.act &&& ~~~(predMask g iw) ∧ j = { kind := .join, pc := target g (cT2 iw), mask := g.act } ∧ g.stack.length + 2 ≤ 32 ∧ t = 0)
    ∧ (∃ (s : State) (iw : IWord) (g : Group) (t : BitVec 32) (f : BitVec 32) (j : StackEntry), ControlRuns s.dev iw true true g ∧ t = g.act &&& predMask g iw ∧ f = g.act &&& ~~~(predMask g iw) ∧ j = { kind := .join, pc := target g (cT2 iw), mask := g.act } ∧ g.stack.length + 2 ≤ 32 ∧ t ≠ 0 ∧ f = 0)
    ∧ (∃ (s : State) (iw : IWord) (g : Group) (t : BitVec 32) (f : BitVec 32) (j : StackEntry), ControlRuns s.dev iw true true g ∧ t = g.act &&& predMask g iw ∧ f = g.act &&& ~~~(predMask g iw) ∧ j = { kind := .join, pc := target g (cT2 iw), mask := g.act } ∧ g.stack.length + 2 ≤ 32 ∧ t ≠ 0 ∧ f ≠ 0)
    ∧ (∃ (s : State) (iw : IWord) (g : Group) (act : BitVec 32) (pc : Word) (st : List StackEntry), ControlRuns s.dev iw false false g ∧ execOnce g iw = true ∧ popNext g.live g.stack = some (act, pc, st))
    ∧ (∃ (s : State) (iw : IWord) (g : Group), ControlRuns s.dev iw true false g ∧ execOnce g iw = true ∧ g.stack.length < 32)
    ∧ (∃ (s : State) (iw : IWord) (g : Group) (b : BitVec 32), ControlRuns s.dev iw false false g ∧ g.stack.any (fun e => e.kind == .loop) = true ∧ b = g.act &&& predMask g iw ∧ g.act &&& ~~~b ≠ 0)
    ∧ (∃ (s : State) (iw : IWord) (g : Group) (b : BitVec 32) (act : BitVec 32) (pc : Word) (st : List StackEntry), ControlRuns s.dev iw false false g ∧ g.stack.any (fun e => e.kind == .loop) = true ∧ b = g.act &&& predMask g iw ∧ g.act &&& ~~~b = 0 ∧ popToLoop g.live (maskToLoop b g.stack) = some (act, pc, st))
    ∧ (∃ (s : State) (iw : IWord) (g : Group), ControlRuns s.dev iw false false g ∧ execOnce g iw = true ∧ g.live &&& ~~~g.act = 0)
    ∧ (∃ (s : State) (iw : IWord) (g : Group) (act : BitVec 32) (pc : Word) (st : List StackEntry), ControlRuns s.dev iw false false g ∧ execOnce g iw = true ∧ g.live &&& ~~~g.act ≠ 0 ∧ g.pend = none ∧ popNext (g.live &&& ~~~g.act) g.stack = some (act, pc, st))
    ∧ (∃ (s : State) (iw : IWord) (g : Group), ControlRuns s.dev iw false true g ∧ cT2 iw < 2 ^ 16 - 1 ∧ execOnce g iw = true ∧ (bitsOf 16 (cT2 iw)).any (fun k => tabGet (fun _ => 0) g.tok k != 0) = false)
    ∧ (∃ (s : State) (iw : IWord) (g : Group), ControlRuns s.dev iw false false g ∧ execOnce g iw = true ∧ debugOn s.dev = false)
    ∧ (∃ (s : State) (iw : IWord) (g : Group), ControlRuns s.dev iw false false g ∧ execOnce g iw = true ∧ debugOn s.dev = true) :=
  ⟨⟨at_ (onCore grp), ins [], grp, by decide +kernel⟩,
    ⟨at_ (onCore grp), { ins [(40, 4)] with hdr := 0 }, grp, by decide +kernel, by decide +kernel⟩,
    ⟨at_ (onCore grp), ins [(40, 2 ^ 24 - 1)], grp, by decide +kernel, by decide +kernel, by decide +kernel⟩,
    ⟨at_ (onCore grp), { ins [(16, 4)] with hdr := 0 }, grp, _, _, _, by decide +kernel, rfl, rfl, rfl, by decide +kernel, rfl⟩,
    ⟨at_ (onCore grp), ins [(16, 4)], grp, _, _, _, by decide +kernel, rfl, rfl, rfl, by decide +kernel, by decide +kernel, rfl⟩,
    ⟨at_ (onCore half), { ins [(40, 8), (16, 4)] with hdr := 0 }, half, _, _, _, by decide +kernel, rfl, rfl, rfl, by decide +kernel, by decide +kernel, by decide +kernel⟩,
    ⟨at_ (onCore split), ins [], split, 1, 64, [], by decide +kernel, by decide +kernel, by decide +kernel⟩,
    ⟨at_ (onCore grp), ins [(40, 4)], grp, by decide +kernel, by decide +kernel, by decide +kernel⟩,
    ⟨at_ (onCore loop), { ins [] with hdr := 0 }, loop, _, by decide +kernel, by decide +kernel, rfl, by decide +kernel⟩,
    ⟨at_ (onCore loop), ins [], loop, _, 3, 64, [{ kind := .join, pc := 96, mask := 3 }], by decide +kernel, by decide +kernel, rfl, by decide +kernel, by decide +kernel⟩,
    ⟨at_ (onCore grp), ins [], grp, by decide +kernel, by decide +kernel, by decide +kernel⟩,
    ⟨at_ (onCore split), ins [], split, 1, 64, [], by decide +kernel, by decide +kernel, by decide +kernel, by decide +kernel, (by decide +kernel)⟩,
    ⟨at_ (onCore grp), ins [(16, 3)], grp, by decide +kernel, by decide +kernel, by decide +kernel, by decide +kernel⟩,
    ⟨at_ (onCore grp), ins [], grp, by decide +kernel, by decide +kernel, by decide +kernel⟩,
    ⟨at_ (setF (onCore grp) fSU_FW_DEBUG 1), ins [], grp, by decide +kernel, by decide +kernel, by decide +kernel⟩⟩

/-- The hypotheses of GlobalAccessesComplete are met: one state for each of its clauses. -/
theorem test_meets_global_accesses_complete :
    (∃ (s : State) (iw : IWord) (g : Group) (sh : LoadShape) (d : Dev) (l : List LaneAcc), Issues s.dev iw (coverV (iVD iw) (sizeRegs (mSIZE iw)) ++ coverV (iVA iw) (1 + mAMODE iw)) [mSB iw] g ∧ ldLegal g iw = true ∧ memHeld s.dev iw.core iw.slot (mORD iw == 1) = false ∧ sh = { vd := iVD iw, size := sizeBytes (mSIZE iw), sext := mSEXT iw == 1, scalar := false, acq := mORD iw == 1, vol := mORD iw == 2, scope := mSCOPE iw, l1h := mL1H iw, dead := mDEAD iw == 1 } ∧ LoadGoes s.dev iw g sh ((lanesOf (execMask g iw)).map (fun l => (l, memAddr g iw l))) d l)
    ∧ (∃ (s : State) (iw : IWord) (g : Group) (sh : LoadShape) (d : Dev) (l : List LaneAcc), Issues s.dev iw [] [iVD iw, mSB iw] g ∧ ldsLegal iw = true ∧ scopeLegal (mORD iw) (mSCOPE iw) true = true ∧ mL1H iw < 3 ∧ execOnce g iw = true ∧ memHeld s.dev iw.core iw.slot (mORD iw == 1) = false ∧ sh = { vd := iVD iw, size := sizeBytes (mSIZE iw), sext := false, scalar := true, acq := mORD iw == 1, vol := mORD iw == 2, scope := mSCOPE iw, l1h := mL1H iw, dead := mDEAD iw == 1 } ∧ LoadGoes s.dev iw g sh [(0, wrapNat 64 (((getS g (mSB iw)).toNat : Int) + mOFF iw))] d l)
    ∧ (∃ (s : State) (iw : IWord) (g : Group) (d : Dev) (d3 : Dev) (l : List LaneAcc) (m : BitVec 32) (pz : Nat → Bool), Issues s.dev iw (coverV (iVD iw) (sizeRegs (mSIZE iw)) ++ coverV (iVA iw) (1 + mAMODE iw)) [mSB iw] g ∧ ldLegal g iw = true ∧ mSEXT iw = 0 ∧ scopeLegal (mORD iw) (mSCOPE iw) false = true ∧ mL1H iw = 0 ∧ mDEAD iw = 0 ∧ memHeld s.dev iw.core iw.slot (mORD iw == 1) = false ∧ pz = (fun l => addrPoison g iw l || getVPn g (iVD iw) l (sizeRegs (mSIZE iw))) ∧ StoreGoes s.dev iw g (sizeBytes (mSIZE iw)) (mSCOPE iw) (mORD iw == 1) ((lanesOf (execMask g iw)).map (fun l => (l, memAddr g iw l))) (fun l => getVn g (iVD iw) l (sizeRegs (mSIZE iw))) pz d d3 l m)
    ∧ (∃ (s : State) (iw : IWord) (g : Group) (d : Dev) (d3 : Dev) (l : List LaneAcc) (m : BitVec 32) (pz : Nat → Bool), Issues s.dev iw [] [iVD iw, mSB iw] g ∧ ldsLegal iw = true ∧ scopeLegal (mORD iw) (mSCOPE iw) false = true ∧ mL1H iw = 0 ∧ mDEAD iw = 0 ∧ execOnce g iw = true ∧ memHeld s.dev iw.core iw.slot (mORD iw == 1) = false ∧ pz = (fun _ => getSP g (mSB iw) || getSP g (iVD iw) || predPoisonAny g iw) ∧ StoreGoes s.dev iw g (sizeBytes (mSIZE iw)) (mSCOPE iw) (mORD iw == 1) [(0, wrapNat 64 (((getS g (mSB iw)).toNat : Int) + mOFF iw))] (fun _ => (getS g (iVD iw)).toNat) pz d d3 l m) :=
  ⟨⟨at_ (onCore lone), ins [(12, 1), (20, 2), (28, 5), (34, 2), (49, 64)], lone, _, onCore lone, [acc], by decide +kernel, by decide +kernel, by decide +kernel, rfl, by decide +kernel⟩,
    ⟨at_ (onCore lone), ins [(12, 1), (20, 255), (28, 5), (34, 3), (49, 64)], lone, _, onCore lone, [acc], by decide +kernel, by decide +kernel, by decide +kernel, by decide +kernel, (by decide +kernel), by decide +kernel, rfl, by decide +kernel⟩,
    ⟨at_ (onCore lone), ins [(12, 1), (20, 2), (28, 5), (34, 2), (49, 64)], lone, onCore lone, stored.1, [acc], stored.2, _, by decide +kernel, by decide +kernel, by decide +kernel, by decide +kernel, (by decide +kernel), by decide +kernel, by decide +kernel, rfl, by decide +kernel⟩,
    ⟨at_ (onCore lone), ins [(12, 1), (20, 255), (28, 5), (34, 3), (49, 64)], lone, onCore lone, storedS.1, [acc], storedS.2, _, by decide +kernel, by decide +kernel, by decide +kernel, by decide +kernel, (by decide +kernel), by decide +kernel, by decide +kernel, rfl, by decide +kernel⟩⟩

/-- The hypotheses of LocalAndAtomicComplete are met: one state for each of its clauses. -/
theorem test_meets_local_and_atomic_complete :
    (∃ (s : State) (iw : IWord) (g : Group) (g2 : Group) (b : Block) (l : List LaneAcc) (pz : Bool), Issues s.dev iw (coverV (iVD iw) (sizeRegs (mSIZE iw)) ++ coverV (iVA iw) 1) [mSB iw] g ∧ ldLegal g iw = true ∧ lmLegal iw = true ∧ memHeld s.dev iw.core iw.slot false = false ∧ blockOf s.dev iw.core iw.slot = some b ∧ lmAddrs b (sizeBytes (mSIZE iw)) ((lanesOf (execMask g iw)).map (fun l => (l, memAddr g iw l))) = .ok l ∧ l.foldl (fun (acc : Group × Bool) a => (setVn acc.1 (iVD iw) a.lane ((lmRead (getCore s.dev iw.core) (b.lmBase * 1024) a.va (sizeBytes (mSIZE iw))).2 || addrPoison g iw a.lane) (sizeRegs (mSIZE iw)) (extElem (sizeBytes (mSIZE iw)) (mSEXT iw == 1) (lmRead (getCore s.dev iw.core) (b.lmBase * 1024) a.va (sizeBytes (mSIZE iw))).1), acc.2 || ((lmRead (getCore s.dev iw.core) (b.lmBase * 1024) a.va (sizeBytes (mSIZE iw))).2 || addrPoison g iw a.lane))) (g, false) = (g2, pz) ∧ pz = false)
    ∧ (∃ (s : State) (iw : IWord) (g : Group) (b : Block) (l : List LaneAcc), Issues s.dev iw (coverV (iVD iw) (sizeRegs (mSIZE iw)) ++ coverV (iVA iw) 1) [mSB iw] g ∧ ldLegal g iw = true ∧ lmLegal iw = true ∧ mSEXT iw = 0 ∧ memHeld s.dev iw.core iw.slot false = false ∧ blockOf s.dev iw.core iw.slot = some b ∧ lmAddrs b (sizeBytes (mSIZE iw)) ((lanesOf (execMask g iw)).map (fun l => (l, memAddr g iw l))) = .ok l ∧ l.any (fun a => addrPoison g iw a.lane || getVPn g (iVD iw) a.lane (sizeRegs (mSIZE iw))) = false)
    ∧ (∃ (s : State) (iw : IWord) (g : Group) (g2 : Group) (b : Block) (c : Core) (l : List LaneAcc) (fl : ArithFlags), Issues s.dev iw (atmUses iw (1 + aW64 iw)) [mSB iw] g ∧ atomLegal g iw = true ∧ memHeld s.dev iw.core iw.slot (aORD iw != 0) = false ∧ aSPACE iw = 1 ∧ blockOf s.dev iw.core iw.slot = some b ∧ lmAddrs b (4 * (1 + aW64 iw)) ((lanesOf (execMask g iw)).map (fun l => (l, atmAddr g iw l))) = .ok l ∧ atomLanes s.dev iw g b l = (c, g2, false, fl))
    ∧ (∃ (s : State) (iw : IWord) (g : Group) (d : Dev) (l : List LaneAcc), Issues s.dev iw (atmUses iw (1 + aW64 iw)) [mSB iw] g ∧ atomLegal g iw = true ∧ memHeld s.dev iw.core iw.slot (aORD iw != 0) = false ∧ aSPACE iw ≠ 1 ∧ AtomGoes s.dev iw g true d l)
    ∧ (∃ (s : State) (iw : IWord) (g : Group) (d : Dev) (l : List LaneAcc), Issues s.dev iw (atmUses iw (1 + aW64 iw)) [mSB iw] g ∧ resvLegal g iw false = true ∧ memHeld s.dev iw.core iw.slot (aORD iw != 0) = false ∧ AtomGoes s.dev iw g false d l)
    ∧ (∃ (s : State) (iw : IWord) (g : Group) (d : Dev) (l : List LaneAcc), Issues s.dev iw (atmUses iw 1) [mSB iw] g ∧ resvLegal g iw true = true ∧ memHeld s.dev iw.core iw.slot (aORD iw != 0) = false ∧ AtomGoes s.dev iw g true d l) :=
  ⟨⟨at_ (onCore lone), ins [(12, 1), (20, 2), (28, 5), (34, 2), (49, 64)], lone, { lone with v := [] }, block, [{ acc with pa := 0x40, attr := page }], false, by decide +kernel, by decide +kernel, by decide +kernel, by decide +kernel, (by decide +kernel), by decide +kernel, by decide +kernel, by decide +kernel⟩,
    ⟨at_ (onCore lone), ins [(12, 1), (20, 2), (28, 5), (34, 2), (49, 64)], lone, block, [acc], by decide +kernel, by decide +kernel, by decide +kernel, by decide +kernel, (by decide +kernel), by decide +kernel, by decide +kernel, by decide +kernel⟩,
    ⟨at_ (onCore lone), atomL, lone, atomLEnd.2.1, block, atomLEnd.1, [{ lane := 0, va := 0, pa := 0, attr := page }], atomLEnd.2.2.2, by decide +kernel, by decide +kernel, by decide +kernel, by decide +kernel, (by decide +kernel), by decide +kernel, by decide +kernel⟩,
    ⟨at_ (onCore lone), ins [(12, 1), (20, 2), (28, 5), (48, 3)], lone, onCore lone, [{ acc with va := 0, pa := 0 }], by decide +kernel, by decide +kernel, by decide +kernel, by decide +kernel, (by decide +kernel)⟩,
    ⟨at_ (onCore lone), ins [(12, 1), (20, 2), (28, 5)], lone, onCore lone, [{ acc with va := 0, pa := 0 }], by decide +kernel, by decide +kernel, by decide +kernel, by decide +kernel⟩,
    ⟨at_ (onCore lone), ins [(12, 1), (20, 2), (28, 5), (48, 3)], lone, onCore lone, [{ acc with va := 0, pa := 0 }], by decide +kernel, by decide +kernel, by decide +kernel, by decide +kernel⟩⟩

/-- The hypotheses of SynchronisationCompletes are met: one state for each of its clauses. -/
theorem test_meets_synchronisation_completes :
    (∃ (s : State) (iw : IWord) (g : Group) (d : Dev), Issues s.dev iw [] [] g ∧ execOnce g iw = true ∧ (yASYNC iw = 1 → g.tok.any (fun e => e.2 != 0) = false) ∧ d = (if ySCOPE iw != 0 then sealFor s.dev iw.core else s.dev) ∧ fenceLegal iw 1 = true ∧ loadsReturned s.dev iw.core iw.slot = true)
    ∧ (∃ (s : State) (iw : IWord) (g : Group) (d : Dev), Issues s.dev iw [] [] g ∧ execOnce g iw = true ∧ (yASYNC iw = 1 → g.tok.any (fun e => e.2 != 0) = false) ∧ d = (if ySCOPE iw != 0 then sealFor s.dev iw.core else s.dev) ∧ fenceLegal iw 2 = true ∧ releaseWait d iw.core iw.slot (ySCOPE iw) g = .done)
    ∧ (∃ (s : State) (iw : IWord) (g : Group) (d : Dev), Issues s.dev iw [] [] g ∧ execOnce g iw = true ∧ (yASYNC iw = 1 → g.tok.any (fun e => e.2 != 0) = false) ∧ d = (if ySCOPE iw != 0 then sealFor s.dev iw.core else s.dev) ∧ fenceLegal iw 3 = true ∧ releaseWait d iw.core iw.slot (ySCOPE iw) g = .done ∧ loadsReturned d iw.core iw.slot = true)
    ∧ (∃ (s : State) (iw : IWord) (g : Group), Issues s.dev iw [] [] g ∧ barLegal s.dev iw g = true ∧ execOnce g iw = true ∧ (g.pend = none ∨ g.pend = some (ySCOPE iw, yBID iw)) ∧ (g.arr ||| g.act) &&& g.live = g.live ∧ releaseWait s.dev iw.core iw.slot (ySCOPE iw) g = .done ∧ markedPending s.dev iw.core iw.slot = false)
    ∧ (∃ (s : State) (core : Fin 768) (slot : Fin 16) (g : Group) (scope : Nat) (bid : Nat) (since : Nat) (atExit : Bool) (ps : List (Nat × Nat × Group)), whoaStopped s.dev = false ∧ getGroup s.dev core slot = some g ∧ g.hold = .barrier scope bid since atExit ∧ ps = participants s.dev.cores core g scope ∧ s.dev.saved.flatMap (fun x => participants x.cores core g scope) = [] ∧ ps.all (fun p => arrived p.2.2 scope bid) = true)
    ∧ (∃ (s : State) (core : Fin 768) (slot : Fin 16) (g : Group) (c : Cmd) (scope : Nat) (bid : Nat) (since : Nat) (atExit : Bool), whoaStopped s.dev = false ∧ getGroup s.dev core slot = some g ∧ getCmd s.dev g.cmd = some c ∧ (g.hold = .barrier scope bid since atExit ∨ g.hold = .stuckBar since)) :=
  ⟨⟨at_ (onCore lone), ins [(16, 1), (12, 5)], lone, _, by decide +kernel, by decide +kernel, by decide +kernel, rfl, by decide +kernel, by decide +kernel⟩,
    ⟨at_ (onCore lone), ins [(16, 2), (12, 5)], lone, _, by decide +kernel, by decide +kernel, by decide +kernel, rfl, by decide +kernel, by decide +kernel⟩,
    ⟨at_ (onCore lone), ins [(16, 3), (12, 5)], lone, _, by decide +kernel, by decide +kernel, by decide +kernel, rfl, by decide +kernel, by decide +kernel, by decide +kernel⟩,
    ⟨at_ (onCore lone), ins [(18, 15)], lone, by decide +kernel, by decide +kernel, by decide +kernel, by decide +kernel, (by decide +kernel), by decide +kernel, by decide +kernel⟩,
    ⟨at_ (onCore atBar), 0, 0, atBar, 0, 15, 0, false, _, by decide +kernel, by decide +kernel, by decide +kernel, rfl, by decide +kernel, by decide +kernel⟩,
    ⟨at_ (onCore atBar), 0, 0, atBar, kernel, 0, 15, 0, false, by decide +kernel, by decide +kernel, by decide +kernel, by decide +kernel⟩⟩

/-- The hypotheses of HomeRequestsComplete are met: one state for each of its clauses. -/
theorem test_meets_home_requests_complete :
    (∃ (s : State) (core : Fin 768) (id : Nat) (home : Nat) (r : MemReq) (d : Dev) (a : RdRes), ReadReaches s.dev core id home r ∧ readMisses s.dev core r home = false ∧ lineRead s.dev core r.tag (r.line * 512) r.attr r.sectors = (d, a))
    ∧ (∃ (s : State) (core : Fin 768) (id : Nat) (home : Nat) (r : MemReq), ReadReaches s.dev core id home r ∧ readMisses s.dev core r home = true ∧ s.dev.ms.misses.find? (fun m => m.slice == home && m.line == r.line) = none ∧ (s.dev.ms.misses.filter (fun m => m.slice == home)).length < 256)
    ∧ (∃ (s : State) (core : Fin 768) (id : Nat) (home : Nat) (r : MemReq) (m : MissEntry), ReadReaches s.dev core id home r ∧ readMisses s.dev core r home = true ∧ s.dev.ms.misses.find? (fun m => m.slice == home && m.line == r.line) = some m ∧ m.reqs.length + (s.dev.ms.redQ.filter (fun q => q.home == home && q.line == r.line)).length < 64)
    ∧ (∃ (s : State) (slice : Fin 32) (line : Nat) (resp : CxlResp) (d : Dev) (d1 : Dev) (d2 : Dev) (m : MissEntry) (held : List HeldOp) (ops : List RedOp) (live : List (Nat × MemReq)), whoaStopped s.dev = false ∧ d = modMs s.dev (fun m => { m with resp := some (line, resp) }) ∧ d.ms.misses.find? (fun m => m.slice == slice.val && m.line == line) = some m ∧ (isNear (m.backing * 512) = true → d.pw.sleeping.getLsbD (nField (m.backing * 512) 39 37) = false) ∧ adderPending d line = false ∧ ops = d.ms.redQ.filter (fun q => q.home == m.slice && q.line == m.line) ∧ takeHeld d m.slice m.line = (d1, held) ∧ d2 = setPin (modMs d1 (fun x => { x with misses := x.misses.filter (fun e => !(e.slice == m.slice && e.line == m.line)), redQ := x.redQ.filter (fun q => !(q.home == m.slice && q.line == m.line)) })) m.slice m.line 0 ∧ live = m.reqs.filterMap (fun q => match q with | .core c i => (getReq d2 c i).map (fun r => (c, r))) ∧ live = [] ∧ ops = [])
    ∧ (∃ (s : State) (slice : Fin 32) (line : Nat) (resp : CxlResp) (d : Dev) (d1 : Dev) (d2 : Dev) (m : MissEntry) (held : List HeldOp) (ops : List RedOp) (live : List (Nat × MemReq)), whoaStopped s.dev = false ∧ d = modMs s.dev (fun m => { m with resp := some (line, resp) }) ∧ d.ms.misses.find? (fun m => m.slice == slice.val && m.line == line) = some m ∧ (isNear (m.backing * 512) = true → d.pw.sleeping.getLsbD (nField (m.backing * 512) 39 37) = false) ∧ adderPending d line = false ∧ ops = d.ms.redQ.filter (fun q => q.home == m.slice && q.line == m.line) ∧ takeHeld d m.slice m.line = (d1, held) ∧ d2 = setPin (modMs d1 (fun x => { x with misses := x.misses.filter (fun e => !(e.slice == m.slice && e.line == m.line)), redQ := x.redQ.filter (fun q => !(q.home == m.slice && q.line == m.line)) })) m.slice m.line 0 ∧ live = m.reqs.filterMap (fun q => match q with | .core c i => (getReq d2 c i).map (fun r => (c, r))) ∧ (live ≠ [] ∨ ops ≠ []))
    ∧ (∃ (s : State) (core : Fin 768) (id : Nat) (home : Nat) (r : MemReq), AtomReaches s.dev core id home r ∧ rmwPlace s.dev home r.line r.attr (opKind r) r.sectors = .adder)
    ∧ (∃ (s : State) (core : Fin 768) (id : Nat) (home : Nat) (r : MemReq), AtomReaches s.dev core id home r ∧ rmwPlace s.dev home r.line r.attr (opKind r) r.sectors = .fill ∧ s.dev.ms.misses.find? (fun m => m.slice == home && m.line == r.line) = none ∧ missFull s.dev home r.line = false)
    ∧ (∃ (s : State) (core : Fin 768) (id : Nat) (home : Nat) (r : MemReq) (d : Dev) (a : AtomRes), AtomReaches s.dev core id home r ∧ (rmwPlace s.dev home r.line r.attr (opKind r) r.sectors = .held ∨ rmwPlace s.dev home r.line r.attr (opKind r) r.sectors = .drop) ∧ atomServe cohRmw s.dev core r.tag r = (d, a))
    ∧ (∃ (s : State) (core : Fin 768) (id : Nat) (r : MemReq) (q : RedOp) (d : Dev) (d2 : Dev) (a : AtomRes), whoaStopped s.dev = false ∧ getReq s.dev core id = some r ∧ s.dev.ms.adderQ.find? (fun q => q.line == r.line) = some q ∧ q.core = core.val ∧ q.req = id ∧ isNear (backingOf (r.line * 512) r.attr.home) = true ∧ d = modMs (countDie s.dev (nField (backingOf (r.line * 512) r.attr.home) 39 37) 0x83 (bitsOf 8 r.sectors.toNat).length) (fun m => { m with adderQ := m.adderQ.filter (fun q => !(q.core == core.val && q.req == id)) }) ∧ atomServe adderRmw d core r.tag r = (d2, a))
    ∧ (∃ (s : State) (core : Fin 768) (id : Nat) (r : MemReq) (d : Dev) (d2 : Dev) (rs : List MemReq), whoaStopped s.dev = false ∧ getReq s.dev core id = some r ∧ r.served = true ∧ r.returned = false ∧ (d = modReq (if r.l1alloc = 0 ∨ r.sectors = 0 ∨ tso s.dev = true then s.dev else l1Fill s.dev core r.line r.va (mergeBytes 512 r.data r.fwd r.fwdMask.toNat) r.sectors (r.poison ||| r.fwdPoison) (r.l1alloc == 2)) core id (fun r => { r with returned := true })) ∧ rs = (getCore d core).reqs.filter (fun x => x.instr == r.instr) ∧ rs.all (fun x => x.returned) = true ∧ d2 = loadMarks (modCore (writeBack' d core rs) core (fun c => { c with reqs := c.reqs.filter (fun x => x.instr != r.instr) })) rs) :=
  ⟨⟨at_ hit, 0, 9, 0, load, (lineRead hit 0 0 0x1000 page 1).1, (lineRead hit 0 0 0x1000 page 1).2, by decide +kernel, by decide +kernel, by decide +kernel⟩,
    ⟨at_ (asked load), 0, 9, 0, load, by decide +kernel, by decide +kernel, by decide +kernel, by decide +kernel⟩,
    ⟨at_ (missed 5), 0, 9, 0, load, miss 5, by decide +kernel, by decide +kernel, by decide +kernel, by decide +kernel⟩,
    ⟨at_ (missed 5), 0, 8, { load := 0, poison := 0 }, _, (takeHeld (filling 5) 0 8).1, _, miss 5, (takeHeld (filling 5) 0 8).2, _, [], by decide +kernel, rfl, by decide +kernel, by decide +kernel, by decide +kernel, rfl, by decide +kernel, rfl, by decide +kernel, by decide +kernel, rfl⟩,
    ⟨at_ (missed 9), 0, 8, { load := 0, poison := 0 }, _, (takeHeld (filling 9) 0 8).1, _, miss 9, (takeHeld (filling 9) 0 8).2, _, [(0, load)], by decide +kernel, rfl, by decide +kernel, by decide +kernel, by decide +kernel, rfl, by decide +kernel, rfl, by decide +kernel, by decide +kernel⟩,
    ⟨at_ (asked { load with kind := .atom, vd := 255 }), 0, 9, 0, { load with kind := .atom, vd := 255 }, by decide +kernel, by decide +kernel⟩,
    ⟨at_ (asked { load with kind := .ldr }), 0, 9, 0, { load with kind := .ldr }, by decide +kernel, by decide +kernel, by decide +kernel, by decide +kernel⟩,
    ⟨at_ reserving, 0, 9, 0, { load with kind := .ldr }, reserved.1, reserved.2, by decide +kernel, by decide +kernel, by decide +kernel⟩,
    ⟨at_ adding, 0, 9, { load with kind := .atom, waiting := true }, { home := 0, line := 8, core := 0, req := 9, n := 1 }, _, added.1, added.2, by decide +kernel, by decide +kernel, by decide +kernel, by decide +kernel, (by decide +kernel), by decide +kernel, rfl, by decide +kernel⟩,
    ⟨at_ (asked { load with served := true }), 0, 9, { load with served := true }, _, _, _, by decide +kernel, by decide +kernel, by decide +kernel, by decide +kernel, rfl, rfl, by decide +kernel, rfl⟩⟩

/-- The hypotheses of StoreBufferCompletes are met: one state for each of its clauses. -/
theorem test_meets_store_buffer_completes :
    (∃ (s : State) (core : Fin 768) (e : SbEntry), whoaStopped s.dev = false ∧ (getCore s.dev core).sb.find? (fun e => maySend s.dev core (getCore s.dev core) e) = some e ∧ placeOf s.dev (e.line * 512) = .tier ∧ creditsFor s.dev core sbSlot 1 = true)
    ∧ (∃ (s : State) (core : Fin 768) (e : SbEntry) (d : Dev), whoaStopped s.dev = false ∧ (getCore s.dev core).sb.find? (fun e => maySend s.dev core (getCore s.dev core) e) = some e ∧ placeOf s.dev (e.line * 512) ≠ .tier ∧ sbApply s.dev core e = (d, none))
    ∧ (∃ (s : State) (core : Fin 768) (seq : Nat) (e : SbEntry), whoaStopped s.dev = false ∧ (getCore s.dev core).sb.find? (fun e => e.seq == seq) = some e ∧ e.st = .open)
    ∧ (∃ (s : State) (core : Fin 768) (seq : Nat) (home : Nat) (e : SbEntry) (d : Dev), whoaStopped s.dev = false ∧ (getCore s.dev core).sb.find? (fun e => e.seq == seq) = some e ∧ e.st = .sent ∧ e.applied = false ∧ pgHeld s.dev (e.line * 512) = false ∧ writeBehind s.dev core e = false ∧ homeAgent s.dev (e.line * 512) e.attr.home = some home ∧ tagsFree s.dev core home = true ∧ sbApply s.dev core e = (d, none))
    ∧ (∃ (s : State) (core : Fin 768) (seq : Nat) (e : SbEntry), whoaStopped s.dev = false ∧ (getCore s.dev core).sb.find? (fun e => e.seq == seq) = some e ∧ e.st = .sent ∧ e.applied = true ∧ e.peer = none) :=
  ⟨⟨at_ (buffered entry), 0, entry, by decide +kernel, by decide +kernel, by decide +kernel, by decide +kernel⟩,
    ⟨at_ (buffered { entry with line := 0x040000000000 / 512 }), 0, { entry with line := 0x040000000000 / 512 }, (sbApply (buffered { entry with line := 0x040000000000 / 512 }) 0 { entry with line := 0x040000000000 / 512 }).1, by decide +kernel, by decide +kernel, by decide +kernel, by decide +kernel⟩,
    ⟨at_ (buffered { entry with st := .open }), 0, 3, { entry with st := .open }, by decide +kernel, by decide +kernel, by decide +kernel⟩,
    ⟨at_ (buffered sent), 0, 3, 0, sent, (sbApply (buffered sent) 0 sent).1, by decide +kernel, by decide +kernel, by decide +kernel, by decide +kernel, (by decide +kernel), by decide +kernel, by decide +kernel, by decide +kernel, by decide +kernel⟩,
    ⟨at_ (buffered { sent with applied := true }), 0, 3, { sent with applied := true }, by decide +kernel, by decide +kernel, by decide +kernel, by decide +kernel, (by decide +kernel)⟩⟩

/-- The hypotheses of CoherenceCompletes are met: one state for each of its clauses. -/
theorem test_meets_coherence_completes :
    (∃ (s : State) (port : Fin 2) (tagsel : Bool) (tag : Fin 32) (d : _), SetupTaken s.dev port offCD_RANGE_CMD ∧ getF s.dev fCD_RANGE_CMD_BUSY ≠ 1 ∧ getF s.dev fCD_RANGE_LEN_LINES ≠ 0 ∧ d = rangeStarted (setF (writeReg s.dev offCD_RANGE_CMD (rangeWord 1 tagsel tag)) fCD_RANGE_CMD_BUSY 1))
    ∧ (∃ (s : State) (port : Fin 2) (tagsel : Bool) (tag : Fin 32) (d : _), SetupTaken s.dev port offCD_RANGE_CMD ∧ getF s.dev fCD_RANGE_CMD_BUSY ≠ 1 ∧ getF s.dev fCD_RANGE_LEN_LINES ≠ 0 ∧ d = rangeStarted (setF (writeReg s.dev offCD_RANGE_CMD (rangeWord 2 tagsel tag)) fCD_RANGE_CMD_BUSY 1))
    ∧ (∃ (s : State) (port : Fin 2) (tagsel : Bool) (tag : Fin 32) (d : _), SetupTaken s.dev port offCD_RANGE_CMD ∧ getF s.dev fCD_RANGE_CMD_BUSY ≠ 1 ∧ getF s.dev fCD_RANGE_LEN_LINES ≠ 0 ∧ d = rangeStarted (setF (writeReg s.dev offCD_RANGE_CMD (rangeWord 3 tagsel tag)) fCD_RANGE_CMD_BUSY 1))
    ∧ (∃ (s : State) (b : Nat) (n : Nat) (tags : Bool) (d : Dev), getF s.dev fCD_RANGE_CMD_BUSY ≠ 0 ∧ s.dev.ms.range = some (b, n, tags) ∧ s.dev.ms.heldOps.any (fun q => q.owner == 0 && decide (q.op < 3)) = false ∧ d = setF (modMs s.dev (fun m => { m with range := none })) fCD_RANGE_CMD_BUSY 0)
    ∧ (∃ (s : State) (port : Fin 2) (slice : Fin 16), SetupTaken s.dev port (offCD_SLICE_CFG slice))
    ∧ (∃ (s : State) (port : Fin 2), SetupTaken s.dev port offCD_ORDER)
    ∧ (∃ (s : State) (port : Fin 2), SetupTaken s.dev port offCD_ORDER ∧ getF s.dev fCD_STATUS_DROP_ACTIVE = 0 ∧ s.dev.selfTest = 0)
    ∧ (∃ (s : State) (silent : BitVec 36) (dead : Nat), whoaStopped s.dev = false ∧ dead = Nat.land silent.toNat (getF s.dev fCD_STATUS_MEMBERS) ∧ dead ≠ 0 ∧ (dead.testBit 32 && dead.testBit 33) = false ∧ (dead.testBit 34 && dead.testBit 35) = false) :=
  ⟨⟨at_ (setF run fCD_RANGE_LEN_LINES 4), 0, true, 31, _, by decide +kernel, by decide +kernel, by decide +kernel, rfl⟩,
    ⟨at_ (setF run fCD_RANGE_LEN_LINES 4), 0, true, 31, _, by decide +kernel, by decide +kernel, by decide +kernel, rfl⟩,
    ⟨at_ (setF run fCD_RANGE_LEN_LINES 4), 0, true, 31, _, by decide +kernel, by decide +kernel, by decide +kernel, rfl⟩,
    ⟨at_ (modMs (setF run fCD_RANGE_CMD_BUSY 1) (fun m => { m with range := some (0, 4, true) })), 0, 4, true, _, by decide +kernel, by decide +kernel, by decide +kernel, rfl⟩,
    ⟨at_ run, 0, 15, by decide +kernel⟩,
    ⟨at_ run, 0, by decide +kernel⟩,
    ⟨at_ run, 0, by decide +kernel, by decide +kernel, by decide +kernel⟩,
    ⟨at_ run, 5, _, by decide +kernel, rfl, by decide +kernel, by decide +kernel, by decide +kernel⟩⟩

/-- The hypotheses of MatrixCompletes are met: one state for each of its clauses. -/
theorem test_meets_matrix_completes :
    (∃ (s : State) (iw : IWord) (g : Group) (o : MxOp) (qs : List TrkReq), MatrixGoes s.dev iw 1 g o qs)
    ∧ (∃ (s : State) (iw : IWord) (g : Group) (o : MxOp) (qs : List TrkReq), MatrixGoes s.dev iw 2 g o qs)
    ∧ (∃ (s : State) (iw : IWord) (g : Group) (o : MxOp) (qs : List TrkReq), MatrixGoes s.dev iw 3 g o qs)
    ∧ (∃ (s : State) (core : Fin 768) (o : MxOp) (d : Dev), whoaStopped s.dev = false ∧ nextStart (getCore s.dev core) [] (getCore s.dev core).mq = some o ∧ d = modCore s.dev core (fun c => { c with mq := c.mq.filter (fun x => x.id != o.id) }) ∧ xcOP o.ctrl = 1)
    ∧ (∃ (s : State) (core : Fin 768) (o : MxOp) (d : Dev), whoaStopped s.dev = false ∧ nextStart (getCore s.dev core) [] (getCore s.dev core).mq = some o ∧ d = modCore s.dev core (fun c => { c with mq := c.mq.filter (fun x => x.id != o.id) }) ∧ (xcOP o.ctrl = 2 ∨ (xcOP o.ctrl = 3 ∧ xcDEST o.ctrl = false)))
    ∧ (∃ (s : State) (core : Fin 768) (o : MxOp) (d : Dev), whoaStopped s.dev = false ∧ nextStart (getCore s.dev core) [] (getCore s.dev core).mq = some o ∧ d = modCore s.dev core (fun c => { c with mq := c.mq.filter (fun x => x.id != o.id) }) ∧ xcOP o.ctrl = 3 ∧ xcDEST o.ctrl = true ∧ drainBound (getCl d (coreCluster core)) (xcPORT o.ctrl) = true)
    ∧ (∃ (s : State) (core : Fin 768) (o : MxOp) (t : Tile) (fl : ArithFlags) (d : Dev), whoaStopped s.dev = false ∧ (getCore s.dev core).arrayLane = some o ∧ mmaTile o (getTile (getCore s.dev core) (xcTILE o.ctrl)) = (t, fl) ∧ d = countCore (setTile (modCore s.dev core (fun c => { c with arrayLane := c.arrayNext, arrayNext := none })) core (xcTILE o.ctrl) t) core 0x05 (mmaCycles o.ctrl))
    ∧ (∃ (s : State) (core : Fin 768) (o : MxOp) (t : Tile) (d : Dev), whoaStopped s.dev = false ∧ (getCore s.dev core).xferLane = some o ∧ xcOP o.ctrl = 2 ∧ t = aloadTile s.dev core o ∧ d = setTile (modCore s.dev core (fun c => { c with xferLane := none })) core (xcTILE o.ctrl) t)
    ∧ (∃ (s : State) (core : Fin 768) (o : MxOp) (t : Tile) (d : Dev) (d2 : Dev), whoaStopped s.dev = false ∧ (getCore s.dev core).xferLane = some o ∧ xcOP o.ctrl = 3 ∧ (xcDEST o.ctrl = true → beatsTaken (getCl s.dev (coreCluster core)) o = true) ∧ t = getTile (getCore s.dev core) (xcTILE o.ctrl) ∧ d = (if xcDEST o.ctrl then orFlags s.dev o.cmd (drainFlags t o (cmdSeed s.dev o.cmd)) else drainWrite (orFlags s.dev o.cmd (drainFlags t o (cmdSeed s.dev o.cmd))) core o) ∧ d2 = modCore (if t.poison || o.opPoison then markPoison d o.cmd else d) core (fun c => { c with xferLane := none })) :=
  ⟨⟨at_ (onCore mmaGrp), ins [(12, 8), (18, 10), (24, 12), (30, 1)], mmaGrp, _, _, ⟨by decide +kernel, by decide +kernel, by decide +kernel, by decide +kernel, (by decide +kernel), by decide +kernel, by decide +kernel, rfl, rfl, by decide +kernel⟩⟩,
    ⟨at_ (onCore aloadGrp), ins [(12, 8), (18, 10), (24, 12), (30, 1)], aloadGrp, _, _, ⟨by decide +kernel, by decide +kernel, by decide +kernel, by decide +kernel, (by decide +kernel), by decide +kernel, by decide +kernel, rfl, rfl, by decide +kernel⟩⟩,
    ⟨at_ (onCore drainGrp), ins [(12, 8), (18, 10), (24, 12), (30, 1)], drainGrp, _, _, ⟨by decide +kernel, by decide +kernel, by decide +kernel, by decide +kernel, (by decide +kernel), by decide +kernel, by decide +kernel, rfl, rfl, by decide +kernel⟩⟩,
    ⟨at_ (modCore (onCore mmaGrp) 0 (fun c => { c with mq := [mx 0x101] })), 0, mx 0x101, _, by decide +kernel, by decide +kernel, rfl, by decide +kernel⟩,
    ⟨at_ (modCore (onCore mmaGrp) 0 (fun c => { c with mq := [mx 3] })), 0, mx 3, _, by decide +kernel, by decide +kernel, rfl, by decide +kernel⟩,
    ⟨at_ (modCl (modCore (onCore mmaGrp) 0 (fun c => { c with mq := [mx 0x8003] })) 0 (fun c => { c with ctxA := { image := drainIn, valid := true } })), 0, mx 0x8003, _, by decide +kernel, by decide +kernel, rfl, by decide +kernel, by decide +kernel, by decide +kernel⟩,
    ⟨at_ (modCore (onCore mmaGrp) 0 (fun c => { c with arrayLane := some (mx 0x141) })), 0, mx 0x141, (mmaTile (mx 0x141) Tile.init).1, (mmaTile (mx 0x141) Tile.init).2, _, by decide +kernel, by decide +kernel, by decide +kernel, rfl⟩,
    ⟨at_ (modCore (onCore mmaGrp) 0 (fun c => { c with xferLane := some (mx 2) })), 0, mx 2, _, _, by decide +kernel, by decide +kernel, by decide +kernel, rfl, rfl⟩,
    ⟨at_ (modCore (onCore mmaGrp) 0 (fun c => { c with xferLane := some (mx 0x43) })), 0, mx 0x43, _, _, _, by decide +kernel, by decide +kernel, by decide +kernel, by decide +kernel, rfl, rfl, rfl⟩⟩

/-- The hypotheses of FabricCompletes are met: one state for each of its clauses. -/
theorem test_meets_fabric_completes :
    (∃ (s : State) (iw : IWord) (g : Group) (o : FabOp) (qs : List TrkReq), Issues s.dev iw [] [xSD1 iw, xSD1 iw + 1] g ∧ xRES iw = 0 ∧ xSC iw = 0 ∧ xSD2 iw = 0 ∧ xSD1 iw % 2 = 0 ∧ execOnce g iw = true ∧ qs = [{ kind := .virt, lo := (getS g (xSD1 iw)).toNat, hi := (getS g (xSD1 iw)).toNat + 0x10000, va := none, part := 0, dst := false }] ∧ AsyncRoom s.dev iw g (getCl s.dev (coreCluster iw.core)).fabQ.length 16 qs ∧ o = { id := s.dev.nextKey, core := iw.core, slot := iw.slot, cmd := g.cmd, tok := xTOK iw, kind := .fload, arg0 := getS g (xSD1 iw), arg1 := 0, origin := 0, poison := asyPoison g iw [xSD1 iw], loaded := false })
    ∧ (∃ (s : State) (iw : IWord) (g : Group) (o : FabOp), Issues s.dev iw [] [] g ∧ xRES iw = 0 ∧ xSC iw = 0 ∧ xSD1 iw = 0 ∧ xSD2 iw = 0 ∧ execOnce g iw = true ∧ AsyncRoom s.dev iw g (getCl s.dev (coreCluster iw.core)).fabQ.length 16 [] ∧ o = { id := s.dev.nextKey, core := iw.core, slot := iw.slot, cmd := g.cmd, tok := xTOK iw, kind := .fswap, arg0 := 0, arg1 := 0, origin := 0, poison := asyPoison g iw [], loaded := false })
    ∧ (∃ (s : State) (iw : IWord) (g : Group) (o : FabOp) (qs : List TrkReq), Issues s.dev iw [] [xSC iw, xSD1 iw, xSD2 iw] g ∧ xRES iw = 0 ∧ execOnce g iw = true ∧ qs = frunRanges s.dev iw.core (getS g (xSC iw)) (getS g (xSD1 iw)) ∧ AsyncRoom s.dev iw g (getCl s.dev (coreCluster iw.core)).fabQ.length 16 qs ∧ o = { id := s.dev.nextKey, core := iw.core, slot := iw.slot, cmd := g.cmd, tok := xTOK iw, kind := .frun, arg0 := getS g (xSC iw), arg1 := getS g (xSD1 iw), origin := getS g (xSD2 iw), poison := asyPoison g iw [xSC iw, xSD1 iw, xSD2 iw], loaded := false })
    ∧ (∃ (s : State) (cl : Fin 192) (o : FabOp) (d : Dev) (d2 : Dev) (d3 : Dev) (h : AccRes) (r : AccRes) (size : Nat) (img : Nat), whoaStopped s.dev = false ∧ nextFload (getCl s.dev cl).fabQ = some o ∧ o.arg0.toNat % 64 = 0 ∧ readBytesVa s.dev (coreEntry o.core) (cmdTag s.dev o.cmd) o.arg0.toNat 64 = (d, h) ∧ h.err = none ∧ size = accNat ((h.bytes.drop 8).take 4) ∧ size % 64 = 0 ∧ 0x2900 ≤ size ∧ size ≤ 0x10000 ∧ readBytesVa (launchFor (0x400 + o.core) o.cmd d) (coreEntry o.core) (cmdTag s.dev o.cmd) o.arg0.toNat size = (d2, r) ∧ r.err = none ∧ img = accNat r.bytes ∧ imageOk img = true ∧ d3 = modCl (launchFor (0x400 + o.core) o.cmd d2) cl (fun c => modShadow c (fun _ => { image := img, valid := true })))
    ∧ (∃ (s : State) (cl : Fin 192) (o : FabOp) (rest : List FabOp), whoaStopped s.dev = false ∧ (getCl s.dev cl).fabQ = o :: rest ∧ o.kind = .fswap ∧ drainSending s.dev cl = false)
    ∧ (∃ (s : State) (cl : Fin 192) (o : FabOp) (rest : List FabOp), whoaStopped s.dev = false ∧ (getCl s.dev cl).fabQ = o :: rest ∧ (getCl s.dev cl).run = none ∧ o.kind = .frun ∧ frunCheck s.dev cl o = none)
    ∧ (∃ (s : State) (cl : Fin 192) (port : Fin 8) (r : FabRun) (img : Nat) (b : Beat) (fl : ArithFlags) (a : IterRes), whoaStopped s.dev = false ∧ (getCl s.dev cl).run = some r ∧ img = (actCtx (getCl s.dev cl)).image ∧ (eINB img r.entry).testBit port = true ∧ portOpen (getIn r port) = true ∧ r.tail = none ∧ (eDRB img r.entry).testBit port = false ∧ spadBeat s.dev cl (ptEntry r.ptab port).1 (ptEntry r.ptab port).2 (getIn r port).next = (b, fl) ∧ a = pumpRun img (cmdSeed s.dev r.op.cmd) 2 { r := setIn r port { getIn r port with ready := [b], next := (getIn r port).next + 1 }, fl := fl, poison := false, ovr := false } ∧ a.ovr = false)
    ∧ (∃ (s : State) (cl : Fin 192) (port : Fin 8) (r : FabRun) (img : Nat) (b : Beat) (rest : List Beat) (d : Dev) (a : IterRes), whoaStopped s.dev = false ∧ (getCl s.dev cl).run = some r ∧ img = (actCtx (getCl s.dev cl)).image ∧ (eINB img r.entry).testBit port = true ∧ portOpen (getIn r port) = true ∧ r.tail = none ∧ (eDRB img r.entry).testBit port = true ∧ tabGet (fun _ => []) (getCl s.dev cl).drainBeats port = b :: rest ∧ d = modCl s.dev cl (fun c => { c with drainBeats := tabSet (fun _ => []) c.drainBeats port rest }) ∧ a = pumpRun img (cmdSeed d r.op.cmd) 2 { r := setIn r port { getIn r port with ready := [b] }, fl := 0, poison := false, ovr := false } ∧ a.ovr = false)
    ∧ (∃ (s : State) (cl : Fin 192) (r : FabRun) (n : Nat) (a : IterRes), whoaStopped s.dev = false ∧ (getCl s.dev cl).run = some r ∧ r.tail = some n ∧ a = tailRun (actCtx (getCl s.dev cl)).image (cmdSeed s.dev r.op.cmd) n { r := r, fl := 0, poison := false, ovr := false } ∧ a.ovr = false) :=
  ⟨⟨at_ (onCore fabGrp), ins [(18, 10), (30, 1)], fabGrp, _, _, by decide +kernel, by decide +kernel, by decide +kernel, by decide +kernel, (by decide +kernel), by decide +kernel, rfl, by decide +kernel, rfl⟩,
    ⟨at_ (onCore fabGrp), ins [(30, 1)], fabGrp, _, by decide +kernel, by decide +kernel, by decide +kernel, by decide +kernel, (by decide +kernel), by decide +kernel, by decide +kernel, rfl⟩,
    ⟨at_ (onCore fabGrp), ins [(12, 8), (18, 9), (24, 11), (30, 1)], fabGrp, _, _, by decide +kernel, by decide +kernel, by decide +kernel, rfl, by decide +kernel, rfl⟩,
    ⟨at_ loading, 0, fab .fload 0x40000000, loading, loading, _, imgRead 64, imgRead 0x2900, 0x2900, image, by decide +kernel, by decide +kernel, by decide +kernel, load_run 64 (by decide), rfl, by decide +kernel, by decide +kernel, by decide +kernel, by decide +kernel, load_run' 0x2900 (by decide), rfl, image_read, image_ok, rfl⟩,
    ⟨at_ (fabQ [fab .fswap 0] none 0), 0, fab .fswap 0, [], by decide +kernel, by decide +kernel, by decide +kernel, by decide +kernel⟩,
    ⟨at_ (fabQ [fab .frun 0] none image), 0, fab .frun 0, [], by decide +kernel, by decide +kernel, by decide +kernel, by decide +kernel, (by decide +kernel)⟩,
    ⟨at_ (fabQ [] (some (fabRun 0 none)) beatImage), 0, 0, fabRun 0 none, _, beat.1, beat.2, _, by decide +kernel, by decide +kernel, rfl, by decide +kernel, by decide +kernel, by decide +kernel, by decide +kernel, (by decide +kernel), rfl, by decide +kernel⟩,
    ⟨at_ (modCl (fabQ [] (some (fabRun 0 none)) drainImage) 0 (fun c => { c with drainBeats := [(0, [drained])] })), 0, 0, fabRun 0 none, _, drained, [], _, _, by decide +kernel, by decide +kernel, rfl, by decide +kernel, by decide +kernel, by decide +kernel, by decide +kernel, (by decide +kernel), rfl, rfl, by decide +kernel⟩,
    ⟨at_ (fabQ [] (some (fabRun 0 (some 1))) image), 0, fabRun 0 (some 1), 1, _, by decide +kernel, by decide +kernel, by decide +kernel, rfl, by decide +kernel⟩⟩

/-- The hypotheses of TiersComplete are met: one state for each of its clauses. -/
theorem test_meets_tiers_complete :
    (∃ (s : State) (sector : Nat) (a : AdderSector), s.dev.ms.adders.find? (fun a => a.sector == sector) = some a)
    ∧ (∃ (s : State) (f : Fin 4), getF s.dev (fMT_FAR_CAP_STATE f) = 1)
    ∧ (∃ (s : State) (f : Fin 4), getF s.dev (fMT_FAR_CAP_STATE f) = 1)
    ∧ (∃ (s : State) (port : Fin 2), hostDead s.dev port = false)
    ∧ (∃ (s : State) (sector : Nat), getF s.dev fMT_CFG_SCRUB_H ≠ 0 ∧ isNear (64 * sector) = true ∧ s.dev.pw.sleeping.getLsbD (nField (64 * sector) 39 37) = false ∧ stackLost s.dev (stackOf (64 * sector)) = false ∧ dieLost s.dev (nField (64 * sector) 39 37) = false)
    ∧ (∃ (s : State) (port : Fin 2) (f : Fin 4), SetupTaken s.dev port (offMT_FAR_CTL f) ∧ getF s.dev (fMT_FAR_CAP_STATE f) = 2)
    ∧ (∃ (s : State) (port : Fin 2) (f : Fin 4), SetupTaken s.dev port (offMT_FAR_CTL f) ∧ getF s.dev (fMT_FAR_CAP_STATE f) = 3)
    ∧ (∃ (s : State) (f : Fin 4), s.dev.ms.farRetrain.contains f.val = true)
    ∧ (∃ (s : State) (port : Fin 2) (entries : Fin 1025) (d : Dev) (d2 : Dev) (l : List (Word × Word)), SetupTaken s.dev port offMT_BACK_CTL ∧ d = writeReg s.dev offMT_BACK_CTL (BitVec.ofNat 64 (2 ^ 16 + entries.val)) ∧ readBack (64 * getF d fMT_BACK_BASE_BASE) (getF d fMT_BACK_CTL_ENTRIES) d = (d2, l))
    ∧ (∃ (s : State) (port : Fin 2) (kind : Fin 4) (sector : BitVec 42) (d : Dev), SetupTaken s.dev port offMT_INJECT ∧ debugOn s.dev = true ∧ d = writeReg s.dev offMT_INJECT (BitVec.ofNat 64 (kind.val * 2 ^ 62 + sector.toNat * 64 + 1)) ∧ isNear (64 * getF d fMT_INJECT_ADDR) = true)
    ∧ (∃ (s : State) (stack : Fin 16) (on : Nat → Bool) (d : Dev) (d2 : Dev) (d3 : Dev) (e : ErrRec), stackLost s.dev stack = false ∧ dieLost s.dev (stack.val / 2) = false ∧ on = (fun l => isNear (l * 512) && stackOf (l * 512) == stack.val) ∧ d = setF (setF s.dev fFLT_HEALTH_STACKS_LOST (Nat.lor (getF s.dev fFLT_HEALTH_STACKS_LOST) (2 ^ stack.val))) fMT_STATUS_STACK_OK (Nat.land (getF (setF s.dev fFLT_HEALTH_STACKS_LOST (Nat.lor (getF s.dev fFLT_HEALTH_STACKS_LOST) (2 ^ stack.val))) fMT_STATUS_STACK_OK) (65535 - 2 ^ stack.val)) ∧ d2 = modMs (dropBehind (dropWrites d (fun pa attr => isNear pa && stackOf (backingOf pa attr.home) == stack.val)) (fun l => on l.backing)) (fun m => { m with adders := m.adders.filter (fun a => !(isNear (a.sector * 64) && stackOf (a.sector * 64) == stack.val)) }) ∧ d3 = retireStack stack 4096 (stack.val / 2 * 2 ^ 21) d2 ∧ e = { sev := 1, cause := 0x0060, die := stack.val / 2, unit := 0x07, index := stack, replace := true })
    ∧ (∃ (s : State) (f : Fin 4), getF s.dev (fMT_FAR_CAP_STATE f) ≠ 0)
    ∧ (∃ (s : State) (f : Fin 4), getF s.dev (fMT_FAR_CAP_STATE f) ≠ 0) :=
  ⟨⟨at_ (modMs up (fun m => { m with adders := [adder] })), 64, adder, by decide +kernel⟩,
    ⟨at_ (far 1), 0, by decide +kernel⟩,
    ⟨at_ (far 1), 0, by decide +kernel⟩,
    ⟨at_ up, 1, by decide +kernel⟩,
    ⟨at_ run, 64, by decide +kernel, by decide +kernel, by decide +kernel, by decide +kernel, (by decide +kernel)⟩,
    ⟨at_ (far 2), 0, 0, by decide +kernel, by decide +kernel⟩,
    ⟨at_ (far 3), 0, 0, by decide +kernel, by decide +kernel⟩,
    ⟨at_ (modMs up (fun m => { m with farRetrain := [3] })), 3, by decide +kernel⟩,
    ⟨at_ up, 0, 1, _, back.1, back.2, by decide +kernel, rfl, by decide +kernel⟩,
    ⟨at_ (setF up fSU_FW_DEBUG 1), 0, 2, 64, _, by decide +kernel, by decide +kernel, rfl, by decide +kernel⟩,
    ⟨at_ up, 15, _, _, _, _, _, by decide +kernel, by decide +kernel, rfl, rfl, rfl, rfl, rfl⟩,
    ⟨at_ (far 1), 0, by decide +kernel⟩,
    ⟨at_ (far 1), 0, by decide +kernel⟩⟩

/-- The hypotheses of LinksAndBaysComplete are met: one state for each of its clauses. -/
theorem test_meets_links_and_bays_complete :
    (∃ (s : State) (link : Fin 16) (found : LinkTrain) (r : Nat) (gen : Nat) (feats : Nat) (d : Dev), s.dev.su.begun = true ∧ linkSettled s.dev link = false ∧ (14 ≤ link.val → getF s.dev (fDL_BAY_STATUS_STATE (link.val - 14)) = 2) ∧ (found.reversed = true → link.val = 6 ∨ link.val = 7) ∧ trainRate s.dev link found = some r ∧ gen = (if min (advVersion s.dev (linkEnds link).1) (advVersion s.dev (linkEnds link).2) = 3 then 2 else 1) ∧ feats = (decide ((linkEnds link).1 < 8) && decide ((linkEnds link).2 < 8)).toNat ∧ d = setReg s.dev (offDL_LINK link) (BitVec.ofNat 64 (2 * 2 ^ 62 + gen * 2 ^ 60 + r * 2 ^ 56 + (link.val == 6 || link.val == 7).toNat * 2 ^ 55 + feats * 2 ^ 49 + feats * 2 ^ 48 + getF s.dev (fDL_LINK_REPAIRS link) * 2 ^ 40 + (2 ^ linkModules link - 1))))
    ∧ (∃ (s : State) (link : Fin 16) (found : LinkTrain), s.dev.su.begun = true ∧ linkSettled s.dev link = false ∧ (14 ≤ link.val → getF s.dev (fDL_BAY_STATUS_STATE (link.val - 14)) = 2) ∧ found.reversed = false ∧ trainRate s.dev link found = none)
    ∧ (∃ (s : State) (link : Fin 16) (module : Fin 12) (cause : RepairCause) (d : Dev), linkUp s.dev link = true ∧ (getF s.dev (fDL_LINK_MODULES link)).testBit module = true ∧ ((cause = .lane ∧ d = s.dev) ∨ ∃ n, cause = .crc n ∧ d = satF s.dev (fDL_LINK_ERR_CRC link) n.toNat ∧ getF d fDL_CFG_REPAIR_THR < n.toNat))
    ∧ (∃ (s : State) (link : Fin 16) (module : Fin 12) (cause : RepairCause) (d : Dev), linkUp s.dev link = true ∧ (getF s.dev (fDL_LINK_MODULES link)).testBit module = true ∧ ((cause = .lane ∧ d = s.dev) ∨ ∃ n, cause = .crc n ∧ d = satF s.dev (fDL_LINK_ERR_CRC link) n.toNat ∧ getF d fDL_CFG_REPAIR_THR < n.toNat))
    ∧ (∃ (d : Dev) (d2 : Dev) (l : Nat) (m : Nat), d2 = setF (setF d (fDL_LINK_MODULES l) (Nat.land (getF d (fDL_LINK_MODULES l)) (4095 - 2 ^ m))) (fDL_LINK_X8 l) (Nat.land (getF d (fDL_LINK_X8 l)) (4095 - 2 ^ m)) ∧ linkShort d2 l = true)
    ∧ (∃ (d : Dev) (d2 : Dev) (l : Nat) (m : Nat), d2 = setF (setF d (fDL_LINK_MODULES l) (Nat.land (getF d (fDL_LINK_MODULES l)) (4095 - 2 ^ m))) (fDL_LINK_X8 l) (Nat.land (getF d (fDL_LINK_X8 l)) (4095 - 2 ^ m)) ∧ linkShort d2 l = false)
    ∧ (∃ (s : State) (port : Fin 2) (link : Fin 16) (module : Fin 16) (d : Dev), SetupTaken s.dev port (offDL_LINK_CTL link) ∧ d = writeReg s.dev (offDL_LINK_CTL link) (BitVec.ofNat 64 (1 + 2 ^ 16 * module.val)) ∧ linkUp d link = true ∧ module.val < linkModules link)
    ∧ (∃ (s : State) (bay : Fin 2) (desc : BitVec 4096) (d : Dev) (list : Nat) (c : _), s.dev.su.powered = true ∧ s.dev.su.begun = false ∧ stage s.dev = 0 ∧ (getF s.dev fID_PART_BAYS).testBit bay = true ∧ list = (if s.sec.run = 2 then s.sec.bankB else s.sec.bankA).listDigest ∧ d = setF (showDesc { s.dev with bays := tabSet (fun _ => BayRun.init) s.dev.bays bay BayRun.init } bay desc) (fDL_BAY_STATUS_RIGHTS_REQ bay) (descNat desc 0x14 4 % 16) ∧ bayCause desc list = some c)
    ∧ (∃ (s : State) (port : Fin 2) (bay : Fin 2), SetupTaken s.dev port (offDL_BAY_CTL bay) ∧ (tabGet (fun _ => BayRun.init) s.dev.bays bay).lastBound = none)
    ∧ (∃ (s : State) (port : Fin 2) (bay : Fin 2), SetupTaken s.dev port (offDL_BAY_CTL bay) ∧ (tabGet (fun _ => BayRun.init) s.dev.bays bay).lastBound = none)
    ∧ (∃ (s : State) (bay : Fin 2), whoaStopped s.dev = false ∧ getF s.dev (fDL_BAY_STATUS_STATE bay) = 2 ∧ linkUp s.dev (14 + bay.val) = true ∧ getF s.dev (fDL_BAY_CTL_BIND bay) = 1 ∧ getF s.dev (fSLC_CTL_STATE (getF s.dev (fDL_BAY_CTL_SLICE bay))) = 2)
    ∧ (∃ (s : State) (bay : Fin 2), getF s.dev (fDL_BAY_STATUS_STATE bay) = 2)
    ∧ (∃ (s : Dev), (∀ l, l < 14 → linkLost s l = false))
    ∧ (∃ (s : Dev), (∀ l, l < 14 → linkLost s l = false))
    ∧ (∃ (s : Dev), (∀ l, l < 14 → linkLost s l = false))
    ∧ (∃ (s : Dev), (∀ l, l < 14 → linkLost s l = false))
    ∧ (∃ (s : Dev), (∀ l, l < 14 → linkLost s l = false)) :=
  ⟨⟨at_ begun, 0, { rates := 31, reversed := false }, 3, _, _, _, by decide +kernel, by decide +kernel, by decide +kernel, by decide +kernel, (by decide +kernel), rfl, rfl, rfl⟩,
    ⟨at_ begun, 0, { rates := 0, reversed := false }, by decide +kernel, by decide +kernel, by decide +kernel, by decide +kernel, (by decide +kernel)⟩,
    ⟨at_ linked, 3, 2, .crc 5000, satF linked (fDL_LINK_ERR_CRC 3) 5000, by decide +kernel, by decide +kernel, Or.inr ⟨5000, by decide +kernel⟩⟩,
    ⟨at_ linked, 3, 2, .lane, linked, by decide +kernel, by decide +kernel, Or.inl ⟨rfl, rfl⟩⟩,
    ⟨setF linked (fDL_LINK_MODULES 3) 0xF, _, 3, 0, rfl, by decide +kernel⟩,
    ⟨linked, _, 3, 0, rfl, by decide +kernel⟩,
    ⟨at_ linked, 0, 3, 7, _, by decide +kernel, rfl, by decide +kernel, by decide +kernel⟩,
    ⟨at_ stand, 0, 0, _, _, 1, by decide +kernel, by decide +kernel, by decide +kernel, by decide +kernel, rfl, rfl, by decide +kernel⟩,
    ⟨at_ up, 0, 1, by decide +kernel, by decide +kernel⟩,
    ⟨at_ up, 0, 0, by decide +kernel, by decide +kernel⟩,
    ⟨at_ (setF (setF (setF run (fDL_BAY_STATUS_STATE 0) 2) (fDL_LINK_STATE 14) 2) (fDL_BAY_CTL_BIND 0) 1), 0, by decide +kernel, by decide +kernel, by decide +kernel, by decide +kernel, (by decide +kernel)⟩,
    ⟨at_ (setF up (fDL_BAY_STATUS_STATE 1) 2), 1, by decide +kernel⟩,
    ⟨up, by decide +kernel⟩,
    ⟨up, by decide +kernel⟩,
    ⟨up, by decide +kernel⟩,
    ⟨up, by decide +kernel⟩,
    ⟨up, by decide +kernel⟩⟩

/-- The hypotheses of ObservationCompletes are met: one state for each of its clauses. -/
theorem test_meets_observation_completes :
    (∃ (s : State), stage s.dev = 2 ∧ whoaStopped s.dev = false)
    ∧ (∃ (s : State), stage s.dev = 2 ∧ whoaStopped s.dev = false ∧ getF s.dev fOBS_CFG_SAMPLE_US ≠ 0)
    ∧ (∃ (s : State) (port : Fin 2) (buf : Fin 2) (data : Word) (s1 : Dev) (d : Dev), SetupTaken s.dev port (offOBS_TRB_CFG buf) ∧ getF s.dev ⟨offOBS_TRB_CFG buf, 0, 0⟩ = 0 ∧ s1 = writeReg s.dev (offOBS_TRB_CFG buf) (data ||| 1) ∧ ringSize (getF s1 ⟨offOBS_TRB_CFG buf, 5, 1⟩) = true ∧ (getF s1 ⟨offOBS_TRB_CFG buf, 41, 40⟩ = 1 ∨ getF s1 ⟨offOBS_TRB_CFG buf, 41, 40⟩ = 2) ∧ portUp s1 (portOf (getF s1 ⟨offOBS_TRB_CFG buf, 41, 40⟩)) = true ∧ d = setF (setF s1 (fOBS_TRB_STATE_STATE buf) 1) (fOBS_TRB_STATE_CAUSE buf) 0)
    ∧ (∃ (s : State) (port : Fin 2), SetupTaken s.dev port offOBS_TSYNC_STEP ∧ (List.range 16).any (fun c => getF s.dev (fSLC_CYC_CFG_EN c) == 1) = false)
    ∧ (∃ (s : State), s.dev.su.powered = true ∧ s.dev.pw.off = .on ∧ getF s.dev fSU_SYNCIO_MODE ≠ 3)
    ∧ (∃ (s : State) (d : _), s.dev.su.powered = true ∧ s.dev.pw.off = .on ∧ getF s.dev fSU_SYNCIO_MODE ≠ 3 ∧ getF s.dev fSU_SYNCIO_MODE = 2 ∧ d = setF s.dev fSU_PINS_SYNC 1)
    ∧ (∃ (s : State), getF s.dev fOBS_TSYNC_CFG_SRC ≠ 0 ∧ getF s.dev fOBS_TSYNC_STAT_STATE ≠ 3)
    ∧ (∃ (s : State), debugOn s.dev = true) :=
  ⟨⟨at_ up, by decide +kernel, by decide +kernel⟩,
    ⟨at_ (setF up fOBS_CFG_SAMPLE_US 100), by decide +kernel, by decide +kernel, by decide +kernel⟩,
    ⟨at_ up, 0, 0, 0x1000000000C, _, _, by decide +kernel, by decide +kernel, rfl, by decide +kernel, by decide +kernel, by decide +kernel, rfl⟩,
    ⟨at_ up, 0, by decide +kernel, by decide +kernel⟩,
    ⟨at_ up, by decide +kernel, by decide +kernel, by decide +kernel⟩,
    ⟨at_ (setF up fSU_SYNCIO_MODE 2), _, by decide +kernel, by decide +kernel, by decide +kernel, by decide +kernel, rfl⟩,
    ⟨at_ (setF up fOBS_TSYNC_CFG_SRC 1), by decide +kernel, by decide +kernel⟩,
    ⟨at_ (setF up fSU_FW_DEBUG 1), by decide +kernel⟩⟩

/-- The hypotheses of WhoaAndDumpComplete are met: one state for each of its clauses. -/
theorem test_meets_whoa_and_dump_complete :
    (∃ (s : State) (port : Fin 2), SetupTaken s.dev port offOBS_WHOA_CTL ∧ debugOn s.dev = true)
    ∧ (∃ (s : State) (d : Dev), s.dev.su.powered = true ∧ d = setF { s.dev with obs := { s.dev.obs with stopIn := true } } fSU_PINS_STOP 1 ∧ getF d fOBS_WHOA_CFG_IN_EN = 1 ∧ d.pw.off = .on)
    ∧ (∃ (s : State) (d : Dev), s.dev.su.powered = true ∧ d = setF { s.dev with obs := { s.dev.obs with stopIn := true } } fSU_PINS_STOP 1 ∧ getF d fOBS_WHOA_CFG_IN_EN = 0)
    ∧ (∃ (s : State) (port : Fin 2) (hub : Fin 2) (data : Word) (d : Dev) (d2 : Dev) (n : Nat), SetupTaken s.dev port (offOBS_DUMP_CTL hub) ∧ d = writeReg s.dev (offOBS_DUMP_CTL hub) (putFld (data ||| 1) 2 1 0) ∧ n = getF d (fOBS_DUMP_CTL_SLICE hub) ∧ dumpRefuse d hub n = 0 ∧ d2 = setReg d (offOBS_DUMP_STAT hub) (BitVec.ofNat 64 (2 ^ 62 + getF d (fOBS_DUMP_STAT_TRIG_CHAN hub) * 2 ^ 40)))
    ∧ (∃ (s : State) (chan : Fin 16) (wd : Nat) (d : Dev), wd = fld (reg s.dev (offOBS_CHWD (chan.val / 8))) (8 * (chan.val % 8) + 7) (8 * (chan.val % 8)) ∧ wd ≠ 0 ∧ whoaStopped s.dev = false ∧ getF s.dev (fCH_STATUS_OWNED chan) ≠ 0 ∧ frozenSlice s.dev (chanSlice s.dev chan) = false ∧ s.dev.cmds.all (fun x => x.chan != chan.val) = false ∧ d = { s.dev with now := max s.dev.now ((getCh s.dev chan).lastDone + 10000000 * wd) })
    ∧ (∃ (s : State) (hub : Fin 2) (d : DumpRun), d = getDump s.dev hub ∧ d.active = true ∧ whoaStopped s.dev = false ∧ (residentRegions s.dev d.slice).any (fun r => (regionTab s.dev r).any (fun e => !e.2.reqs.isEmpty || e.2.sb.any (fun x => x.st == .sent))) = false ∧ getF (writeDump s.dev hub) (fOBS_DUMP_CTL_ACTION hub) = 2)
    ∧ (∃ (s : State) (hub : Fin 2) (d : DumpRun), d = getDump s.dev hub ∧ d.active = true ∧ whoaStopped s.dev = false ∧ (residentRegions s.dev d.slice).any (fun r => (regionTab s.dev r).any (fun e => !e.2.reqs.isEmpty || e.2.sb.any (fun x => x.st == .sent))) = false ∧ getF (writeDump s.dev hub) (fOBS_DUMP_CTL_ACTION hub) < 2)
    ∧ (∃ (s : State) (port : Fin 2) (hub : Fin 2) (data : Word) (d : Dev), SetupTaken s.dev port (offOBS_DUMP_CTL hub) ∧ d = writeReg s.dev (offOBS_DUMP_CTL hub) (putFld data 2 0 2) ∧ getF d (fOBS_DUMP_STAT_STATE hub) = 2)
    ∧ (∃ (s : State) (port : Fin 2) (hub : Fin 2) (data : Word) (d : Dev), SetupTaken s.dev port (offOBS_DUMP_CTL hub) ∧ d = writeReg s.dev (offOBS_DUMP_CTL hub) (putFld data 2 0 4) ∧ getF d (fOBS_DUMP_STAT_STATE hub) = 2) :=
  ⟨⟨at_ (setF up fSU_FW_DEBUG 1), 0, by decide +kernel, by decide +kernel⟩,
    ⟨at_ (setF up fOBS_WHOA_CFG_IN_EN 1), _, by decide +kernel, rfl, by decide +kernel⟩,
    ⟨at_ up, _, by decide +kernel, rfl, by decide +kernel⟩,
    ⟨at_ dumpable, 0, 0, 0, _, _, _, by decide +kernel, rfl, rfl, by decide +kernel, rfl⟩,
    ⟨at_ (setF (sent1 (cmd 1)) ⟨offOBS_CHWD 0, 7, 0⟩ 3), 0, _, _, rfl, by decide +kernel, by decide +kernel, by decide +kernel, by decide +kernel, (by decide +kernel), rfl⟩,
    ⟨at_ ({ (setF dumpable (fOBS_DUMP_CTL_ACTION 0) 2) with obs := { dumpable.obs with dumps := [(0, { DumpRun.init with active := true })] } }), 0, { DumpRun.init with active := true }, by decide +kernel, by decide +kernel, by decide +kernel, by decide +kernel, (by decide +kernel)⟩,
    ⟨at_ ({ (setF dumpable (fOBS_DUMP_CTL_ACTION 0) 0) with obs := { dumpable.obs with dumps := [(0, { DumpRun.init with active := true })] } }), 0, { DumpRun.init with active := true }, by decide +kernel, by decide +kernel, by decide +kernel, by decide +kernel, (by decide +kernel)⟩,
    ⟨at_ (setF dumpable (fOBS_DUMP_STAT_STATE 0) 2), 0, 0, 0, _, by decide +kernel, rfl, by decide +kernel⟩,
    ⟨at_ (setF dumpable (fOBS_DUMP_STAT_STATE 0) 2), 0, 0, 0, _, by decide +kernel, rfl, by decide +kernel⟩⟩

/-- The hypotheses of FaultsComplete are met: one state for each of its clauses. -/
theorem test_meets_faults_complete :
    (∃ (s : State), s.dev.su.begun = true ∧ stage s.dev = 2 ∧ whoaStopped s.dev = false)
    ∧ (∃ (s : State), s.dev.su.begun = true ∧ stage s.dev = 2 ∧ whoaStopped s.dev = true)
    ∧ (∃ (s : State) (port : Fin 2) (ring : Fin 2) (data : Word) (s1 : Dev), SetupTaken s.dev port (offFLT_ER_CFG ring) ∧ getF s.dev ⟨offFLT_ER_CFG ring, 0, 0⟩ = 0 ∧ s1 = writeReg s.dev (offFLT_ER_CFG ring) (data ||| 1) ∧ ringSize (getF s1 ⟨offFLT_ER_CFG ring, 5, 1⟩) = true ∧ (getF s1 ⟨offFLT_ER_CFG ring, 41, 40⟩ = 1 ∨ getF s1 ⟨offFLT_ER_CFG ring, 41, 40⟩ = 2) ∧ portUp s1 (portOf (getF s1 ⟨offFLT_ER_CFG ring, 41, 40⟩)) = true)
    ∧ (∃ (s : State) (port : Fin 2) (ring : Fin 2) (head : BitVec 16) (d : Dev), SetupTaken s.dev port (offFLT_ER_STATE ring) ∧ ringSize (getF s.dev (fFLT_ER_CFG_LOG2SZ ring)) = true ∧ d = writeReg s.dev (offFLT_ER_STATE ring) (head.setWidth 64) ∧ getF d ⟨offFLT_ER_STATE ring, 15, 0⟩ < 2 ^ getF d (fFLT_ER_CFG_LOG2SZ ring))
    ∧ (∃ (s : State) (port : Fin 2) (ring : Fin 2) (head : BitVec 16) (d : Dev), SetupTaken s.dev port (offFLT_ER_STATE ring) ∧ ringSize (getF s.dev (fFLT_ER_CFG_LOG2SZ ring)) = true ∧ d = writeReg s.dev (offFLT_ER_STATE ring) (head.setWidth 64) ∧ 2 ^ getF d (fFLT_ER_CFG_LOG2SZ ring) ≤ getF d ⟨offFLT_ER_STATE ring, 15, 0⟩) :=
  ⟨⟨at_ up, by decide +kernel, by decide +kernel, by decide +kernel⟩,
    ⟨at_ (setF up fOBS_WHOA_CTL_STOPPED 1), by decide +kernel, by decide +kernel, by decide +kernel⟩,
    ⟨at_ up, 0, 1, 0x1000000000C, _, by decide +kernel, by decide +kernel, rfl, by decide +kernel, by decide +kernel, by decide +kernel⟩,
    ⟨at_ (setF up (fFLT_ER_CFG_LOG2SZ 0) 6), 0, 0, 63, _, by decide +kernel, by decide +kernel, rfl, by decide +kernel⟩,
    ⟨at_ (setF up (fFLT_ER_CFG_LOG2SZ 0) 6), 0, 0, 64, _, by decide +kernel, by decide +kernel, rfl, by decide +kernel⟩⟩

/-- The hypotheses of PowerCompletes are met: one state for each of its clauses. -/
theorem test_meets_power_completes :
    (∃ (s : State) (m : TickMeas) (d : Dev) (d2 : Dev) (d3 : Dev) (d4 : Dev) (a : Nat) (beff : Nat) (al : List Nat), stage s.dev = 2 ∧ s.dev.pw.off = .on ∧ whoaStopped s.dev = false ∧ d = (let t := setTemps (setF s.dev fPW_STATUS_REIN_UP 1) m.temps; { t with pw := { t.pw with missedClamp := false, ratios := m.ratios.map (fun e => (e.1.val, e.2.val)) } }) ∧ beff = nextBeff d ∧ a = ((beff : Int) - ((m.pin.toNat : Int) - ((m.meters.map (fun w => w.toNat)).sum : Nat)) - (d.pw.hist.foldl (fun (x : Int) h => x + h.1 - h.2) 0) / 200).toNat ∧ allotments d m a = (d2, al) ∧ d3 = ((List.range 32).zip al).foldl (regionTick m) d2 ∧ d4 = { d3 with pw := { d3.pw with beff := beff, hist := ((m.pin.toNat, beff) :: d3.pw.hist).take 200 } })
    ∧ (∃ (s : State), stage s.dev = 2 ∧ s.dev.pw.off = .on ∧ whoaStopped s.dev = false ∧ s.dev.pw.missedClamp = false)
    ∧ (∃ (s : State) (vin : BitVec 16) (iin : BitVec 16), s.dev.su.powered = true ∧ s.dev.pw.off ≠ .input ∧ (100 * getF s.dev fPW_CFG_OC_LIMIT_A < iin.toNat ∨ vin.toNat < 4400))
    ∧ (∃ (s : State) (vin : BitVec 16) (iin : BitVec 16), 4500 ≤ vin.toNat ∧ iin.toNat ≤ 90 * getF s.dev fPW_CFG_OC_LIMIT_A)
    ∧ (∃ (s : State), s.dev.su.powered = true ∧ s.dev.pw.off ≠ .leak)
    ∧ (∃ (s : State) (sensor : Fin 50) (temp : Fin 256) (d : Dev), s.dev.su.powered = true ∧ s.dev.pw.off ≠ .input ∧ s.dev.pw.off ≠ .leak ∧ (if sensor.val < 34 then 115 else 105) ≤ temp.val ∧ d = setF (setF (planeOff s.dev .trip) fSU_PINS_FAULT 1) fSU_PINS_PWR_OK 0)
    ∧ (∃ (s : State), s.dev.su.powered = true ∧ s.dev.pw.off ≠ .input ∧ s.dev.pw.off ≠ .leak)
    ∧ (∃ (s : State) (vin : BitVec 16) (d : Dev), s.dev.su.powered = true ∧ s.dev.pw.off ≠ .input ∧ (vin.toNat < 4000 ∨ 6000 < vin.toNat) ∧ d = setF (planeOff s.dev .input) fSU_PINS_PWR_OK 0)
    ∧ (∃ (s : State) (d : Dev), s.dev.su.powered = true ∧ s.dev.pw.off = .on ∧ getF s.dev fPW_STATUS_REFCLK_OK ≠ 0 ∧ s.dev.su.refLost = false ∧ d = setF (planeOff s.dev .refclk) fPW_STATUS_REFCLK_OK 0)
    ∧ (∃ (s : State) (port : Fin 2) (data : Word), SetupTaken s.dev port offPW_BUDGET ∧ 1000 ≤ fld data 11 0 ∧ fld data 11 0 ≤ 3600)
    ∧ (∃ (s : State) (port : Fin 2) (data : Word), SetupTaken s.dev port offPW_RAMP ∧ rampOk (fld data 19 0) = true ∧ fld data 43 32 ≤ 3600) :=
  ⟨⟨at_ up, meas, _, granted.1, _, _, _, _, granted.2, by decide +kernel, by decide +kernel, by decide +kernel, rfl, rfl, rfl, by decide +kernel, rfl, rfl⟩,
    ⟨at_ up, by decide +kernel, by decide +kernel, by decide +kernel, by decide +kernel⟩,
    ⟨at_ up, 4399, 0, by decide +kernel, by decide +kernel, by decide +kernel⟩,
    ⟨at_ up, 4500, 0, by decide +kernel, by decide +kernel⟩,
    ⟨at_ up, by decide +kernel, by decide +kernel⟩,
    ⟨at_ up, 33, 115, _, by decide +kernel, by decide +kernel, by decide +kernel, by decide +kernel, rfl⟩,
    ⟨at_ up, by decide +kernel, by decide +kernel, by decide +kernel⟩,
    ⟨at_ up, 6001, _, by decide +kernel, by decide +kernel, by decide +kernel, rfl⟩,
    ⟨at_ (setF up fPW_STATUS_REFCLK_OK 1), _, by decide +kernel, by decide +kernel, by decide +kernel, by decide +kernel, rfl⟩,
    ⟨at_ up, 0, 3600, by decide +kernel, by decide +kernel, by decide +kernel⟩,
    ⟨at_ up, 0, 3600 * 2 ^ 32 + 100, by decide +kernel, by decide +kernel, by decide +kernel⟩⟩

/-- The hypotheses of SleepAndEnergyComplete are met: one state for each of its clauses. -/
theorem test_meets_sleep_and_energy_complete :
    (∃ (s : State) (cl : Fin 192) (d : Dev), (getCl s.dev cl).gated = false ∧ clusterIdle s.dev cl = true ∧ getF s.dev (fPW_RGN_STATE (cl.val / 6)) < 2 ∧ d = modCl s.dev cl (fun c => { c with gated := true }))
    ∧ (∃ (s : State) (region : Fin 32), getF s.dev (fPW_RGN_STATE region) = 1 ∧ getF s.dev (fSLC_RGN_STATE region) = 0 ∧ (getF s.dev fPW_GATE_PG_EN).testBit region = true ∧ s.dev.pw.filler.getLsbD region = false ∧ s.dev.selfTest.getLsbD region = false)
    ∧ (∃ (s : State) (die : Fin 8), getF s.dev fPW_GATE_SR_EN ≠ 0 ∧ dieLost s.dev die = false ∧ (List.range 4).any (fun i => getF s.dev (fPW_RGN_STATE (4 * die.val + i)) != 2 && getF s.dev (fSLC_RGN_STATE (4 * die.val + i)) != 3) = false ∧ s.dev.ms.misses.any (fun m => isNear (m.backing * 512) && nField (m.backing * 512) 39 37 == die.val) = false)
    ∧ (∃ (s : State) (cl : Fin 192) (d : Dev), (getCl s.dev cl).gated = true ∧ getF s.dev (fPW_RGN_STATE (cl.val / 6)) = 1 ∧ d = modCl s.dev cl (fun c => { c with gated := false }))
    ∧ (∃ (s : State) (region : Fin 32), getF s.dev (fPW_RGN_STATE region) = 3)
    ∧ (∃ (s : State) (cl : Fin 192) (mv : Fin 1024), getF s.dev fPW_CFG_DROOP_MV < mv.val ∧ getF s.dev (fPW_RGN_STATE (cl.val / 6)) < 2 ∧ (getCl s.dev cl).stretched = false)
    ∧ (∃ (s : State) (core : Fin 768) (p : Fin 16) (new : Nat), getF s.dev fPW_STATUS_REIN_UP ≠ 0 ∧ getF s.dev (fPW_RGN_VOLT_MV (core.val / 24)) = 650 + 25 * p.val ∧ getF s.dev (fPW_RGN_STATE (core.val / 24)) < 2 ∧ p.val ≠ 15 ∧ new = coreFmax s.dev core p - 10)
    ∧ (∃ (s : State) (m : EnergyMeas) (kn : Nat) (kd : Nat) (runs : Nat) (idle : Nat) (cl : Bool) (d : Dev) (d2 : Dev) (d3 : Dev) (d4 : Dev), s.dev.su.powered = true ∧ s.dev.pw.off ≠ .input ∧ settleK m = (kn, kd, cl) ∧ d = (let t := setTemps s.dev m.temps; setF (setF (setF t fPW_INPUT_VIN m.vin.toNat) fPW_INPUT_IIN m.iin.toNat) fPW_INPUT_P10_W m.p10.toNat) ∧ m.runs.foldl (settleRun m kn kd) (d, 0) = (d2, runs) ∧ (List.range 16).foldl (fun (a : Dev × Nat) n => (if idleShare a.1 m n * kn / kd = 0 then a.1 else creditIdle a.1 n (idleShare a.1 m n * kn / kd), a.2 + idleShare a.1 m n * kn / kd)) (d2, 0) = (d3, idle) ∧ d4 = { d3 with pw := { d3.pw with kNum := kn, kDen := kd, clamped := d3.pw.clamped + cl.toNat, tail := 0, eIn := d3.pw.eIn + m.ein, eFloor := d3.pw.eFloor + m.fill * kn / kd, eMgr := d3.pw.eMgr + (meterSum m * kn / kd - (runs + idle + m.fill * kn / kd + d3.pw.tail)), lastVin := m.vin.toNat } }) :=
  ⟨⟨at_ up, 191, _, by decide +kernel, by decide +kernel, by decide +kernel, rfl⟩,
    ⟨at_ (setF (setF up (fPW_RGN_STATE 5) 1) fPW_GATE_PG_EN 0x20), 5, by decide +kernel, by decide +kernel, by decide +kernel, by decide +kernel, (by decide +kernel)⟩,
    ⟨at_ ((List.range 4).foldl (fun s i => setF s (fPW_RGN_STATE i) 2) (setF up fPW_GATE_SR_EN 1)), 0, by decide +kernel, by decide +kernel, by decide +kernel, by decide +kernel⟩,
    ⟨at_ (setF (modCl up 0 (fun c => { c with gated := true })) (fPW_RGN_STATE 0) 1), 0, _, by decide +kernel, by decide +kernel, rfl⟩,
    ⟨at_ (setF up (fPW_RGN_STATE 31) 3), 31, by decide +kernel⟩,
    ⟨at_ up, 0, 1023, by decide +kernel, by decide +kernel, by decide +kernel⟩,
    ⟨at_ (setF (setF up fPW_STATUS_REIN_UP 1) (fPW_RGN_VOLT_MV 0) 650), 0, 0, _, by decide +kernel, by decide +kernel, by decide +kernel, by decide +kernel, rfl⟩,
    ⟨at_ up, energy, settled.1, settled.2.1, 0, idled.2, settled.2.2, _, measured, idled.1, _, by decide +kernel, by decide +kernel, by decide +kernel, rfl, by decide +kernel, by decide +kernel, rfl⟩⟩

/-- The hypotheses of StartupCompletes are met: one state for each of its clauses. -/
theorem test_meets_startup_completes :
    (∃ (s : State), (s.dev.su.powered = false ∨ s.dev.pw.off = .input))
    ∧ (∃ (s : State), s.dev.su.powered = true ∧ getF s.dev fSU_FW_PRIMARY = 0)
    ∧ (∃ (s : State), s.dev.su.powered = true ∧ getF s.dev fSU_FW_PRIMARY = 1 ∧ hubLost s.dev 0 = true)
    ∧ (∃ (s : State) (port : Fin 2) (d : Dev), (getPort s.dev port).inReset = false ∧ s.dev.su.powered = true ∧ s.dev.pw.off = .on ∧ d = modPort s.dev port (fun x => { x with inReset := true }) ∧ (getPort d (1 - port.val)).inReset = true)
    ∧ (∃ (s : State) (port : Fin 2) (d : Dev), (getPort s.dev port).inReset = false ∧ s.dev.su.powered = true ∧ s.dev.pw.off = .on ∧ d = modPort s.dev port (fun x => { x with inReset := true }) ∧ (getPort d (1 - port.val)).inReset = false)
    ∧ (∃ (s : State) (port : Fin 2) (d : Dev) (img : _), s.dev.su.powered = true ∧ d = modPort s.dev port (fun x => { x with inReset := false }) ∧ d.su.standDone = true ∧ d.su.begun = false ∧ d.pw.off = .on ∧ getF d fPW_STATUS_REFCLK_OK = 1 ∧ stage d ≠ 3 ∧ portReleased d port = true ∧ seqImage s.sec = some img)
    ∧ (∃ (s : State) (port : Fin 2) (d : Dev), s.dev.su.powered = true ∧ d = modPort s.dev port (fun x => { x with inReset := false }) ∧ d.su.standDone = true ∧ d.su.begun = false ∧ d.pw.off = .on ∧ getF d fPW_STATUS_REFCLK_OK = 1 ∧ stage d ≠ 3 ∧ portReleased d port = true ∧ seqImage s.sec = none)
    ∧ (∃ (s : State), s.dev.su.powered = true ∧ s.dev.pw.off ≠ .input)
    ∧ (∃ (s : State), s.dev.su.refLost = true ∧ getF s.dev fPW_STATUS_REFCLK_OK = 1 ∧ s.dev.pw.off = .refclk)
    ∧ (∃ (s : State) (port : Fin 2), s.dev.su.powered = true ∧ s.dev.pw.off = .on ∧ portReleased s.dev port = true ∧ portUp s.dev port = false ∧ s.dev.su.begun = true)
    ∧ (∃ (s : State), s.dev.su.begun = true ∧ stepDone s.dev 5 = false)
    ∧ (∃ (s : State) (d : Dev), s.dev.su.begun = true ∧ stepDone s.dev 5 = true ∧ stepDone s.dev 7 = false ∧ d = modMs s.dev (fun m => { m with tier := m.tier.filter (fun e => !isNear e.1), tierPoison := m.tierPoison.filter (fun x => !isNear (64 * x)), tierErr := m.tierErr.filter (fun e => !isNear (64 * e.1)) }))
    ∧ (∃ (s : State) (f : Fin 4) (result : FarTrain) (d : Dev), s.dev.su.begun = true ∧ s.dev.su.farDone.getLsbD f = false ∧ d = { (farShow s.dev f 1 result) with su := { s.dev.su with farDone := putBit s.dev.su.farDone f true } })
    ∧ (∃ (s : State) (region : Fin 32) (d : Dev), s.dev.selfTest.getLsbD region = false ∧ testTurn s.dev region = true ∧ d = halterRegion { s.dev with su := { s.dev.su with tested := putBit s.dev.su.tested region true } } region true)
    ∧ (∃ (s : State) (d : Dev), stage s.dev = 1 ∧ stepDone s.dev 12 = true ∧ d = { s.dev with now := max s.dev.now (s.dev.su.relAt + 2500000000) })
    ∧ (∃ (s : State), stage s.dev = 1 ∧ stepDone s.dev 12 = true ∧ s.dev.cmds = [])
    ∧ (∃ (s : State) (d : Dev), s.dev.su.begun = true ∧ stage s.dev < 2 ∧ (s.sec.trial = 0 ∨ s.sec.run ≠ s.sec.trial) ∧ d = { s.dev with now := max s.dev.now (s.dev.su.relAt + 3000000000) })
    ∧ (∃ (s : State) (port : Fin 2), SetupTaken s.dev port offSU_RESET ∧ getF s.dev fSU_RESET_BUSY = 0) :=
  ⟨⟨at_ (Dev.init), by decide +kernel⟩,
    ⟨at_ stand, by decide +kernel, by decide +kernel⟩,
    ⟨at_ (setF (setF up fSU_FW_PRIMARY 1) fFLT_HEALTH_HUBS_BAYS 1), by decide +kernel, by decide +kernel, by decide +kernel⟩,
    ⟨at_ ({ up with ports := [(0, { HostPort.init with inReset := false }), (1, { HostPort.init with inReset := true })] }), 0, _, by decide +kernel, by decide +kernel, by decide +kernel, rfl, by decide +kernel⟩,
    ⟨at_ ({ up with ports := [(0, { HostPort.init with inReset := false }), (1, { HostPort.init with inReset := false })] }), 0, _, by decide +kernel, by decide +kernel, by decide +kernel, rfl, by decide +kernel⟩,
    ⟨{ State.reset with dev := released, sec := { Sec.shipped with run := 1 } }, 0, _, 0, by decide +kernel, rfl, by decide +kernel, by decide +kernel, by decide +kernel, by decide +kernel, (by decide +kernel), by decide +kernel, by decide +kernel⟩,
    ⟨{ State.reset with dev := released, sec := { Sec.shipped with run := 0 } }, 1, _, by decide +kernel, rfl, by decide +kernel, by decide +kernel, by decide +kernel, by decide +kernel, (by decide +kernel), by decide +kernel, by decide +kernel⟩,
    ⟨at_ up, by decide +kernel, by decide +kernel⟩,
    ⟨at_ ({ setF stand fPW_STATUS_REFCLK_OK 1 with su := { stand.su with refLost := true }, pw := { stand.pw with off := .refclk } }), by decide +kernel, by decide +kernel, by decide +kernel⟩,
    ⟨at_ ({ up with ports := [(0, { HostPort.init with inReset := false }), (1, { HostPort.init with inReset := false })] }), 1, by decide +kernel, by decide +kernel, by decide +kernel, by decide +kernel, (by decide +kernel)⟩,
    ⟨at_ up, by decide +kernel, by decide +kernel⟩,
    ⟨at_ (atStep [(5, 1)]), _, by decide +kernel, by decide +kernel, by decide +kernel, rfl⟩,
    ⟨at_ up, 3, .absent, _, by decide +kernel, by decide +kernel, rfl⟩,
    ⟨at_ (atStep [(5, 1), (6, 1), (7, 1)]), 4, _, by decide +kernel, by decide +kernel, rfl⟩,
    ⟨at_ (atStep [(12, 1)]), _, by decide +kernel, by decide +kernel, rfl⟩,
    ⟨at_ (atStep [(12, 1)]), by decide +kernel, by decide +kernel, by decide +kernel⟩,
    ⟨at_ (atStep []), _, by decide +kernel, by decide +kernel, by decide +kernel, rfl⟩,
    ⟨at_ up, 0, by decide +kernel, by decide +kernel⟩⟩

/-- The hypotheses of MailboxCompletes are met: one state for each of its clauses. -/
theorem test_meets_mailbox_completes :
    (∃ (s : State), MailAsked s 0x0001 true (· = 0))
    ∧ (∃ (s : State) (m : Nat) (d : Dev), MailAsked s 0x0010 false (· = 4) ∧ m = leNat (mbxBytes s.dev 0 4) ∧ m ≠ 0 ∧ (bitsOf 32 m).all (testable s.dev) = true ∧ d = (bitsOf 32 m).foldl (fun s r => setF s (fSLC_RGN_STATE r) 2) s.dev)
    ∧ (∃ (s : State), MailAsked s 0x0011 false (· = 0))
    ∧ (∃ (s : State), MailAsked s 0x0020 true (· = 0))
    ∧ (∃ (s : State), MailAsked s 0x0030 true (· = 0))
    ∧ (∃ (s : State), MailAsked s 0x0031 true (· = 4) ∧ s.sec.update = none ∧ leNat (mbxBytes s.dev 0 4) ≤ bankSize)
    ∧ (∃ (s : State) (u : Update), MailAsked s 0x0032 true (fun n => 9 ≤ n ∧ n ≤ 4088) ∧ s.sec.update = some u ∧ u.path = 1 ∧ leNat (mbxBytes s.dev 0 8) + (mbxLen s.dev - 8) ≤ u.len)
    ∧ (∃ (s : State) (u : Update), MailAsked s 0x0033 true (· = 0) ∧ s.sec.update = some u ∧ u.path = 1)
    ∧ (∃ (s : State) (u : Update), MailAsked s 0x0034 true (· = 0) ∧ s.sec.update = some u ∧ u.path = 1 ∧ u.verified = true)
    ∧ (∃ (s : State), MailAsked s 0x0035 true (· = 0) ∧ commitOk s.sec = true)
    ∧ (∃ (s : State), MailAsked s 0x0036 true (· = 0) ∧ (∀ u, s.sec.update = some u → u.path = 1))
    ∧ (∃ (s : State) (r : MbxRsp) (d : Dev), s.dev.su.mbx = some r ∧ d = (List.range ((r.payload.length + 7) / 8)).foldl (fun s w => setReg s (offSU_MBX_RSP (1 + w)) (BitVec.ofNat 64 (leNat ((r.payload.drop (8 * w)).take 8)))) (setReg s.dev (offSU_MBX_RSP 0) (BitVec.ofNat 64 (r.status + 2 ^ 16 * r.payload.length + 2 ^ 32 * fld (reg s.dev (offSU_MBX_REQ 0)) 63 32))) ∧ getF (setF (setF { d with su := { d.su with mbx := none } } fSU_MBX_CTL_BUSY 0) fSU_MBX_CTL_DONE 1) fSU_MBX_CTL_IRQ_EN = 0) :=
  ⟨⟨at_ (mail 1 0 0), by decide +kernel⟩,
    ⟨at_ (mail 0x10 4 6), _, _, by decide +kernel, rfl, by decide +kernel, by decide +kernel, rfl⟩,
    ⟨at_ (mail 0x11 0 0), by decide +kernel⟩,
    ⟨at_ (mail 0x20 0 0), by decide +kernel⟩,
    ⟨at_ (mail 0x30 0 0), by decide +kernel⟩,
    ⟨at_ (mail 0x31 4 0x1000), by decide +kernel, by decide +kernel, by decide +kernel⟩,
    ⟨mailed 0x32 9 (writing (updating 1 0 0)), updating 1 0 0, by decide +kernel, by decide +kernel, by decide +kernel, by decide +kernel⟩,
    ⟨mailed 0x33 0 (writing (updating 1 0 0)), updating 1 0 0, by decide +kernel, by decide +kernel, by decide +kernel⟩,
    ⟨mailed 0x34 0 (writing { updating 1 0 0 with verified := true }), { updating 1 0 0 with verified := true }, by decide +kernel, by decide +kernel, by decide +kernel, by decide +kernel⟩,
    ⟨at_ (mail 0x35 0 0), by decide +kernel, by decide +kernel⟩,
    ⟨at_ (mail 0x36 0 0), by decide +kernel, by decide +kernel⟩,
    ⟨at_ ({ up with su := { up.su with mbx := some { status := 0, payload := [1] } } }), { status := 0, payload := [1] }, _, by decide +kernel, rfl, by decide +kernel⟩⟩

/-- The hypotheses of UpdatesAndDebugComplete are met: one state for each of its clauses. -/
theorem test_meets_updates_and_debug_complete :
    (∃ (s : State) (len : Nat), answers s = true ∧ s.sec.update = none ∧ len ≤ bankSize)
    ∧ (∃ (s : State) (u : Update) (comp : Fin 4) (size : Nat) (t : State), answers s = true ∧ s.sec.update = some u ∧ u.path = 2 ∧ comp.val ≠ 0 ∧ comp.val = u.comp + 1 ∧ u.base + u.size + size ≤ u.len ∧ t = respond (withSec s { s.sec with update := some { u with comp := comp, base := u.base + u.size, size := size, at' := s.dev.now, verified := false } }) 290 [0])
    ∧ (∃ (s : State) (u : Update) (offset : Nat) (data : List Byte) (t : State), answers s = true ∧ s.sec.update = some u ∧ u.path = 2 ∧ u.comp ≠ 0 ∧ offset + data.length < u.size ∧ t = withSec s (writeUpdate s.sec u (u.base + offset) data s.dev.now))
    ∧ (∃ (s : State) (u : Update) (offset : Nat) (data : List Byte) (t : State), answers s = true ∧ s.sec.update = some u ∧ u.path = 2 ∧ u.comp ≠ 0 ∧ offset + data.length = u.size ∧ t = withSec s (writeUpdate s.sec u (u.base + offset) data s.dev.now))
    ∧ (∃ (s : State) (u : Update), answers s = true ∧ s.sec.update = some u ∧ u.path = 2)
    ∧ (∃ (s : State), answers s = true)
    ∧ (∃ (s : State) (u : Update), s.sec.update = some u)
    ∧ (∃ (s : State), s.dev.su.powered = true ∧ s.dev.bridle.up = false ∧ s.sec.trial ≠ 0 ∧ s.sec.run = s.sec.trial)
    ∧ (∃ (s : State), s.dev.su.powered = true ∧ getF s.dev fSU_FW_PRIMARY ≠ 0)
    ∧ (∃ (s : State), s.dev.su.powered = true ∧ getF s.dev fSU_FW_PRIMARY ≠ 0)
    ∧ (∃ (s : State), answersAll s = true)
    ∧ (∃ (s : State), answersAll s = true)
    ∧ (∃ (s : State), answersAll s = true ∧ debugOn s.dev = true) :=
  ⟨⟨at_ up, 0x1000, by decide +kernel, by decide +kernel, by decide +kernel⟩,
    ⟨held (updating 2 1 0x800), updating 2 1 0x800, 2, 0x800, _, by decide +kernel, by decide +kernel, by decide +kernel, by decide +kernel, (by decide +kernel), by decide +kernel, rfl⟩,
    ⟨held (updating 2 1 8), updating 2 1 8, 0, [1], _, by decide +kernel, by decide +kernel, by decide +kernel, by decide +kernel, (by decide +kernel), rfl⟩,
    ⟨held (updating 2 1 8), updating 2 1 8, 7, [1], _, by decide +kernel, by decide +kernel, by decide +kernel, by decide +kernel, (by decide +kernel), rfl⟩,
    ⟨held (updating 2 1 8), updating 2 1 8, by decide +kernel, by decide +kernel, by decide +kernel⟩,
    ⟨at_ up, by decide +kernel⟩,
    ⟨held (updating 1 0 0), updating 1 0 0, by decide +kernel⟩,
    ⟨{ State.reset with dev := stand, sec := { Sec.shipped with trial := 2, run := 2 } }, by decide +kernel, by decide +kernel, by decide +kernel, by decide +kernel⟩,
    ⟨at_ (setF up fSU_FW_PRIMARY 1), by decide +kernel, by decide +kernel⟩,
    ⟨at_ (setF up fSU_FW_PRIMARY 2), by decide +kernel, by decide +kernel⟩,
    ⟨managed up, by decide +kernel⟩,
    ⟨managed up, by decide +kernel⟩,
    ⟨managed (setF up fSU_FW_DEBUG 1), by decide +kernel, by decide +kernel⟩⟩

/-- The hypotheses of MonitoringCompletes are met: one state for each of its clauses. -/
theorem test_meets_monitoring_completes :
    (∃ (s : State), answersAll s = true)
    ∧ (∃ (s : State), answersAll s = true)
    ∧ (∃ (s : State), answersAll s = true)
    ∧ (∃ (s : State) (type : Fin 64), answersAll s = true ∧ type.val ∈ pldmTypes)
    ∧ (∃ (s : State) (id : BitVec 16) (v : Nat), answersAll s = true ∧ numericSensor s.dev id.toNat = some v)
    ∧ (∃ (s : State) (id : BitVec 16) (e : Nat × Nat), answersAll s = true ∧ (sensorStates s.dev).find? (fun e => e.1 == id.toNat && decide (0x40 ≤ id.toNat)) = some e)
    ∧ (∃ (s : State) (value : BitVec 32), answersAll s = true ∧ 1000 ≤ value.toNat ∧ value.toNat ≤ 3600)
    ∧ (∃ (s : State) (value : BitVec 32), answersAll s = true ∧ rampOk value.toNat = true)
    ∧ (∃ (s : State) (value : BitVec 32), answersAll s = true ∧ value.toNat ≤ 3600)
    ∧ (∃ (s : State) (temps : Temps), answersAll s = true ∧ (setTemps s.dev temps).pw.off = .trip ∧ coolEnough temps = true)
    ∧ (∃ (s : State) (x : Nat × Nat) (y : Nat × Nat) (l : List (Nat × Nat)), answersAll s = true ∧ s.dev.mg.events = x :: y :: l)
    ∧ (∃ (s : State) (x : Nat × Nat), answersAll s = true ∧ s.dev.mg.events = [x])
    ∧ (∃ (s : State), answersAll s = true)
    ∧ (∃ (s : State) (eid : BitVec 8), answers s = true ∧ eid ≠ 0 ∧ eid ≠ 255)
    ∧ (∃ (s : State) (pid : Fin 32), answers s = true ∧ pid.val = getF s.dev fSU_PINS_MOD_ID) :=
  ⟨⟨managed up, by decide +kernel⟩,
    ⟨managed up, by decide +kernel⟩,
    ⟨managed up, by decide +kernel⟩,
    ⟨managed up, 5, by decide +kernel, by decide +kernel⟩,
    ⟨managed up, 0x19, (numericSensor up 0x19).getD 0, by decide +kernel, by decide +kernel⟩,
    ⟨managed up, 0x43, (0x43, planeState up), by decide +kernel, by decide +kernel⟩,
    ⟨managed up, 1000, by decide +kernel, by decide +kernel, by decide +kernel⟩,
    ⟨managed up, 100, by decide +kernel, by decide +kernel⟩,
    ⟨managed up, 3600, by decide +kernel, by decide +kernel⟩,
    ⟨managed { up with pw := { up.pw with off := .trip } }, { regions := [], hubs := [], stackT := [] }, by decide +kernel, by decide +kernel, by decide +kernel⟩,
    ⟨managed { up with mg := { up.mg with events := [(1, 2), (3, 4)] } }, (1, 2), (3, 4), [], by decide +kernel, by decide +kernel⟩,
    ⟨managed { up with mg := { up.mg with events := [(1, 2)] } }, (1, 2), by decide +kernel, by decide +kernel⟩,
    ⟨managed up, by decide +kernel⟩,
    ⟨at_ up, 9, by decide +kernel, by decide +kernel, by decide +kernel⟩,
    ⟨at_ up, 0, by decide +kernel, by decide +kernel⟩⟩

/-- The hypotheses of TrustCompletes are met: one state for each of its clauses. -/
theorem test_meets_trust_completes :
    (∃ (s : State), answers s = true)
    ∧ (∃ (s : State), answers s = true ∧ s.dev.mg.spdm.version = true)
    ∧ (∃ (s : State), answers s = true ∧ s.dev.mg.spdm.version = true ∧ s.dev.mg.spdm.caps = true)
    ∧ (∃ (s : State), answers s = true ∧ negotiated s.dev.mg.spdm = true)
    ∧ (∃ (s : State), answers s = true ∧ negotiated s.dev.mg.spdm = true)
    ∧ (∃ (s : State), answers s = true ∧ negotiated s.dev.mg.spdm = true)
    ∧ (∃ (s : State), answers s = true ∧ negotiated s.dev.mg.spdm = true)
    ∧ (∃ (s : State) (index : BitVec 8), answers s = true ∧ negotiated s.dev.mg.spdm = true ∧ 1 ≤ index.toNat ∧ index.toNat ≤ 5)
    ∧ (∃ (s : State), answers s = true ∧ negotiated s.dev.mg.spdm = true)
    ∧ (∃ (s : State), answers s = true ∧ negotiated s.dev.mg.spdm = true)
    ∧ (∃ (s : State) (id : _), answers s = true ∧ s.dev.mg.spdm.handshake = some id)
    ∧ (∃ (s : State) (id : _), answers s = true ∧ hasSession s.dev.mg.spdm id = true)
    ∧ (∃ (s : State) (id : _), answers s = true ∧ hasSession s.dev.mg.spdm id = true)
    ∧ (∃ (s : State) (id : _), answers s = true ∧ hasSession s.dev.mg.spdm id = true)
    ∧ (∃ (s : State) (port : Fin 2), doeOpen s port = true)
    ∧ (∃ (s : State) (port : Fin 2) (session : Nat) (stream : Fin 257), doeOpen s port = true ∧ hasSession s.dev.mg.spdm session = true ∧ (getPort s.dev port).ideKeys.contains stream.val = false ∧ (stream.val = 256 ∨ ((getPort s.dev port).ideKeys.filter (fun k => decide (k < 256))).length < 8))
    ∧ (∃ (s : State) (port : Fin 2) (slice : Fin 16), doeOpen s port = true ∧ tdiState s.dev slice = 0)
    ∧ (∃ (s : State) (port : Fin 2) (slice : Fin 16), doeOpen s port = true ∧ tdiState s.dev slice = 1)
    ∧ (∃ (s : State) (port : Fin 2), doeOpen s port = true) :=
  ⟨⟨at_ (talking open1), by decide +kernel⟩,
    ⟨at_ (talking open1), by decide +kernel, by decide +kernel⟩,
    ⟨at_ (talking open1), by decide +kernel, by decide +kernel, by decide +kernel⟩,
    ⟨at_ (talking open1), by decide +kernel, by decide +kernel⟩,
    ⟨at_ (talking open1), by decide +kernel, by decide +kernel⟩,
    ⟨at_ (talking open1), by decide +kernel, by decide +kernel⟩,
    ⟨at_ (talking open1), by decide +kernel, by decide +kernel⟩,
    ⟨at_ (talking open1), 5, by decide +kernel, by decide +kernel, by decide +kernel, by decide +kernel⟩,
    ⟨at_ (talking open1), by decide +kernel, by decide +kernel⟩,
    ⟨at_ (talking open1), by decide +kernel, by decide +kernel⟩,
    ⟨at_ (talking open1), 1, by decide +kernel, by decide +kernel⟩,
    ⟨at_ (talking open1), 1, by decide +kernel, by decide +kernel⟩,
    ⟨at_ (talking open1), 1, by decide +kernel, by decide +kernel⟩,
    ⟨at_ (talking open1), 1, by decide +kernel, by decide +kernel⟩,
    ⟨at_ up, 0, by decide +kernel⟩,
    ⟨at_ (talking open1), 0, 1, 256, by decide +kernel, by decide +kernel, by decide +kernel, by decide +kernel⟩,
    ⟨at_ up, 0, 0, by decide +kernel, by decide +kernel⟩,
    ⟨at_ ({ up with mg := { up.mg with tdi := [(0, 1)] } }), 0, 0, by decide +kernel, by decide +kernel⟩,
    ⟨at_ up, 0, by decide +kernel⟩⟩

/-- The hypotheses of ScaleOutCompletes are met: one state for each of its clauses. -/
theorem test_meets_scale_out_completes :
    (∃ (s : State) (port : Fin 2), SetupTaken s.dev port offSO_CFG ∧ (∀ h, h < 2 → 64 ≤ getF s.dev (fSO_RTX_SIZE_MIB h)))
    ∧ (∃ (s : State) (port : Fin 48) (p : Packet) (q : Packet) (f : RxFlow) (d1 : Dev) (d2 : Dev) (d3 : Dev) (e : Nat) (l : List RxPart), q = { p with op := 1 } ∧ RxGoes s.dev port q f d1 d2 e l ∧ d3 = rxNext (rxWrite (getF d1 (fSO_EXP0_SLICE e)) q d2 l) q)
    ∧ (∃ (s : State) (port : Fin 48) (p : Packet) (q : Packet) (f : RxFlow) (d1 : Dev) (d2 : Dev) (d3 : Dev) (e : Nat) (l : List RxPart), q = { p with op := 4 } ∧ RxGoes s.dev port q f d1 d2 e l ∧ d3 = rxNext (rxReduce (getF d1 (fSO_EXP0_SLICE e)) q d2 l) q)
    ∧ (∃ (s : State) (port : Fin 48) (p : Packet) (q : Packet) (rsp : Packet) (f : RxFlow) (d1 : Dev) (d2 : Dev) (d3 : Dev) (d4 : Dev) (d5 : Dev) (e : Nat) (l : List RxPart) (b : List (Byte × Bool)), q = { p with op := 2 } ∧ RxGoes s.dev port q f d1 d2 e l ∧ rxRead (getF d1 (fSO_EXP0_SLICE e)) d2 l = (d3, b) ∧ rsp = { replyTo d3 3 q with poison := anyPoison b, len := q.len, tag := q.tag, payload := b.map (fun x => x.1) } ∧ d4 = modRx (rxNext d3 q) (isRx q.eng.toNat q.src.toNat q.tc.toNat) (fun f => { f with rsp := f.rsp.filter (fun x => decide ((f.expect + 2 ^ 32 - x.1) % 2 ^ 32 ≤ 65536)) ++ [(q.psn.toNat, rsp)] }) ∧ d5 = sendPacket d4 port rsp)
    ∧ (∃ (s : State) (port : Fin 48) (p : Packet) (q : Packet) (r : PeerReq) (d : Dev) (eng : Nat) (tc : Nat) (x : TxPkt), q = { p with op := 3 } ∧ FrameTaken s.dev port q ∧ d = countHub s.dev (portHub port) 0xC5 (32 + q.payload.length) ∧ d.peerOut.find? (fun r => r.kind == 2 && BitVec.ofNat 32 r.id == q.tag && peerMod r.pa == q.src.toNat) = some r ∧ eng = r.eng.getD 0 ∧ tc = flowClass eng (peerMod r.pa) ∧ (((txFlow d eng (peerMod r.pa) tc).map (fun f => f.unacked)).getD []).find? (fun y => y.reqs.contains r.id) = some x)
    ∧ (∃ (s : State) (port : Fin 48) (p : Packet) (q : Packet) (f : TxFlow) (d : Dev) (gone : List TxPkt) (rest : List TxPkt), q = { p with op := 5, addr := 0 } ∧ FrameTaken s.dev port q ∧ d = countHub s.dev (portHub port) 0xC5 (32 + q.payload.length) ∧ txFlow d q.eng.toNat q.src.toNat q.tc.toNat = some f ∧ gone = f.unacked.filter (fun x => psnCovered q.ack.toNat x.pkt.psn.toNat && x.pkt.op != 2) ∧ rest = f.unacked.filter (fun x => !(psnCovered q.ack.toNat x.pkt.psn.toNat && x.pkt.op != 2)))
    ∧ (∃ (s : State) (port : Fin 48) (p : Packet) (q : Packet) (d : Dev) (d2 : Dev) (qs : List PeerReq), q = { p with op := 6 } ∧ FrameTaken s.dev port q ∧ d = countHub s.dev (portHub port) 0xC5 (32 + q.payload.length) ∧ psnDone d q.eng.toNat q.src.toNat q.tc.toNat q.psn.toNat = (d2, qs))
    ∧ (∃ (s : State) (port : Fin 48) (p : Packet) (q : Packet) (f : TxFlow) (d : Dev), q = { p with op := 7 } ∧ FrameTaken s.dev port q ∧ d = countHub s.dev (portHub port) 0xC5 (32 + q.payload.length) ∧ txFlow d q.eng.toNat q.src.toNat q.tc.toNat = some f ∧ getF (satF d (fSO_STAT_CNP_RX f.hub) 1) (fSO_TC_ECN_EN f.tc) ≠ 0)
    ∧ (∃ (s : State) (port : Fin 48) (p : Packet) (q : Packet) (d : Dev), q = { p with op := 8 } ∧ FrameTaken s.dev port q ∧ d = countHub s.dev (portHub port) 0xC5 (32 + q.payload.length) ∧ q.dst.toNat = getF d fSO_CFG_MODULE_ID ∧ q.payload.length = 8)
    ∧ (∃ (s : State) (port : Fin 48) (p : Packet) (q : Packet) (d : Dev), q = { p with op := 9 } ∧ FrameTaken s.dev port q ∧ d = countHub s.dev (portHub port) 0xC5 (32 + q.payload.length))
    ∧ (∃ (s : State) (port : Nat) (rest : List Nat) (d : Dev), getF s.dev fOBS_TSYNC_CFG_SRC = 1 ∧ upPorts s.dev (getF s.dev fOBS_TSYNC_CFG_MASTER_ID) = port :: rest ∧ d = { s.dev with obs := { s.dev.obs with timeReqs := s.dev.obs.timeReqs ++ [timeBase s.dev] } })
    ∧ (∃ (s : State) (eng : BitVec 16) (m : BitVec 12) (tc : BitVec 3) (f : TxFlow) (psn : BitVec 32) (q : TxPkt) (port : Nat), txFlow s.dev eng.toNat m.toNat tc.toNat = some f ∧ f.unacked.find? (fun q => q.pkt.psn.toNat == psn.toNat) = some q ∧ f.port = some port)
    ∧ (∃ (s : State) (eng : BitVec 16) (m : BitVec 12) (tc : BitVec 3) (f : TxFlow) (port : _), txFlow s.dev eng.toNat m.toNat tc.toNat = some f ∧ f.port = some port ∧ getF s.dev (fSO_TC_ECN_EN tc.toNat) ≠ 0)
    ∧ (∃ (s : State) (eng : BitVec 16) (m : BitVec 12) (tc : BitVec 3) (f : TxFlow) (t : _), txFlow s.dev eng.toNat m.toNat tc.toNat = some f ∧ f.waitAt = some t ∧ f.port = none)
    ∧ (∃ (s : State) (eng : BitVec 16) (m : BitVec 12) (tc : BitVec 3) (f : TxFlow), txFlow s.dev eng.toNat m.toNat tc.toNat = some f ∧ f.unacked ≠ [])
    ∧ (∃ (s : State) (eng : BitVec 16) (m : BitVec 12) (tc : BitVec 3) (f : TxFlow), txFlow s.dev eng.toNat m.toNat tc.toNat = some f ∧ f.unacked = [])
    ∧ (∃ (s : State) (port : Fin 48), getF s.dev (fSO_PORT_STATE port) = 2)
    ∧ (∃ (s : State) (port : Fin 48), portInMode s.dev port = true ∧ getF s.dev (fSO_PORT_STATE port) ≠ 2 ∧ hubLost s.dev (portHub port) = false ∧ s.dev.pw.off = .on)
    ∧ (∃ (s : State) (port : Fin 2) (m : BitVec 12) (gone : List PeerReq) (d : Dev) (p : _) (rest : _), SetupTaken s.dev port offSO_PEER_RESET ∧ gone = s.dev.peerOut.filter (fun q => peerMod q.pa == m.toNat && q.framed) ∧ d = (let t := gone.foldl losePeer (dropWrites s.dev (fun pa _ => inWindow s.dev m.toNat pa && gone.any (fun q => q.pa / 512 == pa / 512))); showFlows { t with tandem := { t.tandem with tx := t.tandem.tx.filter (fun f => f.mod != m.toNat) } }) ∧ upPorts d m.toNat = p :: rest)
    ∧ (∃ (s : State) (port : Fin 2) (m : BitVec 12) (gone : List PeerReq) (d : Dev), SetupTaken s.dev port offSO_PEER_RESET ∧ gone = s.dev.peerOut.filter (fun q => peerMod q.pa == m.toNat && q.framed) ∧ d = (let t := gone.foldl losePeer (dropWrites s.dev (fun pa _ => inWindow s.dev m.toNat pa && gone.any (fun q => q.pa / 512 == pa / 512))); showFlows { t with tandem := { t.tandem with tx := t.tandem.tx.filter (fun f => f.mod != m.toNat) } }) ∧ upPorts d m.toNat = []) :=
  ⟨⟨at_ tandem, 0, by decide +kernel, by intro h hh; match h with | 0 => decide +kernel | 1 => decide +kernel | n + 2 => omega⟩,
    ⟨at_ exporting, 0, frame 1 eight, frame 1 eight, rxf, landed (frame 1 eight), (placed (frame 1 eight)).1, _, 3, (placed (frame 1 eight)).2, by decide +kernel, ⟨⟨by decide +kernel, by decide +kernel, by decide +kernel, by decide +kernel, (by decide +kernel), by decide +kernel⟩, by decide +kernel, rfl, by decide +kernel, by decide +kernel, by decide +kernel, by decide +kernel, (by decide +kernel), by decide +kernel, by decide +kernel, by decide +kernel⟩, rfl⟩,
    ⟨at_ exporting, 0, frame 4 eight, frame 4 eight, rxf, landed (frame 4 eight), (placed (frame 4 eight)).1, _, 3, (placed (frame 4 eight)).2, by decide +kernel, ⟨⟨by decide +kernel, by decide +kernel, by decide +kernel, by decide +kernel, (by decide +kernel), by decide +kernel⟩, by decide +kernel, rfl, by decide +kernel, by decide +kernel, by decide +kernel, by decide +kernel, (by decide +kernel), by decide +kernel, by decide +kernel, by decide +kernel⟩, rfl⟩,
    ⟨at_ exporting, 0, frame 2 [], frame 2 [], _, rxf, landed (frame 2 []), (placed (frame 2 [])).1, (rxRead 0 (placed (frame 2 [])).1 (placed (frame 2 [])).2).1, _, _, 3, (placed (frame 2 [])).2, (rxRead 0 (placed (frame 2 [])).1 (placed (frame 2 [])).2).2, by decide +kernel, ⟨⟨by decide +kernel, by decide +kernel, by decide +kernel, by decide +kernel, (by decide +kernel), by decide +kernel⟩, by decide +kernel, rfl, by decide +kernel, by decide +kernel, by decide +kernel, by decide +kernel, (by decide +kernel), by decide +kernel, by decide +kernel, by decide +kernel⟩, by decide +kernel, rfl, rfl, rfl⟩,
    ⟨at_ (waiting (flowClass 0x400 5)), 0, frame 3 eight, frame 3 eight, asking, _, 0x400, flowClass 0x400 5, pkt 0, by decide +kernel, by decide +kernel, rfl, by decide +kernel, by decide +kernel, rfl, class_flow ⟨flowClass 0x400 5, (Config.trafficClass 0x400 5).isLt⟩⟩,
    ⟨at_ (flows txf), 0, frame 5 [], frame 5 [], txf, _, _, _, by decide +kernel, by decide +kernel, rfl, by decide +kernel, rfl, rfl⟩,
    ⟨at_ (flows txf), 0, frame 6 [], frame 6 [], _, (psnDone (countHub (flows txf) 0 0xC5 32) 0x400 5 0 0).1, (psnDone (countHub (flows txf) 0 0xC5 32) 0x400 5 0 0).2, by decide +kernel, by decide +kernel, rfl, by decide +kernel⟩,
    ⟨at_ (setF (flows txf) (fSO_TC_ECN_EN 0) 1), 0, frame 7 [], frame 7 [], txf, _, by decide +kernel, by decide +kernel, rfl, by decide +kernel, by decide +kernel⟩,
    ⟨at_ tandem, 0, frame 8 eight, frame 8 eight, _, by decide +kernel, by decide +kernel, rfl, by decide +kernel, by decide +kernel⟩,
    ⟨at_ tandem, 0, frame 9 eight, frame 9 eight, _, by decide +kernel, by decide +kernel, rfl⟩,
    ⟨at_ (setF (setF tandem fOBS_TSYNC_CFG_SRC 1) fOBS_TSYNC_CFG_MASTER_ID 5), 0, [], _, by decide +kernel, by decide +kernel, rfl⟩,
    ⟨at_ (flows txf), 0x400, 5, 0, txf, 0, pkt 0, 0, by decide +kernel, by decide +kernel, by decide +kernel⟩,
    ⟨at_ (setF (flows txf) (fSO_TC_ECN_EN 0) 1), 0x400, 5, 0, txf, 0, by decide +kernel, by decide +kernel, by decide +kernel⟩,
    ⟨at_ (flows { txf with port := none, waitAt := some 3 }), 0x400, 5, 0, { txf with port := none, waitAt := some 3 }, 3, by decide +kernel, by decide +kernel, by decide +kernel⟩,
    ⟨at_ (flows txf), 0x400, 5, 0, txf, by decide +kernel, by decide +kernel⟩,
    ⟨at_ (flows { txf with unacked := [] }), 0x400, 5, 0, { txf with unacked := [] }, by decide +kernel, by decide +kernel⟩,
    ⟨at_ tandem, 0, by decide +kernel⟩,
    ⟨at_ (setF up (fSO_GRP_MODE 11) 3), 47, by decide +kernel, by decide +kernel, by decide +kernel, by decide +kernel⟩,
    ⟨at_ tandem, 0, 5, _, _, 0, [], by decide +kernel, rfl, rfl, by decide +kernel⟩,
    ⟨at_ up, 0, 5, _, _, by decide +kernel, rfl, rfl, by decide +kernel⟩⟩

/-- The hypotheses of SetupAndRingRowsAct are met: one state for each of its clauses. -/
theorem test_meets_setup_and_ring_rows_act :
    (∃ (s : State) (port : Fin 2) (off : BitVec 26) (r : RegSpec) (f : FieldSpec) (val : Word), SetupTaken s.dev port off.toNat ∧ off.toNat % 8 = 0 ∧ off.toNat / 0x100000 = 5 ∧ off.toNat ≠ offPW_BUDGET ∧ off.toNat ≠ offPW_RAMP ∧ regSpecAt off.toNat = some r ∧ f ∈ r.fields ∧ f.acc = .rw ∧ legalEnc f (fld val f.msb f.lsb) = true)
    ∧ (∃ (s : State) (port : Fin 2) (off : BitVec 26) (len : Fin 4097), bar0Open s.dev port = true ∧ (getPort s.dev port).held = none ∧ (len.val = 4 ∨ len.val = 8) ∧ off.toNat % len.val = 0 ∧ regAt s.dev (off.toNat / 8 * 8) = true)
    ∧ (∃ (s : State) (port : Fin 2) (off : BitVec 26) (len : Fin 4097), bar0Open s.dev port = true ∧ (getPort s.dev port).held = none ∧ (¬((len.val = 4 ∨ len.val = 8) ∧ off.toNat % len.val = 0 ∧ regAt s.dev (off.toNat / 8 * 8) = true)))
    ∧ (∃ (s : State) (port : Fin 2) (h : HeldHalf), (getPort s.dev port).held = some h)
    ∧ (∃ (s : State) (port : Fin 2) (lease : BitVec 6), bar0Open s.dev port = true ∧ (getPort s.dev port).held = none ∧ lease.toNat ≠ 0 ∧ lease.toNat ≤ 60 ∧ (leaseFree s.dev = true ∨ getF s.dev fID_SEM_OWNER = port.val + 1))
    ∧ (∃ (s : State) (port : Fin 2), bar0Open s.dev port = true ∧ (getPort s.dev port).held = none ∧ holdsLease s.dev port = true)
    ∧ (∃ (s : State), getF s.dev fID_SEM_OWNER ≠ 0)
    ∧ (∃ (s : State) (port : Fin 2), bar0Open s.dev port = true ∧ (getPort s.dev port).held = none ∧ regAt s.dev offOBS_WHOA_CTL = true ∧ holdsLease s.dev port = true ∧ whoaStopped s.dev = true ∧ stage s.dev = 2 ∧ tdiHolds s.dev offOBS_WHOA_CTL = false ∧ s.dev.obs.stopIn = true)
    ∧ (∃ (s : State), s.dev.obs.stopIn = true ∧ s.dev.obs.resuming = false)
    ∧ (∃ (s : State) (port : Fin 2) (vf : Option (Fin 16)) (chan : Fin 16) (ring : Fin 64) (page : Fin 4096) (data : Word), pageAnswers s.dev port vf page = true ∧ (page.val = 256 * chan.val + ring.val ∨ page.val = 256 * chan.val + 64) ∧ fld data 63 32 = 0 ∧ fld data 31 16 = ring.val ∧ getF s.dev (fCH_SQ_STATE_STATE chan ring) = 1 ∧ fld data 15 0 < 2 ^ getF s.dev (fCH_SQ_CFG_LOG2SZ chan ring))
    ∧ (∃ (s : State) (chan : Fin 16) (ring : Fin 64) (mapped : Bool) (start : Nat) (k : Nat) (p : Nat), p = portOf (getF s.dev (fCH_SQ_CFG_PORT chan ring)) ∧ chanLive s.dev chan ring = true ∧ getF s.dev (fCH_SQ_STATE_STATE chan ring) = 1 ∧ portUp s.dev p = true ∧ portReads s.dev p < 768 ∧ nextRead s.dev chan ring = (start, k) ∧ k ≠ 0 ∧ (ringPasid s.dev chan ring = none ∨ mapped = true))
    ∧ (∃ (s : State) (chan : Fin 16) (ring : Fin 64) (descs : List Block64) (r : FetchRead), (getCh s.dev chan).reads.find? (fun x => x.ring == ring.val) = some r ∧ r.pri = false ∧ descs.length = r.count ∧ whoaStopped s.dev = false ∧ getF s.dev (fCH_SQ_STATE_STATE chan ring) = 1 ∧ getF s.dev (fCH_SQ_CFG_LOG2SZ chan ring) ≤ 16)
    ∧ (∃ (s : State) (chan : Fin 16) (ring : Fin 64), (getCh s.dev chan).reads.any (fun r => r.ring == ring.val) = true ∧ getF s.dev (fCH_SQ_STATE_STATE chan ring) = 1)
    ∧ (∃ (s : State) (chan : Fin 16) (tag : Nat) (f : Fetched) (heads : List (Nat × Fetched)), ¬(stage s.dev = 1 ∧ stepDone s.dev 12 = true) ∧ heads = (List.range 64).filterMap (fun n => ringHead s.dev chan n) ∧ (∀ h ∈ heads, coopWaits s.dev chan h.1 h.2 = false) ∧ firstBy (fun h => ringOrder s.dev chan h.2.ring) heads = some (tag, f) ∧ (getSqr s.dev chan f.ring).aborting = false ∧ dOpcode f.desc ≠ 0x0A ∧ descBad f.desc = false ∧ tag < 16)
    ∧ (∃ (s : State) (key : Nat) (d : Nat) (c : Cmd), getCmd s.dev key = some c ∧ c.deadline = some d ∧ whoaStopped s.dev = false ∧ c.saved = false ∧ frozenSlice s.dev c.tag = false ∧ c.status = none)
    ∧ (∃ (s : State) (chan : Fin 16) (cq : Fin 64) (p : Nat), (getCqr s.dev chan cq).count ≠ 0 ∧ getF s.dev (fCH_CQ_CFG_MOD_US chan cq) ≠ 0 ∧ getF s.dev (fCH_CQ_CFG_IRQ_EN chan cq) = 1 ∧ getF s.dev (fCH_CQ_STATE_STATE chan cq) = 1 ∧ whoaStopped s.dev = false ∧ getF s.dev (fCH_CQ_CFG_VFV chan cq) = 0 ∧ p = portOf (getF s.dev (fCH_CQ_CFG_PORT chan cq)) ∧ (getPort s.dev p).up = true ∧ (getPort s.dev p).msixEn.getLsbD 0 = true ∧ (getPort s.dev p).msixOff.contains (vecKey none (getF s.dev (fCH_CQ_CFG_VECTOR chan cq))) = false)
    ∧ (∃ (s : State) (chan : Fin 16) (cq : Fin 64), getF s.dev (fCH_CQ_STATE_STATE chan cq) = 1)
    ∧ (∃ (s : State) (port : Fin 2), portUp s.dev port = true)
    ∧ (∃ (s : State) (port : Fin 2), portUp s.dev port = false)
    ∧ (∃ (s : State) (port : Fin 2) (chan : Fin 16), SetupTaken s.dev port (offCH_RESET chan) ∧ (∀ c ∈ s.dev.cmds, c.chan ≠ chan.val)) :=
  ⟨⟨at_ up, 0, 0x500028, gateSpec, gateField, 255 * 2 ^ 16, by decide +kernel, by decide +kernel, by decide +kernel, by decide +kernel, (by decide +kernel), by decide +kernel, by decide +kernel, by decide +kernel, by decide +kernel⟩,
    ⟨at_ up, 0, 4, 4, by decide +kernel, by decide +kernel, by decide +kernel, by decide +kernel, (by decide +kernel)⟩,
    ⟨at_ up, 1, 3, 4, by decide +kernel, by decide +kernel, by decide +kernel⟩,
    ⟨at_ (modPort up 0 (fun p => { p with held := some { off := 8, data := 1, since := 5 } })), 0, { off := 8, data := 1, since := 5 }, by decide +kernel⟩,
    ⟨at_ up, 0, 60, by decide +kernel, by decide +kernel, by decide +kernel, by decide +kernel, (by decide +kernel)⟩,
    ⟨at_ up, 0, by decide +kernel, by decide +kernel, by decide +kernel⟩,
    ⟨at_ up, by decide +kernel⟩,
    ⟨at_ (setF { up with obs := { up.obs with stopIn := true } } fOBS_WHOA_CTL_STOPPED 1), 0, by decide +kernel, by decide +kernel, by decide +kernel, by decide +kernel, (by decide +kernel), by decide +kernel, by decide +kernel, by decide +kernel⟩,
    ⟨at_ ({ up with obs := { up.obs with stopIn := true } }), by decide +kernel, by decide +kernel⟩,
    ⟨at_ run, 0, none, 0, 0, 64, 0x3F, by decide +kernel, by decide +kernel, by decide +kernel, by decide +kernel, (by decide +kernel), by decide +kernel⟩,
    ⟨at_ (setF run (fCH_SQ_STATE_TAIL 0 0) 3), 0, 0, true, 0, 3, _, rfl, by decide +kernel, by decide +kernel, by decide +kernel, by decide +kernel, (by decide +kernel), by decide +kernel, by decide +kernel⟩,
    ⟨at_ (modCh run 0 (fun ch => { ch with reads := [{ ring := 0, index := 0, count := 2, pri := false }] })), 0, 0, [0, 0], { ring := 0, index := 0, count := 2, pri := false }, by decide +kernel, by decide +kernel, by decide +kernel, by decide +kernel, (by decide +kernel), by decide +kernel⟩,
    ⟨at_ (modCh run 0 (fun ch => { ch with reads := [{ ring := 0, index := 0, count := 2, pri := false }] })), 0, 0, by decide +kernel, by decide +kernel⟩,
    ⟨at_ (modCh run 0 (fun ch => { ch with fetched := [{ ring := 0, index := 0, desc := 8, requeued := false }] })), 0, 0, { ring := 0, index := 0, desc := 8, requeued := false }, _, by decide +kernel, rfl, by decide +kernel, by decide +kernel, by decide +kernel, by decide +kernel, (by decide +kernel), by decide +kernel⟩,
    ⟨at_ (sent1 { cmd 1 with deadline := some 5 }), 7, 5, { cmd 1 with deadline := some 5 }, by decide +kernel, by decide +kernel, by decide +kernel, by decide +kernel, (by decide +kernel), by decide +kernel⟩,
    ⟨at_ (modPort (setCqr (setF (setF run (fCH_CQ_CFG_MOD_US 0 0) 5) (fCH_CQ_CFG_IRQ_EN 0 0) 1) 0 0 { count := 1, first := 0 }) 0 (fun x => { x with msixEn := 1 })), 0, 0, _, by decide +kernel, by decide +kernel, by decide +kernel, by decide +kernel, (by decide +kernel), by decide +kernel, rfl, by decide +kernel, by decide +kernel, by decide +kernel⟩,
    ⟨at_ run, 0, 0, by decide +kernel⟩,
    ⟨at_ up, 1, by decide +kernel⟩,
    ⟨at_ (Dev.init), 1, by decide +kernel⟩,
    ⟨at_ up, 0, 15, by decide +kernel, by decide +kernel⟩⟩

end Sys2Proof.Tests
end

/-! PROOF. The statements of 00_scope.md (O9 to O11): a set-up write without the lease, a write of a reserved encoding, and a BAR0 access of
another size or alignment. -/

namespace Sys2Proof.Machine

open Sys2Proof

/-! ## Fields of a word -/

/-- Putting `v` in place of the low `k` bits of `w / 2 ^ l` keeps what lies above and below them. -/
theorem replace_nat_bits (w l k v : Nat) :
    w - w / 2 ^ l % 2 ^ k * 2 ^ l + v * 2 ^ l = 2 ^ l * (2 ^ k * (w / 2 ^ l / 2 ^ k) + v) + w % 2 ^ l := by
  have hw : 2 ^ l * (2 ^ k * (w / 2 ^ l / 2 ^ k)) + 2 ^ l * (w / 2 ^ l % 2 ^ k) + w % 2 ^ l = w := by
    rw [← Nat.mul_add, Nat.div_add_mod, Nat.div_add_mod]
  rw [Nat.mul_comm (_ % 2 ^ k), Nat.mul_comm v, Nat.mul_add]
  omega

/-- The bits of a field (R20). -/
theorem testBit_fld {n : Nat} (w : BitVec n) (msb lsb i : Nat) :
    (fld w msb lsb).testBit i = (decide (i < msb + 1 - lsb) && w.getLsbD (lsb + i)) := by
  rw [fld, nField, Nat.testBit_mod_two_pow, Nat.testBit_div_two_pow, Nat.add_comm i]
  rfl

/-- The bits of a word whose field `[msb:lsb]` has been replaced. -/
theorem getLsbD_putFld {n : Nat} (w : BitVec n) (msb lsb v i : Nat) (hi : i < n) :
    (putFld w msb lsb v).getLsbD i = if lsb ≤ i ∧ i < msb + 1 then v.testBit (i - lsb) else w.getLsbD i := by
  have hlow : w.toNat % 2 ^ lsb < 2 ^ lsb := Nat.mod_lt _ (Nat.two_pow_pos _)
  have hv : v % 2 ^ (msb + 1 - lsb) < 2 ^ (msb + 1 - lsb) := Nat.mod_lt _ (Nat.two_pow_pos _)
  simp only [putFld, nField, replace_nat_bits, BitVec.getLsbD_ofNat, hi, decide_true, Bool.true_and,
    Nat.testBit_two_pow_mul_add _ hlow, Nat.testBit_two_pow_mul_add _ hv, Nat.testBit_mod_two_pow, Nat.testBit_div_two_pow]
  by_cases h1 : i < lsb
  · simp [h1, Nat.not_le.mpr h1, BitVec.getLsbD]
  · by_cases h2 : i < msb + 1
    · rw [if_neg h1, if_pos (by omega), if_pos (by omega), decide_eq_true (by omega), Bool.true_and]
    · rw [if_neg h1, if_neg (by omega), if_neg (by omega), show i - lsb - (msb + 1 - lsb) + (msb + 1 - lsb) + lsb = i by omega]
      rfl

/-- A field reads as what was put in it, modulo its width. -/
theorem fld_putFld_same {n : Nat} (w : BitVec n) (msb lsb v : Nat) (h : msb < n) :
    fld (putFld w msb lsb v) msb lsb = v % 2 ^ (msb + 1 - lsb) := by
  refine Nat.eq_of_testBit_eq fun i => ?_
  rw [testBit_fld, Nat.testBit_mod_two_pow]
  by_cases hi : i < msb + 1 - lsb
  · rw [getLsbD_putFld _ _ _ _ _ (by omega), if_pos (by omega), Nat.add_sub_cancel_left]
  · simp [hi]

/-- A field that lies apart from the one written reads as before. -/
theorem fld_putFld_apart {n : Nat} (w : BitVec n) {msb lsb m l : Nat} (v : Nat) (h : m < lsb ∨ msb < l) :
    fld (putFld w msb lsb v) m l = fld w m l := by
  refine Nat.eq_of_testBit_eq fun i => ?_
  rw [testBit_fld, testBit_fld]
  by_cases hi : i < m + 1 - l
  · by_cases hn : l + i < n
    · rw [getLsbD_putFld _ _ _ _ _ hn, if_neg (by omega)]
    · rw [BitVec.getLsbD_of_ge _ _ (by omega), BitVec.getLsbD_of_ge _ _ (by omega)]
  · simp [hi]

theorem getF_setF_same (s : Dev) (f : Fld) (v : Nat) (h : f.msb < 64) : getF (setF s f v) f = v % 2 ^ (f.msb + 1 - f.lsb) := by
  rw [getF, reg_setF_same, fld_putFld_same _ _ _ _ h]

theorem getF_setF_apart (s : Dev) (f g : Fld) (v : Nat) (h : g.msb < f.lsb ∨ f.msb < g.lsb) : getF (setF s f v) g = getF s g := by
  by_cases ho : g.off = f.off
  · rw [getF, ho, reg_setF_same, fld_putFld_apart _ _ h, getF, ho]
  · exact getF_setF_other s f g v ho

/-- R501: a count field stops at its largest value. -/
theorem getF_satF_same (s : Dev) (f : Fld) (n : Nat) (h : f.msb < 64) : getF (satF s f n) f = satAdd (f.msb + 1 - f.lsb) (getF s f) n := by
  have hle : satAdd (f.msb + 1 - f.lsb) (getF s f) n ≤ 2 ^ (f.msb + 1 - f.lsb) - 1 := Nat.min_le_right _ _
  have hpos := Nat.two_pow_pos (f.msb + 1 - f.lsb)
  rw [satF, getF_setF_same _ _ _ h, Nat.mod_eq_of_lt (by omega)]

/-! ## Set-up writes without the lease (R11, R459, R501) -/

/-- A dropped write changes registers alone: no error record is made. -/
theorem dropWrite_changes_registers (s : Dev) (port off : Nat) : dropWrite s port off = { s with regs := (dropWrite s port off).regs } := by
  simp only [dropWrite, satF, setF, setReg]

theorem reg_dropWrite_other (s : Dev) (port off : Nat) {o : Nat} (h : o ≠ offID_DROP) : reg (dropWrite s port off) o = reg s o := by
  rw [dropWrite, satF, reg_setF_other _ _ _ _ h, reg_setF_other]
  split <;> exact h

theorem getF_dropWrite_lastOff (s : Dev) (port off : Nat) : getF (dropWrite s port off) fID_DROP_LAST_OFF = off % 2 ^ 26 :=
  getF_setF_same _ fID_DROP_LAST_OFF off (by decide)

theorem getF_dropWrite_dropsA (s : Dev) (port off : Nat) :
    getF (dropWrite s port off) fID_DROP_DROPS_A = if port = 0 then min (getF s fID_DROP_DROPS_A + 1) 0xFFFF else getF s fID_DROP_DROPS_A := by
  rw [dropWrite, getF_setF_apart _ _ _ _ (by decide)]
  split
  · exact getF_satF_same s fID_DROP_DROPS_A 1 (by decide)
  · exact getF_setF_apart _ _ _ _ (by decide)

theorem getF_dropWrite_dropsB (s : Dev) (port off : Nat) (hp : port < 2) :
    getF (dropWrite s port off) fID_DROP_DROPS_B = if port = 1 then min (getF s fID_DROP_DROPS_B + 1) 0xFFFF else getF s fID_DROP_DROPS_B := by
  rw [dropWrite, getF_setF_apart _ _ _ _ (by decide)]
  by_cases h : port = 0
  · rw [if_pos h, if_neg (by omega)]
    exact getF_setF_apart _ _ _ _ (by decide)
  · rw [if_neg h, if_pos (by omega)]
    exact getF_satF_same s fID_DROP_DROPS_B 1 (by decide)

/-- R28: an aligned 64-bit write of a register other than ID_SEM is one set-up write. -/
theorem doSetupWrite_whole (img : Option Nat) (port off : Nat) (data : Word) (ha : off % 8 = 0) (hs : off ≠ offID_SEM) :
    doSetupWrite img port off false data = setupWr port off data (setupEffect img port off data) := by
  funext s
  cases h : bar0Open s port <;> simp [doSetupWrite, setupWr, wholeWrite, h, ha, hs]

/-- SETUP_WRITE is a BAR0 write that makes coherent requests (R23). -/
theorem exec_setupWrite (port : Fin 2) (off : BitVec 26) (half : Bool) (data : Word) (s : State) :
    exec (.setupWrite port off half data) s = updM s (doSetupWrite (seqImage s.sec) port off.toNat half data) := rfl

theorem setupWrite_completesM {s : State} {port : Fin 2} {off : BitVec 26} {half : Bool} {data : Word} {d : Dev}
    (h : doSetupWrite (seqImage s.sec) port off.toNat half data s.dev = d) : CompletesM (.setupWrite port off half data) s d :=
  completesM (fun b => exec_setupWrite port off half data (marked s b)) h

/-- The command `c` is one 64-bit set-up write of the register at `off` on a port: it makes coherent requests or it does not. -/
def WritesRegister (c : Instr) (s : State) (port off : Nat) : Prop :=
  ∃ (data : Word) (eff : Dev → Dev), exec c s = upd s (setupWr port off data eff) ∨ exec c s = updM s (setupWr port off data eff)

/-- The commands of `setupTarget` are set-up writes of the port and the offset that it names (R459). -/
theorem writesRegister_of_setupTarget {c : Instr} {port off : Nat} (s : State) (h : setupTarget c = some (port, off)) :
    port < 2 ∧ WritesRegister c s port off := by
  cases c with
  | setupWrite p o half data =>
    simp only [setupTarget] at h
    split at h
    next hc =>
      obtain ⟨rfl, ha, hs⟩ := hc
      cases h
      exact ⟨p.isLt, data, _, .inr (by rw [exec_setupWrite, doSetupWrite_whole _ _ _ _ ha hs])⟩
    next => cases h
  | resume p =>
    cases h
    exact ⟨p.isLt, 2, _, .inr (congrArg (updM s) (doSetupWrite_whole (seqImage s.sec) p offOBS_WHOA_CTL 2 (by decide) (by decide)))⟩
  | start p | hobble p | sliceReset p | remove p | tlbFlush p | regionLeave p | load p | retrain p | peerReset p =>
    cases h
    exact ⟨p.isLt, _, _, .inr rfl⟩
  | whoaStop p | eventRingEnable p | eventRingHead p | cyclicEnable p | bayReset p | bind p | recover p | unlatch p | inject p
  | traceBufferEnable p | tsyncStep p | dumpGo p | resumeHeld p | abortHeld p | budgetWrite p | rampWrite p | deviceReset p
  | pageGroom p | dlogSync p | flush p | invalidate p | flushInv p | oredArm p | modeWrite p | soEnable p
  | sqEnable p | sqDisable p | cqEnable p | cqDisable p | channelReset p =>
    cases h
    exact ⟨p.isLt, _, _, .inl rfl⟩
  | _ => cases h

/-- The model's own mark of coherent requests is no register. -/
theorem reg_marked (s : State) (b : Bool) (off : Nat) : reg (marked s b).dev off = reg s.dev off := rfl
theorem getF_marked (s : State) (b : Bool) (f : Fld) : getF (marked s b).dev f = getF s.dev f := rfl

/-- A command that makes coherent requests, none of which is refused, completes. -/
theorem updM_unrefused {s : State} {f : Dev → Dev} (h : (f (marked s false).dev).ms.blocked = false) :
    updM s f = .next { s with dev := f (marked s false).dev } := by
  simp only [updM, upd_next, retried, h, Bool.false_eq_true, if_false]

/-- R11, R459: without the lease, a command that writes a register only has its write dropped; the model's own mark `b` of coherent requests
aside. -/
theorem writesRegister_dropped {c : Instr} {s : State} {port off : Nat} (h : WritesRegister c s port off) (h1 : bar0Open s.dev port = true)
    (h2 : (getPort s.dev port).held = none) (h3 : regAt s.dev off = true) (h4 : holdsLease s.dev port = false) :
    ∃ b, Completes c s (dropWrite (marked s b).dev port off) := by
  obtain ⟨data, eff, h | h⟩ := h
  · refine ⟨s.dev.ms.blocked, ?_⟩
    rw [Completes, h, upd_next, setupWr_dropped data eff h1 h2 h3 h4]
  · have hd : setupWr port off data eff (marked s false).dev = dropWrite (marked s false).dev port off :=
      setupWr_dropped data eff h1 h2 h3 h4
    refine ⟨false, ?_⟩
    rw [Completes, h, updM_unrefused (by rw [hd]; rfl), hd]

/-- R30, R459: the upper half that completes a set-up write of a port without the lease has the whole write dropped. -/
theorem doSetupWrite_upperHalf_dropped {s : Dev} {port off : Nat} {h : HeldHalf} (img : Option Nat) (data : Word) (h1 : bar0Open s port = true)
    (h2 : (getPort s port).held = some h) (ha : off % 8 = 4) (ho : h.off = off - 4) (hs : off - 4 ≠ offID_SEM)
    (h3 : regAt s (off - 4) = true) (h4 : holdsLease s port = false) :
    doSetupWrite img port off true data s = dropWrite (modPort s port (fun p => { p with held := none })) port (off - 4) := by
  have h3' : regAt (modPort s port (fun p => { p with held := none })) (off - 4) = true := h3
  have h4' : holdsLease (modPort s port (fun p => { p with held := none })) port = false := h4
  simp [doSetupWrite, h1, h2, ha, ho, wholeWrite, hs, setupArrives, h3', h4']

/-- Settles O9: every command of `setupTarget` is one set-up write, and one that arrives without the lease is dropped. -/
theorem unleasedWritesDropped : Obligations.UnleasedWritesDropped := by
  unfold Obligations.UnleasedWritesDropped
  constructor
  · intro c s port off ht h1 h2 h3 h4
    obtain ⟨hp, hw⟩ := writesRegister_of_setupTarget s ht
    obtain ⟨b, hc⟩ := writesRegister_dropped hw h1 h2 h3 h4
    refine ⟨_, hc, ?_, fun o ho => ?_, ?_, ?_, getF_dropWrite_lastOff _ port off⟩
    · rw [dropWrite_changes_registers]
    · rw [reg_dropWrite_other _ port off ho, reg_marked]
    · rw [getF_dropWrite_dropsA, getF_marked]
    · rw [getF_dropWrite_dropsB _ port off hp, getF_marked]
  · intro s port off data h h1 h2 ha ho hs h3 h4
    exact setupWrite_completesM (doSetupWrite_upperHalf_dropped _ data h1 h2 ha ho hs h3 h4)

/-! ## Reserved encodings (R26) -/

/-- Two fields of a register share no bit. -/
def FieldSpec.Apart (f g : FieldSpec) : Prop := f.msb < g.lsb ∨ g.msb < f.lsb

/-- The blocks of the register map (R66), and the gaps between them. -/
def registerBlocks : List (List RegSpec) :=
  [blockID, blockCH, blockSLC, blockCD, blockMT, blockPW, blockFLT, blockOBS, blockSO, blockDL, blockSU, blockW, []]

theorem blockAt_mem_registerBlocks (off : Nat) : blockAt off ∈ registerBlocks := by
  unfold blockAt
  repeat refine iteInduction (motive := (· ∈ registerBlocks)) (fun _ => by simp [registerBlocks]) (fun _ => ?_)
  simp [registerBlocks]

/-- The register tables keep the fields of each register apart. -/
theorem registerBlocks_fields_apart : ∀ b ∈ registerBlocks, ∀ r ∈ b, r.fields.Pairwise FieldSpec.Apart := by
  unfold FieldSpec.Apart
  decide

/-- The other fields of a register lie apart from each of its fields. -/
theorem fields_apart {off : Nat} {r : RegSpec} {f g : FieldSpec} (hr : regSpecAt off = some r) (hf : f ∈ r.fields) (hg : g ∈ r.fields)
    (h : f ≠ g) : f.Apart g := by
  have hsymm : Std.Symm FieldSpec.Apart := ⟨fun _ _ => Or.symm⟩
  have hpair := registerBlocks_fields_apart _ (blockAt_mem_registerBlocks off) r (List.mem_of_find?_eq_some hr)
  exact hpair.forall hf hg h

/-- R23: a write of one field leaves the word as it was, or puts a value in that field. -/
theorem writeField_cases (locked : Bool) (w val : Word) (g : FieldSpec) :
    writeField locked w val g = w ∨ ∃ v, writeField locked w val g = putFld w g.msb g.lsb v := by
  unfold writeField
  dsimp only
  cases g.acc with
  | ro | wo => exact .inl rfl
  | rw =>
    dsimp only
    split
    · exact .inr ⟨_, rfl⟩
    · exact .inl rfl
  | rwl =>
    dsimp only
    split
    · exact .inl rfl
    · split
      · exact .inr ⟨_, rfl⟩
      · exact .inl rfl
  | w1c | w1s => exact .inr ⟨_, rfl⟩

/-- R23: a write of one field changes no field that lies apart from it. -/
theorem fld_writeField_apart (locked : Bool) (w val : Word) {f g : FieldSpec} (h : f.Apart g) :
    fld (writeField locked w val g) f.msb f.lsb = fld w f.msb f.lsb := by
  obtain hw | ⟨v, hw⟩ := writeField_cases locked w val g
  · rw [hw]
  · rw [hw, fld_putFld_apart w v h]

/-- R26: a reserved encoding leaves the word as it was. -/
theorem writeField_reserved (locked : Bool) (w val : Word) {f : FieldSpec} (ha : f.acc = .rw ∨ f.acc = .rwl)
    (h : legalEnc f (fld val f.msb f.lsb) = false) : writeField locked w val f = w := by
  rcases ha with ha | ha <;> simp [writeField, ha, h]

/-- A field that no write of the list changes reads as before them all. -/
theorem fld_foldl_writeField (locked : Bool) (val : Word) (f : FieldSpec) (l : List FieldSpec)
    (h : ∀ g ∈ l, ∀ w, fld (writeField locked w val g) f.msb f.lsb = fld w f.msb f.lsb) (w : Word) :
    fld (l.foldl (fun w g => writeField locked w val g) w) f.msb f.lsb = fld w f.msb f.lsb := by
  induction l generalizing w with
  | nil => rfl
  | cons g l ih => rw [List.foldl_cons, ih (fun x hx => h x (.tail _ hx)), h g (.head _)]

/-- R26: a write of a register leaves a field as it was where its value is a reserved encoding of it. -/
theorem fld_writeReg_reserved (s : Dev) {off : Nat} {r : RegSpec} {f : FieldSpec} {val : Word} (hr : regSpecAt off = some r) (hf : f ∈ r.fields)
    (ha : f.acc = .rw ∨ f.acc = .rwl) (hv : legalEnc f (fld val f.msb f.lsb) = false) :
    fld (reg (writeReg s off val) off) f.msb f.lsb = fld (reg s off) f.msb f.lsb := by
  simp only [writeReg, hr, reg_setReg_same]
  refine fld_foldl_writeField _ val f r.fields (fun g hg w => ?_) _
  by_cases h : f = g
  · rw [← h, writeField_reserved _ _ _ ha hv]
  · exact fld_writeField_apart _ _ _ (fields_apart hr hf hg h)

/-- The registers of the PW_ block but PW_BUDGET and PW_RAMP act by their access codes alone (R23). -/
theorem setupEffect_power (img : Option Nat) (port : Nat) {off : Nat} (data : Word) (s : Dev) (hb : off / 0x100000 = 5) (h1 : off ≠ offPW_BUDGET)
    (h2 : off ≠ offPW_RAMP) : setupEffect img port off data s = writeReg s off data := by
  have hw : ¬(off = offOBS_WHOA_CTL ∧ data.getLsbD 1 = true) := by
    rintro ⟨rfl, -⟩
    exact absurd hb (by decide)
  have hlow : off < 0x600100 := by omega
  rw [setupEffect, if_neg hw]
  simp [regEffect, hb, powerWr, h1, h2, hlow]

theorem writeReg_ms (s : Dev) (off : Nat) (val : Word) : (writeReg s off val).ms = s.ms := by
  unfold writeReg
  split <;> rfl

/-- A set-up write that reaches a register of the PW_ block but PW_BUDGET and PW_RAMP writes it, the model's own mark of coherent requests set
anew. -/
theorem setupWrite_power_completes {s : State} {port : Fin 2} {off : BitVec 26} (val : Word) (ht : SetupTaken s.dev port off.toNat)
    (ha : off.toNat % 8 = 0) (hb : off.toNat / 0x100000 = 5) (h1 : off.toNat ≠ offPW_BUDGET) (h2 : off.toNat ≠ offPW_RAMP) :
    Completes (.setupWrite port off false val) s (writeReg (marked s false).dev off.toNat val) := by
  have hs : off.toNat ≠ offID_SEM := by
    intro h
    exact absurd (h ▸ hb) (by decide)
  have ht' : SetupTaken (marked s false).dev port off.toNat := ht
  have hd : doSetupWrite (seqImage s.sec) port off.toNat false val (marked s false).dev = writeReg (marked s false).dev off.toNat val := by
    rw [doSetupWrite_whole _ _ _ _ ha hs, setupWr_taken _ _ ht', setupEffect_power _ _ _ _ hb h1 h2]
  rw [Completes, exec_setupWrite, updM_unrefused (by rw [hd, writeReg_ms]), hd]

/-- Settles O10: a reserved encoding writes nothing, and the other fields of the register, which lie apart, cannot reach its field. -/
theorem reservedEncodingsIgnored : Obligations.ReservedEncodingsIgnored := by
  unfold Obligations.ReservedEncodingsIgnored
  constructor
  · intro s off r f val hr hf ha hv
    exact fld_writeReg_reserved s hr hf ha hv
  · intro s port off r f val ht h8 hb h1 h2 hr hf ha hv
    exact ⟨_, setupWrite_power_completes val ht h8 hb h1 h2, fld_writeReg_reserved (marked s false).dev hr hf ha hv⟩

/-! ## Accesses of another size or alignment (R29) -/

theorem exec_bar0AccessError (port : Fin 2) (off : BitVec 26) (len : Fin 4097) (write : Bool) (s : State) :
    exec (.bar0AccessError port off len write) s = .next { s with dev := doBar0AccessError port off.toNat len write s.dev } := rfl

/-- R29: an access of another size or alignment is logged; a read returns zeros. -/
theorem doBar0AccessError_odd {s : Dev} {port off len : Nat} (write : Bool) (h1 : bar0Open s port = true) (h2 : (getPort s port).held = none)
    (h : ¬((len = 4 ∨ len = 8) ∧ off % len = 0)) :
    doBar0AccessError port off len write s =
      if write then setupError s port off else emit (setupError s port off) (.readData port (List.replicate len 0) false) := by
  have hl : ¬((len = 4 ∨ len = 8) ∧ off % len = 0 ∧ regAt s (off / 8 * 8) = true) := fun hc => h ⟨hc.1, hc.2.1⟩
  simp [doBar0AccessError, h1, hl, dropHeld_none h2]

/-- R29: a 64-bit write that is not aligned is logged and does nothing else. -/
theorem doSetupWrite_misaligned {s : Dev} {port off : Nat} (img : Option Nat) (data : Word) (h1 : bar0Open s port = true)
    (h2 : (getPort s port).held = none) (h : off % 8 ≠ 0) : doSetupWrite img port off false data s = setupError s port off := by
  simp [doSetupWrite, h1, dropHeld_none h2, h]

/-- Settles O11, with one lemma for the command of such an access and one for SETUP_WRITE. -/
theorem oddAccessesLogged : Obligations.OddAccessesLogged := by
  unfold Obligations.OddAccessesLogged
  intro s port off len h1 h2 h
  refine ⟨?_, ?_, fun h8 _ => setupWrite_completesM (doSetupWrite_misaligned _ _ h1 h2 h8)⟩
  · rw [Completes, exec_bar0AccessError, doBar0AccessError_odd _ h1 h2 h, if_pos rfl]
  · rw [Completes, exec_bar0AccessError, doBar0AccessError_odd _ h1 h2 h, if_neg Bool.false_ne_true]

end Sys2Proof.Machine

/-! PROOF. The statements of 02_number_formats.md (O19, O20): what a conversion makes of a NaN, in every format and in the lanes of CVT, and
the split of a finite FP32 operand. -/

namespace Sys2Proof.Machine

open Sys2Proof

/-! ## The conversion of a NaN (R94) -/

/-- R94: a NaN converts to its target's canonical NaN (R76), or to 0 with NV where the target has none. -/
theorem convertVal_nan (dst : NumFmt) (mode : Rnd) (sat : Bool) (r : Nat) :
    convertVal dst mode sat r .nan = ((fmtNaN dst).getD 0, if (fmtNaN dst).isSome then 0 else flagNV) := by
  rw [convertVal]
  cases fmtNaN dst <;> rfl

/-- The conversion of an encoding of a NaN is that of the value, FP32 to FP32 included (R92). -/
theorem convertBits_nan {src : NumFmt} {bits : Nat} (dst : NumFmt) (mode : Rnd) (sat : Bool) (r : Nat) (h : decodeVal src bits = .nan) :
    convertBits src dst mode sat r bits = ((fmtNaN dst).getD 0, if (fmtNaN dst).isSome then 0 else flagNV) := by
  rw [convertBits, h]
  exact convertVal_nan dst mode sat r

/-- No code of R68 names FP64. -/
theorem fmtOfCode_ne_fp64 {c : Nat} {fm : NumFmt} (h : fmtOfCode c = some fm) : fm ≠ .fp64 := by
  rintro rfl
  unfold fmtOfCode at h
  split at h <;> cases h

/-- The canonical NaN of a format that a code names fits a vector register. -/
theorem fmtNaN_lt {c : Nat} {fm : NumFmt} (h : fmtOfCode c = some fm) : (fmtNaN fm).getD 0 < 2 ^ 32 := by
  cases fm with
  | fp64 => exact absurd rfl (fmtOfCode_ne_fp64 h)
  | _ => decide

/-! ## Vector registers after the writes of an instruction -/

/-- The write of one register of a lane. -/
theorem setVn_one (g : Group) (r lane : Nat) (poison : Bool) (w : Nat) : setVn g r lane poison 1 w = setV g r lane (BitVec.ofNat 32 w) poison := by
  by_cases h : r = 255 <;> simp [setVn, setV, h]

/-- A write of a lane of a register, as the register's lanes read after it. -/
theorem getV_setV_lane (g : Group) {r : Nat} (lane l : Nat) (w : BitVec 32) (poison : Bool) (hr : r ≠ 255) :
    getV (setV g r lane w poison) r l = if l = lane then w else getV g r l := by
  simp [getV, setV, hr, tabGet_tabSet]

theorem mem_lanesOf (m : BitVec 32) (l : Nat) : l ∈ lanesOf m ↔ m.getLsbD l = true := by
  rw [lanesOf, lanes, List.mem_filter, List.mem_range]
  exact ⟨And.right, fun h => ⟨BitVec.lt_of_getLsbD h, h⟩⟩

/-- Steps that each write `w l` to lane `l` of register `d` leave it in the lanes they went over, and the other lanes alone. -/
theorem getV_foldl_setV {F : ArithRes → Nat → ArithRes} {d : Nat} {w : Nat → BitVec 32} (hd : d ≠ 255)
    (hF : ∀ a l, ∃ p, (F a l).g = setV a.g d l (w l) p) (ls : List Nat) (a : ArithRes) (l : Nat) :
    getV (ls.foldl F a).g d l = if l ∈ ls then w l else getV a.g d l := by
  induction ls generalizing a with
  | nil => rfl
  | cons k ls ih =>
    obtain ⟨p, hp⟩ := hF a k
    rw [List.foldl_cons, ih, hp, getV_setV_lane _ _ _ _ _ hd]
    by_cases hk : l = k <;> simp [hk]

/-- R144: a lane in which a per-lane instruction takes effect holds its result; the other lanes hold what they held. -/
theorem getV_perLane (g : Group) (iw : IWord) (f : Nat → Nat × ArithFlags × Bool) (l : Nat) (hd : iVD iw ≠ 255) :
    getV (perLane g iw 1 f).g (iVD iw) l = if (execMask g iw).getLsbD l = true then BitVec.ofNat 32 (f l).1 else getV g (iVD iw) l := by
  rw [perLane, getV_foldl_setV (w := fun l => BitVec.ofNat 32 (f l).1) hd (fun a l => ⟨_, setVn_one _ _ _ _ _⟩)]
  simp only [mem_lanesOf]

/-! ## What an arithmetic instruction leaves -/

/-- A legal arithmetic instruction that issues has its operation's effect and is counted. -/
theorem issueArith_legal {s : Dev} {iw : IWord} {vs ss : List Nat} {g : Group} {f : Group → Option ArithRes} {r : ArithRes} (code : Nat)
    (h : Issues s iw vs ss g) (hf : f g = some r) : issueArith s iw code vs ss f = countIssue (arithEffect s iw g r) iw code g := by
  rw [issueArith, issue_runs code _ h, hf, arithEffect]

/-- An update of a core that keeps its groups keeps the groups of all cores. -/
theorem getGroup_modCore (s : Dev) (c core slot : Nat) {f : Core → Core} (hf : ∀ x, (f x).groups = x.groups) :
    getGroup (modCore s c f) core slot = getGroup s core slot := by
  by_cases h : core = c
  · rw [getGroup, h, getCore_modCore_same, hf, getGroup]
  · rw [getGroup, getCore_modCore_other _ _ _ _ h, getGroup]

/-- Counting an event of a core leaves its groups as they were (R681). -/
theorem getGroup_countCore (s : Dev) (c code n core slot : Nat) : getGroup (countCore s c code n) core slot = getGroup s core slot := by
  unfold countCore
  split
  · rfl
  · dsimp only
    split
    · rfl
    · exact getGroup_modCore s c core slot (fun _ => rfl)

/-- Counting an instruction leaves the groups as they were (R683). -/
theorem getGroup_countIssue (s : Dev) (iw : IWord) (code : Nat) (g : Group) (core slot : Nat) :
    getGroup (countIssue s iw code g) core slot = getGroup s core slot := by
  unfold countIssue
  split
  · split
    · rfl
    · exact getGroup_countCore _ _ _ _ _ _
  · exact getGroup_countCore _ _ _ _ _ _

theorem getGroup_modCmd (s : Dev) (k : Nat) (f : Cmd → Cmd) (core slot : Nat) : getGroup (modCmd s k f) core slot = getGroup s core slot := rfl

/-- The group of an arithmetic instruction holds its results and goes on to the next instruction. -/
theorem getGroup_arithEffect (s : Dev) (iw : IWord) (g : Group) (r : ArithRes) :
    getGroup (arithEffect s iw g r) iw.core iw.slot = some r.g.next := by
  have hput : getGroup (putGroup s iw r.g.next) iw.core iw.slot = some r.g.next := getGroup_setGroup_same _ _ _ _
  unfold arithEffect
  dsimp only
  split <;> split <;> simpa only [markPoison, orFlags, getGroup_modCmd] using hput

theorem getV_next (g : Group) (r l : Nat) : getV g.next r l = getV g r l := rfl

/-! ## CVT (R156) -/

/-- CVT of a lane: the conversion's result and flags, and whether an operand it reads is poisoned. -/
def cvtLane (seed : Word) (g : Group) (iw : IWord) (src dst : NumFmt) (mode : Rnd) (l : Nat) : Nat × ArithFlags × Bool :=
  let r := convertBits src dst mode (iSAT iw == 1) (cvtRandom seed g iw l) ((getV g (iVA iw) l).toNat % 2 ^ fmtBits src)
  (r.1, r.2, getVP g (iVA iw) l || (iRND iw == 2 && (getVP g (iVB iw) l || getVP g (iVC iw) l)))

/-- A legal CVT converts lane by lane, between the formats that its codes name. -/
theorem opCvt_legal {seed : Word} {g : Group} {iw : IWord} {src dst : NumFmt} {r : ArithRes} (hsrc : fmtOfCode (iMOD iw % 16) = some src)
    (hdst : fmtOfCode (iTYP iw) = some dst) (h : opCvt seed g iw = some r) : ∃ mode, r = perLane g iw 1 (cvtLane seed g iw src dst mode) := by
  rw [opCvt, hsrc, hdst] at h
  cases hm : rndOfCode (iRND iw) with
  | none => simp [hm] at h
  | some mode =>
    simp only [hm] at h
    split at h
    · cases h
    · exact ⟨mode, (Option.some.inj h).symm⟩

/-- R94: a legal CVT writes its target's canonical NaN, or 0, in each lane that holds a NaN. -/
theorem getV_opCvt_nan {seed : Word} {g : Group} {iw : IWord} {src dst : NumFmt} {r : ArithRes} {l : Nat}
    (hsrc : fmtOfCode (iMOD iw % 16) = some src) (hdst : fmtOfCode (iTYP iw) = some dst) (h : opCvt seed g iw = some r) (hd : iVD iw ≠ 255)
    (hl : (execMask g iw).getLsbD l = true) (hnan : decodeVal src ((getV g (iVA iw) l).toNat % 2 ^ fmtBits src) = .nan) :
    (getV r.g (iVD iw) l).toNat = (fmtNaN dst).getD 0 := by
  obtain ⟨mode, rfl⟩ := opCvt_legal hsrc hdst h
  rw [getV_perLane _ _ _ _ hd, if_pos hl, cvtLane, convertBits_nan _ _ _ _ hnan, BitVec.toNat_ofNat, Nat.mod_eq_of_lt (fmtNaN_lt hdst)]

theorem exec_cvt (iw : IWord) (s : State) :
    exec (.cvt iw) s = upd s (fun d => issueArith d iw 2 (usesVR iw 1 1 1 1) [] (fun g => opCvt (seedOf d iw) g iw)) := rfl

/-- A legal CVT that issues leaves its group with the results of `opCvt`. -/
theorem getGroup_cvt {s t : State} {iw : IWord} {g : Group} {r : ArithRes} (hi : Issues s.dev iw (usesVR iw 1 1 1 1) [] g)
    (hr : opCvt (seedOf s.dev iw) g iw = some r) (ht : exec (.cvt iw) s = .next t) : getGroup t.dev iw.core iw.slot = some r.g.next := by
  rw [exec_cvt, upd_next, issueArith_legal 2 hi hr] at ht
  cases ht
  rw [getGroup_countIssue, getGroup_arithEffect]

/-- Settles O19: a conversion looks at its source's value first, and CVT is that conversion in each lane. -/
theorem naNConverts : Obligations.NaNConverts := by
  unfold Obligations.NaNConverts
  constructor
  · intro src dst mode sat r bits hnan
    rw [convertBits_nan dst mode sat r hnan]
    cases dst <;> rfl
  · intro s t iw g src dst hi hsrc hdst hlegal hd ht
    obtain ⟨r, hr⟩ := Option.isSome_iff_exists.mp hlegal
    refine ⟨r.g.next, getGroup_cvt hi hr ht, fun l _ hl hnan => ?_⟩
    rw [getV_next, getV_opCvt_nan hsrc hdst hr hd hl hnan]
    cases dst with
    | fp64 => exact absurd rfl (fmtOfCode_ne_fp64 hdst)
    | _ => rfl

/-! ## The split of an FP32 operand (R85) -/

/-- R74: a significand has one bit more than the fraction field. -/
theorem decodeLayout_significand_lt {x f b bits m : Nat} {sg : Bool} {q : Int} (h : decodeLayout x f b bits = .fin sg m q) :
    m < 2 ^ (f + 1) := by
  have hfr : bits % 2 ^ f < 2 ^ f := Nat.mod_lt _ (Nat.two_pow_pos f)
  rw [Nat.pow_succ]
  unfold decodeLayout at h
  dsimp only at h
  split at h <;> injection h <;> omega

/-- A finite FP32 value is that of its sign, exponent and fraction fields. -/
theorem decodeLayout_of_fp32_fin {bits m : Nat} {sg : Bool} {q : Int} (h : decodeVal .fp32 bits = .fin sg m q) :
    decodeLayout 8 23 127 bits = .fin sg m q := by
  unfold decodeVal at h
  dsimp only [fmtXFB] at h
  split at h
  · split at h <;> cases h
  · exact h

theorem and_low_twelve_bits (m : Nat) : m &&& 0xFFF = m % 2 ^ 12 := Nat.and_two_pow_sub_one_eq_mod m 12

/-- R85: the low part is the low 12 bits of the significand, the high part the rest. -/
theorem split32_fin (sg : Bool) (m : Nat) (q : Int) : split32 (.fin sg m q) = ((sg, m >>> 12, q + 12), (sg, m &&& 0xFFF, q)) := by
  rw [Nat.shiftRight_eq_div_pow, and_low_twelve_bits]
  rfl

/-- Settles O20; the smallest subnormal, 2^-149, is an operand whose high part is zero and whose low part is not. -/
theorem splitIsExact : Obligations.SplitIsExact := by
  unfold Obligations.SplitIsExact
  constructor
  · intro bits sg m q h
    refine ⟨decodeLayout_significand_lt (decodeLayout_of_fp32_fin h), split32_fin sg m q, ?_⟩
    rw [Nat.shiftRight_eq_div_pow, and_low_twelve_bits, Nat.div_add_mod']
  · exact ⟨1, 1, -149, by decide, by decide, by decide⟩

end Sys2Proof.Machine

/-! PROOF. The statements of 09_memory_tiers.md (O22): what a write of a tier sector stores, what becomes of the sector's poison bit, and what
leaves on a far port. -/

namespace Sys2Proof.Machine

open Sys2Proof

/-! ## Lists of poisoned sectors (R384) -/

theorem mem_insSorted (k x : Nat) (l : List Nat) : k ∈ insSorted x l ↔ k = x ∨ k ∈ l := by
  induction l with
  | nil => simp [insSorted]
  | cons y l ih =>
    unfold insSorted
    split
    · exact List.mem_cons
    · split
      · next h => simp [h]
      · rw [List.mem_cons, ih, List.mem_cons, or_left_comm]

theorem mem_delNat (k x : Nat) (l : List Nat) : k ∈ delNat x l ↔ k ∈ l ∧ k ≠ x := by
  simp [delNat]

/-- R384: the poisoned sectors after a write of sector `x` under a byte mask. -/
def poisonedAfter (x mask : Nat) (poison : Bool) (l : List Nat) : List Nat :=
  if poison then insSorted x l else if mask == 2 ^ 64 - 1 then delNat x l else l

/-- R384: poisoned data sets the sector's bit. -/
theorem poisonedAfter_poisoned (x mask : Nat) (l : List Nat) : (poisonedAfter x mask true l).contains x = true :=
  List.contains_iff_mem.mpr ((mem_insSorted x x l).mpr (.inl rfl))

/-- R384: clean data over the whole sector clears its bit. -/
theorem poisonedAfter_whole (x : Nat) (l : List Nat) : (poisonedAfter x (2 ^ 64 - 1) false l).contains x = false := by
  rw [Bool.eq_false_iff, Ne, List.contains_iff_mem]
  exact fun h => ((mem_delNat x x l).mp h).2 rfl

/-- R384: clean data over a part of the sector keeps every bit. -/
theorem poisonedAfter_partial (x : Nat) {mask : Nat} (l : List Nat) (h : mask ≠ 2 ^ 64 - 1) : poisonedAfter x mask false l = l := by
  simp only [poisonedAfter, Bool.false_eq_true, if_false, beq_iff_eq, if_neg h]

/-- A write of a sector keeps the bit of every other one. -/
theorem poisonedAfter_other (x mask : Nat) (poison : Bool) (l : List Nat) {k : Nat} (h : k ≠ x) :
    (poisonedAfter x mask poison l).contains k = l.contains k := by
  rw [Bool.eq_iff_iff, List.contains_iff_mem, List.contains_iff_mem, poisonedAfter]
  split
  · simp [mem_insSorted, h]
  · split
    · simp [mem_delNat, h]
    · rfl

/-! ## The registers that counting writes (R683) -/

section

variable {off : Nat}

/-- Steps that each keep a register keep it together. -/
theorem reg_foldl_of_keeps {β : Type} {f : Dev → β → Dev} {l : List β} (hf : ∀ b ∈ l, ∀ d, reg (f d b) off = reg d off) (s : Dev) :
    reg (l.foldl f s) off = reg s off :=
  List.foldlRecOn l f (motive := fun d => reg d off = reg s off) rfl fun d hd b hb => (hf b hb d).trans hd

/-- Counting by one select register writes its eight counters at most. -/
theorem reg_countSel_outside (s : Dev) (sel ctr code n : Nat) (ho : off < ctr ∨ ctr + 64 ≤ off) :
    reg (countSel s sel ctr code n) off = reg s off := by
  unfold countSel
  dsimp only
  split
  · rfl
  · refine reg_foldl_of_keeps (fun i hi d => ?_) s
    have hi8 : i < 8 := List.mem_range.mp hi
    split
    · exact reg_setReg_other _ _ _ _ (by omega)
    · rfl

/-- The counters of a die lie in the OBS_ block. -/
theorem reg_countDie_outside (s : Dev) {die : Nat} (code n : Nat) (hd : die < 8) (ho : off < 0x700000 ∨ 0x800000 ≤ off) :
    reg (countDie s die code n) off = reg s off := by
  refine reg_foldl_of_keeps (fun w hw d => ?_) s
  have hw4 : w < 4 := List.mem_range.mp hw
  exact reg_countSel_outside _ _ _ _ _ (by unfold offOBS_DIE_CTR; omega)

/-- The counters of a hub lie in the OBS_ block. -/
theorem reg_countHub_outside (s : Dev) {hub : Nat} (code n : Nat) (hh : hub < 2) (ho : off < 0x700000 ∨ 0x800000 ≤ off) :
    reg (countHub s hub code n) off = reg s off := by
  refine reg_foldl_of_keeps (fun w hw d => ?_) s
  have hw8 : w < 8 := List.mem_range.mp hw
  exact reg_countSel_outside _ _ _ _ _ (by unfold offOBS_HUB_CTR; omega)

theorem reg_emit (s : Dev) (o : Out) : reg (emit s o) off = reg (countOut s o) off := rfl

/-- R683: a write request on a far port is counted at its hub, by the bytes of its mask. -/
theorem countOut_cxlWrite (s : Dev) (f a : Nat) (x : BitVec 512) (m : BitVec 64) (p : Bool) :
    countOut s (.cxl f true a x m p) = countHub s (f / 2) 0xC3 (bitsOf 64 m.toNat).length := by
  simp only [countOut, if_true]

/-- A write request on one of the four far ports is counted in the OBS_ block. -/
theorem reg_emit_cxlWrite (s : Dev) {f : Nat} (a : Nat) (x : BitVec 512) (m : BitVec 64) (p : Bool) (hf : f < 4)
    (ho : off < 0x700000 ∨ 0x800000 ≤ off) : reg (emit s (.cxl f true a x m p)) off = reg s off := by
  rw [reg_emit, countOut_cxlWrite, reg_countHub_outside s _ _ (by omega) ho]

end

/-! ## What a stored sector does beside the bytes -/

/-- R61: there are four far ports. -/
theorem farPort_lt_four {b : Nat} (h : isFar b = true) : farPort b < 4 := by
  simp only [isFar, Bool.and_eq_true, decide_eq_true_eq] at h
  unfold farPort
  omega

theorem isNear_eq_false_of_isFar {b : Nat} (h : isFar b = true) : isNear b = false := by
  simp only [isFar, Bool.and_eq_true, decide_eq_true_eq] at h
  simp only [isNear, decide_eq_false_iff_not]
  omega

/-- R576: waking a die's stacks changes the power state alone. -/
theorem wakeStacks_pw_only (s : Dev) (b : Nat) : ∃ p, wakeStacks s b = { s with pw := p } := by
  unfold wakeStacks
  split
  · exact ⟨_, rfl⟩
  · exact ⟨s.pw, rfl⟩

/-- Counting a store changes registers and the power state alone. -/
theorem tierCount_regs_pw_only (s : Dev) (b mask : Nat) : ∃ r p, tierCount s b mask = { s with regs := r, pw := p } := by
  unfold tierCount
  split
  · obtain ⟨p, hp⟩ := wakeStacks_pw_only s b
    obtain ⟨r, hr⟩ := countDie_regs_only (wakeStacks s b) (nField b 39 37) 0x81 (bitsOf 64 mask).length
    exact ⟨r, p, by rw [hr, hp]⟩
  · exact ⟨s.regs, s.pw, rfl⟩

/-- Of the registers, counting a store changes counters of the OBS_ block alone. -/
theorem reg_tierCount (s : Dev) (b mask : Nat) {off : Nat} (ho : off < 0x700000 ∨ 0x800000 ≤ off) :
    reg (tierCount s b mask) off = reg s off := by
  unfold tierCount
  split
  · have hdie : nField b 39 37 < 8 := Nat.mod_lt _ (by decide)
    rw [reg_countDie_outside _ _ _ hdie ho]
    obtain ⟨p, hp⟩ := wakeStacks_pw_only s b
    rw [hp]
    rfl
  · rfl

/-- A store on a far port is not counted at a die. -/
theorem tierCount_far (s : Dev) {b : Nat} (mask : Nat) (h : isFar b = true) : tierCount s b mask = s := by
  simp [tierCount, isNear_eq_false_of_isFar h]

/-- R393: a sector off the far ports makes no CXL.mem request. -/
theorem cxlRequest_notFar (s : Dev) {b : Nat} (w : Bool) (x : BitVec 512) (mask : Nat) (p : Bool) (h : isFar b = false) :
    cxlRequest s b w x mask p = s := by
  simp [cxlRequest, h]

/-- R391, R393: a sector on a far port makes one CXL.mem request; what comes back may set the port's rate. -/
theorem cxlRequest_far (s : Dev) {b : Nat} (w : Bool) (x : BitVec 512) (mask : Nat) (p : Bool) (h : isFar b = true) :
    ∃ load, cxlRequest s b w x mask p =
      modMs (emit s (.cxl (farPort b) w ((b - 0x010000000000) % 2 ^ 39) x (BitVec.ofNat 64 mask) p)) (fun m => { m with devLoad := load }) := by
  simp only [cxlRequest, h, Bool.not_true, Bool.false_eq_true, if_false]
  split
  · split
    · exact ⟨(emit s _).ms.devLoad, rfl⟩
    · exact ⟨_, rfl⟩
  · exact ⟨(emit s _).ms.devLoad, rfl⟩

/-- R330: what a write to a far port replaces is noted in a list of its own. -/
theorem noteFarOut_farOut_only (s : Dev) (b mask : Nat) : ∃ outs, noteFarOut s b mask = modMs s (fun m => { m with farOut := outs }) := by
  unfold noteFarOut
  split
  · exact ⟨s.ms.farOut, rfl⟩
  · split
    · exact ⟨s.ms.farOut, rfl⟩
    · exact ⟨_, rfl⟩

/-- The device when a store's data has gone to its port: one CXL.mem request on a far port, a count of bytes at a die of the near tier. -/
def sectorSent (s : Dev) (b : Nat) (x : BitVec 512) (mask : Nat) (poison : Bool) : Dev :=
  if isFar b then emit s (.cxl (farPort b) true ((b - 0x010000000000) % 2 ^ 39) x (BitVec.ofNat 64 mask) poison) else tierCount s b mask

theorem sectorSent_far (s : Dev) {b : Nat} (x : BitVec 512) (mask : Nat) (poison : Bool) (h : isFar b = true) : sectorSent s b x mask poison =
    emit s (.cxl (farPort b) true ((b - 0x010000000000) % 2 ^ 39) x (BitVec.ofNat 64 mask) poison) := if_pos h

theorem sectorSent_notFar (s : Dev) {b : Nat} (x : BitVec 512) (mask : Nat) (poison : Bool) (h : isFar b = false) :
    sectorSent s b x mask poison = tierCount s b mask := if_neg (Bool.eq_false_iff.mp h)

/-- R384: a store that its die and stack can take sends the data, writes the masked bytes and rules on the poison bit. -/
theorem tierStore_live (s : Dev) {b : Nat} (x : BitVec 512) (mask : Nat) (poison : Bool) (h : tierDead s b = false) :
    ∃ load outs errs, tierStore s b x mask poison =
      modMs (sectorSent s b x mask poison) (fun m =>
        { m with
          tier := writeNat m.tier b 64 x.toNat mask
          tierPoison := poisonedAfter (b / 64) mask poison m.tierPoison
          tierErr := errs
          devLoad := load
          farOut := outs }) := by
  simp only [tierStore, h, Bool.false_eq_true, if_false]
  obtain ⟨outs, hn⟩ := noteFarOut_farOut_only (cxlRequest (tierCount s b mask) b true x mask poison) b mask
  rw [hn]
  cases hf : isFar b with
  | true =>
    obtain ⟨load, hc⟩ := cxlRequest_far s true x mask poison hf
    rw [tierCount_far s mask hf, hc, sectorSent_far s x mask poison hf]
    generalize emit s _ = d
    exact ⟨load, outs, _, rfl⟩
  | false =>
    rw [cxlRequest_notFar _ true x mask poison hf, sectorSent_notFar s x mask poison hf]
    generalize tierCount s b mask = d
    exact ⟨d.ms.devLoad, outs, _, rfl⟩

section

variable (s : Dev) (b : Nat) (x : BitVec 512) (mask : Nat) (poison : Bool)

/-- Sending a sector changes registers, the power state and what was sent, and nothing else. -/
theorem sectorSent_regs_pw_out_only : ∃ r p o, sectorSent s b x mask poison = { s with regs := r, pw := p, out := o } := by
  cases hf : isFar b with
  | true =>
    obtain ⟨r, hr⟩ := countOut_regs_only s (.cxl (farPort b) true ((b - 0x010000000000) % 2 ^ 39) x (BitVec.ofNat 64 mask) poison)
    exact ⟨r, s.pw, s.out ++ [_], by rw [sectorSent_far s x mask poison hf, emit, hr]⟩
  | false =>
    obtain ⟨r, p, h⟩ := tierCount_regs_pw_only s b mask
    exact ⟨r, p, s.out, by rw [sectorSent_notFar s x mask poison hf, h]⟩

@[simp] theorem sectorSent_ms : (sectorSent s b x mask poison).ms = s.ms := by
  obtain ⟨_, _, _, h⟩ := sectorSent_regs_pw_out_only s b x mask poison
  rw [h]
@[simp] theorem sectorSent_cores : (sectorSent s b x mask poison).cores = s.cores := by
  obtain ⟨_, _, _, h⟩ := sectorSent_regs_pw_out_only s b x mask poison
  rw [h]
@[simp] theorem sectorSent_cmds : (sectorSent s b x mask poison).cmds = s.cmds := by
  obtain ⟨_, _, _, h⟩ := sectorSent_regs_pw_out_only s b x mask poison
  rw [h]

/-- R393: a write to a far port leaves as one CXL.mem request with its byte mask. -/
theorem sectorSent_out_far (h : isFar b = true) : (sectorSent s b x mask poison).out =
    s.out ++ [.cxl (farPort b) true ((b - 0x010000000000) % 2 ^ 39) x (BitVec.ofNat 64 mask) poison] := by
  rw [sectorSent_far s x mask poison h, emit_out]

theorem sectorSent_out_notFar (h : isFar b = false) : (sectorSent s b x mask poison).out = s.out := by
  obtain ⟨_, _, ht⟩ := tierCount_regs_pw_only s b mask
  rw [sectorSent_notFar s x mask poison h, ht]

/-- Of the registers, sending a sector changes counters of the OBS_ block alone. -/
theorem reg_sectorSent {off : Nat} (ho : off < 0x700000 ∨ 0x800000 ≤ off) : reg (sectorSent s b x mask poison) off = reg s off := by
  cases hf : isFar b with
  | true => rw [sectorSent_far s x mask poison hf, reg_emit_cxlWrite s _ x _ poison (farPort_lt_four hf) ho]
  | false => rw [sectorSent_notFar s x mask poison hf, reg_tierCount s b mask ho]

end

/-- Settles O22: a store is one sending of the sector, one masked write of its bytes and one ruling on its poison bit. -/
theorem tierSectorWrites : Obligations.TierSectorWrites := by
  unfold Obligations.TierSectorWrites
  rintro s b x mask poison d - - rfl hlive
  obtain ⟨load, outs, errs, h⟩ := tierStore_live s x mask poison hlive
  simp only [h, modMs_ms, sectorSent_ms]
  refine ⟨tabGet_writeNat _ _ _ _ _, ?set, ?clear, ?keep, fun k hk => poisonedAfter_other _ _ _ _ hk, trivial, trivial,
    sectorSent_cores s b x mask poison, sectorSent_cmds s b x mask poison, fun off ho => reg_sectorSent s b x mask poison ho, sectorSent_out_far s b x mask poison,
    sectorSent_out_notFar s b x mask poison⟩
  case set =>
    rintro rfl
    exact poisonedAfter_poisoned _ _ _
  case clear =>
    rintro rfl rfl
    exact poisonedAfter_whole _ _
  case keep =>
    rintro rfl hm
    rw [poisonedAfter_partial _ _ hm]

end Sys2Proof.Machine

/-! PROOF. The statement of 12_slices_scheduling.md (O13): while a slice is neither FREE nor STOPPED, writes of its settings are ignored and
logged. -/

namespace Sys2Proof.Machine

open Sys2Proof

/-! ## Set-up writes in the SLC_ block (R23, R552 to R567) -/

/-- Where the register at place `k` of slice `n` lies in the SLC_ block: the slice and the place are read off its offset. -/
theorem slice_place {n k off : Nat} (hn : n < 16) (hk : k < 0x400) (ho : off = 0x200000 + 0x400 * n + k) :
    off - 0x200000 < 0x4000 ∧ (off - 0x200000) / 0x400 = n ∧ (off - 0x200000) % 0x400 = k := by
  omega

theorem sliceWr_cfg (port : Nat) {n : Nat} (data : Word) (hn : n < 16) : sliceWr port (offSLC_CFG n) data = slcCfgEff port n data := by
  obtain ⟨hx, hslice, hplace⟩ := slice_place (k := 8) hn (by decide) (show offSLC_CFG n = _ by simp only [offSLC_CFG]; omega)
  funext s
  simp [sliceWr, hx, hslice, hplace]

theorem sliceWr_rgns (port : Nat) {n : Nat} (data : Word) (hn : n < 16) : sliceWr port (offSLC_RGNS n) data = slcRgnEff port n data := by
  obtain ⟨hx, hslice, hplace⟩ := slice_place (k := 0x10) hn (by decide) (show offSLC_RGNS n = _ by simp only [offSLC_RGNS]; omega)
  funext s
  simp [sliceWr, hx, hslice, hplace]

theorem sliceWr_chan (port : Nat) {n : Nat} (data : Word) (hn : n < 16) : sliceWr port (offSLC_CHAN n) data = slcChanEff port n data := by
  obtain ⟨hx, hslice, hplace⟩ := slice_place (k := 0x18) hn (by decide) (show offSLC_CHAN n = _ by simp only [offSLC_CHAN]; omega)
  funext s
  simp [sliceWr, hx, hslice, hplace]

/-- SLC_n_PTBASE, SLC_n_CTXTAB and the SLC_n_PASIDk, by their places, are written by one effect. -/
theorem sliceWr_held (port : Nat) {n k off : Nat} (data : Word) (hn : n < 16) (hk : k = 0x20 ∨ k = 0x28 ∨ (0x40 ≤ k ∧ k < 0x80))
    (ho : off = 0x200000 + 0x400 * n + k) : sliceWr port off data = slcHeldEff port n off data := by
  obtain ⟨hx, hslice, hplace⟩ := slice_place hn (by omega) ho
  have h0 : k ≠ 0 ∧ k ≠ 8 ∧ k ≠ 0x10 ∧ k ≠ 0x18 := by omega
  funext s
  simp [sliceWr, hx, hslice, hplace, h0, hk]

/-- A write in the SLC_ block acts as the block says (R23). -/
theorem setupEffect_slice (img : Option Nat) (port : Nat) {off : Nat} (data : Word) (hb : off / 0x100000 = 2) :
    setupEffect img port off data = sliceWr port off data := by
  have hw : off ≠ offOBS_WHOA_CTL := by
    rintro rfl
    exact absurd hb (by decide)
  funext s
  simp [setupEffect, hw, regEffect, hb]

/-- A set-up write that reaches a register of the SLC_ block completes as the block says. -/
theorem setupWrite_slice_completesM {s : State} {port : Fin 2} {off : BitVec 26} {data : Word} {d : Dev} (ht : SetupTaken s.dev port off.toNat)
    (ha : off.toNat % 8 = 0) (hb : off.toNat / 0x100000 = 2) (hd : sliceWr port off.toNat data s.dev = d) :
    CompletesM (.setupWrite port off false data) s d := by
  have hs : off.toNat ≠ offID_SEM := by
    intro h
    exact absurd (h ▸ hb) (by decide)
  refine setupWrite_completesM ?_
  rw [doSetupWrite_whole _ _ _ _ ha hs, setupWr_taken _ _ ht, setupEffect_slice _ _ _ hb, hd]

/-! ## The registers that a slice holds (R518) -/

/-- A slice whose STATE is neither FREE nor STOPPED has its settings fixed. -/
theorem slFixed_of_state {s : Dev} {n : Nat} (h : 2 ≤ getF s (fSLC_CTL_STATE n)) : slFixed s n = true := by
  simp [slFixed, slState, h]

theorem slcRgnEff_fixed {s : Dev} {n : Nat} (port : Nat) (data : Word) (h : slFixed s n = true) :
    slcRgnEff port n data s = setupError s port (offSLC_RGNS n) := if_pos h

theorem slcChanEff_fixed {s : Dev} {n : Nat} (port : Nat) (data : Word) (h : slFixed s n = true) :
    slcChanEff port n data s = setupError s port (offSLC_CHAN n) := if_pos h

theorem slcHeldEff_fixed {s : Dev} {n : Nat} (port off : Nat) (data : Word) (h : slFixed s n = true) :
    slcHeldEff port n off data s = setupError s port off := if_pos h

/-- The fields of SLC_n_CFG but PIN_KIB, the one at bit 32, are written. -/
theorem slcCfgEff_fixed {s : Dev} {n : Nat} (port : Nat) (data : Word) (h : slFixed s n = true)
    (hpin : fld data 44 32 ≠ getF s (fSLC_CFG_PIN_KIB n)) :
    slcCfgEff port n data s = writeRegBy (setupError s port (offSLC_CFG n)) (offSLC_CFG n) data (fun f => f.lsb != 32) :=
  if_pos ⟨.inl h, hpin⟩

/-- The registers that R518 names whole: the regions, the channels, the page table, the context table and the PASIDs of slice `n`. -/
def IsHeldWhole (n off : Nat) : Prop :=
  off = offSLC_RGNS n ∨ off = offSLC_CHAN n ∨ off = offSLC_PTBASE n ∨ off = offSLC_CTXTAB n ∨ ∃ k : Fin 8, off = offSLC_PASID n k

/-- The registers of R518 are aligned registers of the SLC_ block. -/
theorem IsHeldWhole.in_block {n off : Nat} (h : IsHeldWhole n off) (hn : n < 16) : off % 8 = 0 ∧ off / 0x100000 = 2 := by
  obtain rfl | rfl | rfl | rfl | ⟨k, rfl⟩ := h
  · simp only [offSLC_RGNS]; omega
  · simp only [offSLC_CHAN]; omega
  · simp only [offSLC_PTBASE]; omega
  · simp only [offSLC_CTXTAB]; omega
  · simp only [offSLC_PASID]; omega

/-- R518: a write of a register of a fixed slice that is held whole is logged and does nothing else. -/
theorem sliceWr_heldWhole {s : Dev} {n off : Nat} (port : Nat) (data : Word) (hn : n < 16) (h : IsHeldWhole n off) (hf : slFixed s n = true) :
    sliceWr port off data s = setupError s port off := by
  obtain rfl | rfl | rfl | rfl | ⟨k, rfl⟩ := h
  · rw [sliceWr_rgns port data hn, slcRgnEff_fixed port data hf]
  · rw [sliceWr_chan port data hn, slcChanEff_fixed port data hf]
  · rw [sliceWr_held (k := 0x20) port data hn (by decide) (by simp only [offSLC_PTBASE]; omega), slcHeldEff_fixed _ _ _ hf]
  · rw [sliceWr_held (k := 0x28) port data hn (by decide) (by simp only [offSLC_CTXTAB]; omega), slcHeldEff_fixed _ _ _ hf]
  · rw [sliceWr_held (k := 0x40 + 8 * k) port data hn (by omega) (by simp only [offSLC_PASID]; omega), slcHeldEff_fixed _ _ _ hf]

/-- Settles O13: a slice that is neither FREE nor STOPPED is fixed, and a write in the SLC_ block that is taken acts by the effect of its register,
which a fixed slice lets log alone. -/
theorem sliceRegistersHeld : Obligations.SliceRegistersHeld := by
  unfold Obligations.SliceRegistersHeld
  intro s port n off data ht hst
  have hf : slFixed s.dev n = true := slFixed_of_state hst
  constructor
  · intro (h : IsHeldWhole n off.toNat)
    obtain ⟨ha, hb⟩ := h.in_block n.isLt
    exact setupWrite_slice_completesM ht ha hb (sliceWr_heldWhole port data n.isLt h hf)
  · intro ho hpin
    have hoff : off.toNat = 0x200008 + 0x400 * n := ho
    refine setupWrite_slice_completesM ht (by omega) (by omega) ?_
    rw [ho, sliceWr_cfg port data n.isLt, slcCfgEff_fixed port data hf hpin]

end Sys2Proof.Machine

/-! PROOF. The statement of 17_management.md (O7): what the commands of the management plane do to flash and fuses, which of them blows a
fuse of FUSE_SVN, and what an accepted and a refused COMMIT leave. -/

namespace Sys2Proof.Machine

open Sys2Proof

/-! ## Flash and fuses after an operation of the firmware (R728 to R733) -/

@[simp] theorem withSec_sec (s : State) (q : Sec) : (withSec s q).sec = q := by rfl
@[simp] theorem reply_sec (s : State) (st : Nat) (data : List Byte) : (reply s st data).sec = s.sec := by rfl
@[simp] theorem respond_sec (s : State) (code : Nat) (data : List Nat) : (respond s code data).sec = s.sec := by rfl

/-- Banks are flash: replacing one blows no fuse. -/
@[simp] theorem fuseSvn_setBank (q : Sec) (b : Nat) (x : Bank) : (setBank q b x).fuseSvn = q.fuseSvn := by
  unfold setBank
  split
  · rfl
  · split <;> rfl

@[simp] theorem fuseSvn_beginUpdate (q : Sec) (path len now : Nat) : (beginUpdate q path len now).fuseSvn = q.fuseSvn := fuseSvn_setBank _ _ _

@[simp] theorem fuseSvn_writeUpdate (q : Sec) (u : Update) (o : Nat) (data : List Byte) (now : Nat) :
    (writeUpdate q u o data now).fuseSvn = q.fuseSvn := fuseSvn_setBank _ _ _

@[simp] theorem fuseSvn_dropUpdate (q : Sec) : (dropUpdate q).fuseSvn = q.fuseSvn := fuseSvn_setBank _ _ _

@[simp] theorem fuseSvn_verifyUpdate (q : Sec) (u : Update) (now : Nat) : (verifyUpdate q u now).1.fuseSvn = q.fuseSvn := by
  unfold verifyUpdate
  split
  · exact fuseSvn_setBank _ _ _
  · rfl

@[simp] theorem fuseSvn_activate (s : State) : (activate s).sec.fuseSvn = s.sec.fuseSvn := by
  simp [activate]
@[simp] theorem fuseSvn_standUp (s : State) (modId : Nat) : (standUp s modId).sec.fuseSvn = s.sec.fuseSvn := by
  simp [standUp]

@[simp] theorem fuseSvn_bootFails (s : State) : (bootFails s).sec.fuseSvn = s.sec.fuseSvn := by
  unfold bootFails
  dsimp only
  split <;> simp

/-! ## Commands that may change flash, COMMIT apart (R731 to R733, R791) -/

theorem fuseSvn_fwBegin (s : State) : (fwBegin s).sec.fuseSvn = s.sec.fuseSvn := by
  unfold fwBegin
  dsimp only
  split
  · rfl
  · split <;> simp

theorem fuseSvn_fwWrite (s : State) : (fwWrite s).sec.fuseSvn = s.sec.fuseSvn := by
  unfold fwWrite
  split
  · dsimp only
    split
    · rfl
    · split <;> simp
  · rfl

theorem fuseSvn_fwVerify (s : State) : (fwVerify s).sec.fuseSvn = s.sec.fuseSvn := by
  unfold fwVerify
  split
  · split <;> simp
  · rfl

theorem fuseSvn_fwActivate (s : State) : (fwActivate s).sec.fuseSvn = s.sec.fuseSvn := by
  unfold fwActivate
  split
  · split <;> simp
  · rfl

theorem fuseSvn_fwAbort (s : State) : (fwAbort s).sec.fuseSvn = s.sec.fuseSvn := by
  unfold fwAbort
  split
  · split <;> simp
  · simp

theorem fuseSvn_doUpdateIdleExpiry (s : State) : (doUpdateIdleExpiry s).sec.fuseSvn = s.sec.fuseSvn := by
  unfold doUpdateIdleExpiry
  split <;> simp

theorem fuseSvn_doTrialBootFailure (s : State) : (doTrialBootFailure s).sec.fuseSvn = s.sec.fuseSvn := by
  unfold doTrialBootFailure
  split <;> simp

theorem fuseSvn_doRequestUpdate (len : Nat) (s : State) : (doRequestUpdate len s).sec.fuseSvn = s.sec.fuseSvn := by
  unfold doRequestUpdate
  split
  · rfl
  · split
    · rfl
    · split <;> simp

theorem fuseSvn_doUpdateComponent (comp size : Nat) (s : State) : (doUpdateComponent comp size s).sec.fuseSvn = s.sec.fuseSvn := by
  unfold doUpdateComponent
  split
  · dsimp only
    split
    · rfl
    · split <;> split <;> simp
  · split <;> simp

theorem fuseSvn_doFirmwareData (o : Nat) (data : List Byte) (s : State) : (doFirmwareData o data s).sec.fuseSvn = s.sec.fuseSvn := by
  unfold doFirmwareData
  split
  · split <;> simp
  · rfl

theorem fuseSvn_doCancelUpdate (s : State) : (doCancelUpdate s).sec.fuseSvn = s.sec.fuseSvn := by
  unfold doCancelUpdate
  split
  · rfl
  · split
    · split <;> simp
    · rfl

theorem fuseSvn_doActivateFirmware (selfContained : Bool) (s : State) : (doActivateFirmware selfContained s).sec.fuseSvn = s.sec.fuseSvn := by
  unfold doActivateFirmware
  split
  · rfl
  · split
    · rfl
    · split
      · split
        · rfl
        · dsimp only
          split <;> split <;> simp
      · rfl

theorem fuseSvn_doStand (modId : Nat) (s : State) : (doStand modId s).sec.fuseSvn = s.sec.fuseSvn := by
  unfold doStand
  split <;> simp

theorem fuseSvn_doRefclkRestart (s : State) : (doRefclkRestart s).sec.fuseSvn = s.sec.fuseSvn := by
  unfold doRefclkRestart
  split
  · split <;> simp
  · rfl

theorem fuseSvn_doSaddleTimeout (s : State) : (doSaddleTimeout s).sec.fuseSvn = s.sec.fuseSvn := by
  unfold doSaddleTimeout
  dsimp only
  split
  · split <;> simp
  · rfl

theorem fuseSvn_doSetStateEffecterStates (id : Nat) (t : Temps) (s : State) :
    (doSetStateEffecterStates id t s).sec.fuseSvn = s.sec.fuseSvn := by
  unfold doSetStateEffecterStates
  split
  · rfl
  · split
    · rfl
    · dsimp only
      split <;> simp

/-! ## Mailbox requests (R639, R640) -/

section

variable {opc : Nat} {inHalter : Bool} {lenOk : Nat → Bool} {f : State → State} {s : State}

/-- A mailbox row does what its opcode does to flash and fuses, or nothing: error codes are answered by the device alone. -/
theorem mbxRow_sec_of (P : Sec → Prop) (hs : P s.sec) (hf : P (f s).sec) : P (mbxRow opc inHalter lenOk f s).sec := by
  unfold mbxRow
  split
  · exact hs
  · split
    · exact hs
    · split
      · exact hs
      · exact hf

/-- What an opcode keeps of flash and fuses, its row keeps. -/
theorem mbxRow_keeps {α : Type} (g : Sec → α) (hf : g (f s).sec = g s.sec) : g (mbxRow opc inHalter lenOk f s).sec = g s.sec :=
  mbxRow_sec_of (fun q => g q = g s.sec) rfl hf

/-- A request that its opcode may serve is served. -/
theorem mbxRow_asked {lens : Nat → Prop} (hl : ∀ n, lens n → lenOk n = true) (h : MailAsked s opc inHalter lens) :
    mbxRow opc inHalter lenOk f s = f s := by
  obtain ⟨hserved, hlen, hstage⟩ := h
  unfold mbxRow
  rw [if_neg (by simp [hserved]), if_neg (by simp [hl _ hlen]), if_neg (by obtain h | h := hstage <;> simp [h])]

end

/-! ## Commands that leave flash and fuses alone -/

/-- The command answers a next state with flash and fuses as they were. -/
def SecKept (c : Instr) (s : State) : Prop := ∃ t, exec c s = .next t ∧ t.sec = s.sec

theorem secKept_of_whole {c : Instr} {s : State} {f : State → State} (he : exec c s = updWhole s f) (hf : (f s).sec = s.sec) : SecKept c s :=
  ⟨_, he, hf⟩

theorem secKept_of_device {c : Instr} {s : State} {d : Dev} (he : exec c s = .next { s with dev := d }) : SecKept c s := ⟨_, he, rfl⟩

theorem ite_sec {p : Prop} [Decidable p] {a b s : State} (ha : a.sec = s.sec) (hb : b.sec = s.sec) : (if p then a else b).sec = s.sec := by
  split
  · exact ha
  · exact hb

/-- R723: an SPDM request changes the device alone. -/
theorem spdm_sec (s : State) (code : Nat) (ok : Bool) (f : Spdm → Spdm) (data : List Nat) : (spdm s code ok f data).sec = s.sec :=
  ite_sec rfl (ite_sec rfl rfl)

theorem doSetNumericEffecterValue_sec (id v : Nat) (s : State) : (doSetNumericEffecterValue id v s).sec = s.sec := by
  unfold doSetNumericEffecterValue
  split
  · rfl
  · split <;> rfl

/-- R727 to R733: a command that is none of `flashCommand` leaves flash and fuses alone: it is a command over the device, or a request that
the mailbox or the primary Bridle answers. -/
theorem secKept_of_not_flashCommand {c : Instr} (s : State) (h : flashCommand c = false) : SecKept c s := by
  cases c with
  | stand | refclkRestart | saddleTimeout | setStateEffecterStates | trialBootFailure | fwBegin | fwWrite | fwVerify | fwActivate | fwCommit
  | fwAbort | updateIdleExpiry | requestUpdate | updateComponent | firmwareData | cancelUpdate | activateFirmware => cases h
  | getInfo | selftest | selftestResult | stageLog | fwQuery => exact secKept_of_whole rfl (mbxRow_keeps id rfl)
  | getVersion | getCapabilities | negotiateAlgorithms | getDigests | getCertificate | challenge | getMeasurements | keyExchange | finish
  | heartbeat | keyUpdate | endSession => exact secKept_of_whole rfl (spdm_sec _ _ _ _ _)
  | debugNonce | debugDisable | getTid | getPldmVersion | getPldmTypes | getPldmCommands | getSensorReading | getStateSensorReadings
  | platformEventAck | setEventReceiver | dynamicAddressAssignment | getDeviceInterfaceReport | stopInterface =>
    exact secKept_of_whole rfl (ite_sec rfl rfl)
  | debugToken | setEndpointId | ideKm | lockInterface | startInterface =>
    exact secKept_of_whole rfl (ite_sec rfl (ite_sec (respond_sec _ _ _) (respond_sec _ _ _)))
  | managementPlaneRestart => exact secKept_of_whole rfl (ite_sec rfl (ite_sec (withSec_sec _ _) rfl))
  | setNumericEffecterValue => exact secKept_of_whole rfl (doSetNumericEffecterValue_sec _ _ _)
  | _ => exact secKept_of_device rfl

/-! ## FUSE_SVN (R730) -/

theorem updWhole_fuseSvn {s t : State} {f : State → State} (hf : (f s).sec.fuseSvn = s.sec.fuseSvn) (ht : updWhole s f = .next t) :
    t.sec.fuseSvn = s.sec.fuseSvn := by
  cases ht
  exact hf

/-- Of the commands that may change flash, COMMIT alone blows a fuse of FUSE_SVN. -/
theorem fuseSvn_flashCommand {c : Instr} {s t : State} (h : flashCommand c = true) (hc : c ≠ .fwCommit) (ht : exec c s = .next t) :
    t.sec.fuseSvn = s.sec.fuseSvn := by
  cases c with
  | fwCommit => exact absurd rfl hc
  | stand => exact updWhole_fuseSvn (fuseSvn_doStand _ s) ht
  | refclkRestart => exact updWhole_fuseSvn (fuseSvn_doRefclkRestart s) ht
  | saddleTimeout => exact updWhole_fuseSvn (fuseSvn_doSaddleTimeout s) ht
  | setStateEffecterStates => exact updWhole_fuseSvn (fuseSvn_doSetStateEffecterStates _ _ s) ht
  | trialBootFailure => exact updWhole_fuseSvn (fuseSvn_doTrialBootFailure s) ht
  | fwBegin => exact updWhole_fuseSvn (mbxRow_keeps Sec.fuseSvn (fuseSvn_fwBegin s)) ht
  | fwWrite => exact updWhole_fuseSvn (mbxRow_keeps Sec.fuseSvn (fuseSvn_fwWrite s)) ht
  | fwVerify => exact updWhole_fuseSvn (mbxRow_keeps Sec.fuseSvn (fuseSvn_fwVerify s)) ht
  | fwActivate => exact updWhole_fuseSvn (mbxRow_keeps Sec.fuseSvn (fuseSvn_fwActivate s)) ht
  | fwAbort => exact updWhole_fuseSvn (mbxRow_keeps Sec.fuseSvn (fuseSvn_fwAbort s)) ht
  | updateIdleExpiry => exact updWhole_fuseSvn (fuseSvn_doUpdateIdleExpiry s) ht
  | requestUpdate => exact updWhole_fuseSvn (fuseSvn_doRequestUpdate _ s) ht
  | updateComponent => exact updWhole_fuseSvn (fuseSvn_doUpdateComponent _ _ s) ht
  | firmwareData => exact updWhole_fuseSvn (fuseSvn_doFirmwareData _ _ s) ht
  | cancelUpdate => exact updWhole_fuseSvn (fuseSvn_doCancelUpdate s) ht
  | activateFirmware => exact updWhole_fuseSvn (fuseSvn_doActivateFirmware _ s) ht
  | _ => cases h

/-- R730: a command other than COMMIT leaves FUSE_SVN as it is. -/
theorem exec_fuseSvn {c : Instr} {s t : State} (hc : c ≠ .fwCommit) (ht : exec c s = .next t) : t.sec.fuseSvn = s.sec.fuseSvn := by
  cases h : flashCommand c with
  | false =>
    obtain ⟨t', ht', hsec⟩ := secKept_of_not_flashCommand s h
    cases ht.symm.trans ht'
    rw [hsec]
  | true => exact fuseSvn_flashCommand h hc ht

/-! ## COMMIT (R730) -/

theorem exec_fwCommit (s : State) : exec .fwCommit s = updWhole s (mbxRow 0x0035 true (fun n => n == 0) fwCommit) := rfl

theorem fwCommit_accepted {s : State} (h : commitOk s.sec = true) : fwCommit s = reply (withSec s (commit s.sec)) 0 [] := if_pos h

theorem fwCommit_refused {s : State} (h : ¬ commitOk s.sec = true) : fwCommit s = reply s 4 [] := if_neg h

theorem le_fuseSvn_fwCommit (s : State) : s.sec.fuseSvn ≤ (fwCommit s).sec.fuseSvn := by
  by_cases h : commitOk s.sec = true
  · rw [fwCommit_accepted h]
    exact Nat.le_max_left _ _
  · rw [fwCommit_refused h]
    exact Nat.le_refl _

/-- R730: COMMIT does not lower FUSE_SVN. -/
theorem exec_fwCommit_le_fuseSvn {s t : State} (ht : exec .fwCommit s = .next t) : s.sec.fuseSvn ≤ t.sec.fuseSvn := by
  rw [exec_fwCommit] at ht
  cases ht
  exact mbxRow_sec_of (fun q => s.sec.fuseSvn ≤ q.fuseSvn) (Nat.le_refl _) (le_fuseSvn_fwCommit s)

/-- A COMMIT that firmware serves is `fwCommit`. -/
theorem exec_fwCommit_asked {s t : State} (h : MailAsked s 0x0035 true (· = 0)) (ht : exec .fwCommit s = .next t) :
    t = { (fwCommit s) with pending := s.pending } := by
  rw [exec_fwCommit, updWhole, mbxRow_asked (fun n hn => by simp [hn]) h] at ht
  exact (Host.Outcome.next.inj ht).symm

/-- R730: COMMIT is accepted when both banks are valid and neither SVN is below that of the bank it acts on. -/
theorem commitOk_iff (q : Sec) :
    commitOk q = true ↔ q.bankA.valid = true ∧ q.bankB.valid = true ∧ (getBank q (commitBank q)).svn ≤ q.bankA.svn
      ∧ (getBank q (commitBank q)).svn ≤ q.bankB.svn := by
  simp only [commitOk, Bool.and_eq_true, decide_eq_true_eq, and_assoc]

theorem revokes_eq (x : Bank) : revokes x = x.revoke % 2 ^ 4 &&& 15 - (2 ^ x.bridleSlot ||| 2 ^ x.seqSlot) % 2 ^ 4 := rfl

/-- R730: of the four key slots, those that the bundle revokes are those of its REVOKE field, its own images' slots apart. -/
theorem testBit_revokes (x : Bank) {k : Nat} (hk : k < 4) :
    (revokes x).testBit k = true ↔ x.revoke.testBit k = true ∧ k ≠ x.bridleSlot ∧ k ≠ x.seqSlot := by
  have hlt : (2 ^ x.bridleSlot ||| 2 ^ x.seqSlot) % 2 ^ 4 < 2 ^ 4 := Nat.mod_lt _ (by decide)
  have hmask : 15 - (2 ^ x.bridleSlot ||| 2 ^ x.seqSlot) % 2 ^ 4 = 2 ^ 4 - ((2 ^ x.bridleSlot ||| 2 ^ x.seqSlot) % 2 ^ 4 + 1) := by omega
  rw [revokes_eq, hmask, Nat.testBit_and, Nat.testBit_two_pow_sub_succ hlt, Nat.testBit_mod_two_pow, Nat.testBit_mod_two_pow, Nat.testBit_or,
    Nat.testBit_two_pow, Nat.testBit_two_pow]
  simp [hk, eq_comm (b := k)]

/-- The revoked slots after an accepted COMMIT are those before it and those that the bundle revokes. -/
theorem testBit_slotsRevoked_commit (q : Sec) {k : Nat} (hk : k < 4) :
    (commit q).slotsRevoked.testBit k = true ↔ q.slotsRevoked.testBit k = true
      ∨ ((getBank q (commitBank q)).revoke.testBit k = true ∧ k ≠ (getBank q (commitBank q)).bridleSlot ∧ k ≠ (getBank q (commitBank q)).seqSlot) := by
  change (q.slotsRevoked ||| revokes (getBank q (commitBank q))).testBit k = true ↔ _
  rw [Nat.testBit_or, Bool.or_eq_true, testBit_revokes _ hk]

/-- R730: FUSE_SVN never falls in a step, and a step that raises it begins with a COMMIT in front. -/
theorem step_fuseSvn {s t : State} (ht : step s = .next t) :
    s.sec.fuseSvn ≤ t.sec.fuseSvn ∧ (t.sec.fuseSvn ≠ s.sec.fuseSvn → s.pending.head? = some .fwCommit) := by
  unfold step at ht
  split at ht
  next =>
    cases ht
    exact ⟨Nat.le_refl _, fun h => absurd rfl h⟩
  next c rest hp =>
    rw [hp]
    by_cases hc : c = .fwCommit
    · subst hc
      have hle := exec_fwCommit_le_fuseSvn ht
      exact ⟨hle, fun _ => rfl⟩
    · have hkept := exec_fuseSvn hc ht
      exact ⟨Nat.le_of_eq hkept.symm, fun h => absurd hkept h⟩

/-- In a safe state a bank that holds a valid bundle is not below FUSE_SVN. -/
theorem FirmwareSafe.le_svn {q : Sec} {b : Nat} (h : FirmwareSafe q) (hb : b = 1 ∨ b = 2) (hv : (getBank q b).valid = true) :
    q.fuseSvn ≤ 64 ∧ q.fuseSvn ≤ (getBank q b).svn := by
  obtain ⟨hmax, hA, hB⟩ := h
  obtain rfl | rfl := hb
  · exact ⟨hmax, (hA hv).1⟩
  · exact ⟨hmax, (hB hv).1⟩

/-- Settles O7: COMMIT alone blows a fuse of FUSE_SVN, and what it does is `commit` where `commitOk` holds and an answer where it does not. -/
theorem fuseVersionRisesByCommit : Obligations.FuseVersionRisesByCommit := by
  unfold Obligations.FuseVersionRisesByCommit
  refine ⟨fun s t => step_fuseSvn, ?_, fun s b => FirmwareSafe.le_svn⟩
  rintro s t b x hasked rfl rfl ht
  obtain rfl := exec_fwCommit_asked hasked ht
  constructor
  · intro hA hB hleA hleB
    rw [fwCommit_accepted ((commitOk_iff s.sec).mpr ⟨hA, hB, hleA, hleB⟩)]
    exact ⟨rfl, rfl, rfl, fun k => testBit_slotsRevoked_commit s.sec, rfl, rfl, rfl⟩
  · intro hrefused
    rw [fwCommit_refused (fun hok => hrefused ((commitOk_iff s.sec).mp hok))]
    exact ⟨rfl, rfl⟩

end Sys2Proof.Machine

/-! PROOF. The statements of the machine as a whole (O1 to O6, O8): what a step runs, what an empty queue does, the state after power is
applied, and what every command and every step keeps of queue, flash and fuses. -/

namespace Sys2Proof.Machine

open Sys2Proof

/-! ## One step -/

theorem step_cons {c : Instr} {rest : List Instr} {s : State} (h : s.pending = c :: rest) : step s = exec c { s with pending := rest } := by
  rw [step, h]

theorem step_nil {s : State} (h : s.pending = []) : step s = .next { s with dev := tick s.dev } := by
  simp only [step, h, idle]

/-- Settles O1. -/
theorem stepRunsFrontCommand : Obligations.StepRunsFrontCommand := by
  unfold Obligations.StepRunsFrontCommand
  exact fun c rest s h => step_cons h

/-! ## Time that passes on an empty queue (R313, R519, R675) -/

theorem passTime_noDrop {s : Dev} (h : s.ms.drop = none) : passTime s = { s with now := s.now + 1 } := by
  simp only [passTime, h]

theorem passTime_drop {s : Dev} {r : DropRun} (h : s.ms.drop = some r) :
    passTime s = dropRecords (modMs (setF { s with now := s.now + 1 } fCD_STATUS_DROP_ACTIVE 0) (fun m => { m with drop := none })) r := by
  simp only [passTime, h]

/-- With no task in progress, time that passes is the tick. -/
theorem tick_noTask {s : Dev} (h : s.todo = []) : tick s = passTime s := by
  have hs : { s with todo := [] } = s := by rw [← h]
  rw [tick, h, List.foldl_nil, hs]

/-- R521: the RESET of a slice in GROOMING ends with the slice STOPPED, and nothing else changes but time. -/
theorem tick_stop {s : Dev} {n : Nat} (h : s.todo = [.stop n]) (hd : s.ms.drop = none) (hs : slState s n = 4) :
    tick s = setF { s with now := s.now + 1, todo := [] } (fSLC_CTL_STATE n) 1 := by
  have hp : passTime { s with todo := [] } = { s with now := s.now + 1, todo := [] } := passTime_noDrop hd
  rw [tick, h, List.foldl_cons, List.foldl_nil, hp]
  exact if_pos hs

/-- Settles O2: a step of an empty queue is a tick, which is the passing of a nanosecond and then the tasks in progress, in order. -/
theorem emptyQueueIdles : Obligations.EmptyQueueIdles := by
  unfold Obligations.EmptyQueueIdles
  intro s hq
  refine ⟨step_nil hq, fun hd ht => ?_, fun r hr ht => ?_, fun n hd ht hs => ?_⟩
  · rw [step_nil hq, tick_noTask ht, passTime_noDrop hd]
  · rw [step_nil hq, tick_noTask ht, passTime_drop hr]
  · refine ⟨_, step_nil hq, ?_, ?_, fun o ho => ?_⟩
    · rw [tick_stop ht hd hs, slState, getF_setF_same _ _ _ (show 63 < 64 by decide)]
      rfl
    · rw [tick_stop ht hd hs, setF_todo]
    · rw [tick_stop ht hd hs, reg_setF_other _ _ _ _ ho]
      rfl

/-! ## The state after power is applied -/

/-- Settles O4: at reset the table of registers lists nothing, so each reads its reset value. -/
theorem resetState : Obligations.ResetState := by
  unfold Obligations.ResetState
  refine ⟨rfl, by decide, by decide, by decide, fun off => rfl, by decide, rfl, rfl, memory_wf_reset⟩

/-- Settles O5: both banks as shipped have SVN 0, and no fuse is blown. -/
theorem firmwareSafeAtReset : Obligations.FirmwareSafeAtReset := by
  unfold Obligations.FirmwareSafeAtReset FirmwareSafe
  decide


/-! ## The queue, flash and fuses under a command (R727 to R733) -/

/-- Every command is an effect on the device, or on device and firmware, and neither touches the queue. -/
theorem exec_keeps_pending (c : Instr) (s : State) : ∃ t, exec c s = .next t ∧ t.pending = s.pending := by
  cases c <;> exact ⟨_, rfl, rfl⟩

/-- Settles O3. -/
theorem queueAndFlashKept : Obligations.QueueAndFlashKept := by
  unfold Obligations.QueueAndFlashKept
  intro c s
  obtain ⟨t, ht, hq⟩ := exec_keeps_pending c s
  refine ⟨t, ht, hq, fun hc => ?_⟩
  obtain ⟨t', ht', hsec⟩ := secKept_of_not_flashCommand s hc
  cases ht.symm.trans ht'
  exact hsec

/-! ## Safe flash and fuses (R730): what each operation of the firmware keeps -/

/-- What R730 asks of one bank: one that holds a valid bundle has an SVN from FUSE_SVN to 64. -/
def BankSafe (fuse : Nat) (x : Bank) : Prop := x.valid = true → fuse ≤ x.svn ∧ x.svn ≤ 64

theorem firmwareSafe_iff (q : Sec) : FirmwareSafe q ↔ q.fuseSvn ≤ 64 ∧ BankSafe q.fuseSvn q.bankA ∧ BankSafe q.fuseSvn q.bankB := Iff.rfl

/-- A bank without a valid bundle is safe. -/
theorem bankSafe_invalid (fuse : Nat) {x : Bank} (h : x.valid = false) : BankSafe fuse x := fun hv => absurd (h.symm.trans hv) (by decide)

section

variable {q : Sec} (hq : FirmwareSafe q)
include hq

/-- The boot record, the slot fuses and the update in progress are not part of what is safe. -/
theorem firmwareSafe_congr {r : Sec} (hf : r.fuseSvn = q.fuseSvn) (hA : r.bankA = q.bankA) (hB : r.bankB = q.bankB) : FirmwareSafe r := by
  rw [firmwareSafe_iff, hf, hA, hB]
  exact hq

/-- A safe bank in place of another keeps flash and fuses safe. -/
theorem firmwareSafe_setBank (b : Nat) {x : Bank} (hx : BankSafe q.fuseSvn x) : FirmwareSafe (setBank q b x) := by
  obtain ⟨h64, hA, hB⟩ := hq
  unfold setBank
  split
  · exact ⟨h64, hx, hB⟩
  · split
    · exact ⟨h64, hA, hx⟩
    · exact ⟨h64, hA, hB⟩

theorem firmwareSafe_beginUpdate (path len now : Nat) : FirmwareSafe (beginUpdate q path len now) :=
  firmwareSafe_setBank hq _ (bankSafe_invalid _ rfl)

theorem firmwareSafe_writeUpdate (u : Update) (o : Nat) (data : List Byte) (now : Nat) : FirmwareSafe (writeUpdate q u o data now) :=
  firmwareSafe_setBank hq _ (bankSafe_invalid _ rfl)

theorem firmwareSafe_dropUpdate : FirmwareSafe (dropUpdate q) := firmwareSafe_setBank hq _ (bankSafe_invalid _ rfl)

omit hq in
/-- R727: a bundle that passes its check has the SVN of valid images, from FUSE_SVN to 64. -/
theorem bankSafe_checkBundle {x y : Bank} {len : Nat} (h : checkBundle q x len = some y) : BankSafe q.fuseSvn y := by
  unfold checkBundle at h
  dsimp only at h
  split at h
  next hc =>
    cases h
    simp only [Bool.and_eq_true, imageValid, decide_eq_true_eq] at hc
    intro _
    dsimp only
    omega
  next => cases h

theorem firmwareSafe_verifyUpdate (u : Update) (now : Nat) : FirmwareSafe (verifyUpdate q u now).1 := by
  unfold verifyUpdate
  split
  next x hx => exact firmwareSafe_setBank hq _ (bankSafe_checkBundle hx)
  next => exact hq

/-- R730: the new FUSE_SVN of an accepted COMMIT is not above the SVN of either bank, and both are valid. -/
theorem firmwareSafe_commit (h : commitOk q = true) : FirmwareSafe (commit q) := by
  obtain ⟨h64, hA, hB⟩ := hq
  obtain ⟨hvA, hvB, hleA, hleB⟩ := (commitOk_iff q).mp h
  obtain ⟨hfA, hA64⟩ := hA hvA
  obtain ⟨hfB, hB64⟩ := hB hvB
  refine ⟨?_, fun _ => ⟨?_, hA64⟩, fun _ => ⟨?_, hB64⟩⟩
  · exact Nat.max_le.mpr ⟨h64, Nat.le_trans hleA hA64⟩
  · exact Nat.max_le.mpr ⟨hfA, hleA⟩
  · exact Nat.max_le.mpr ⟨hfB, hleB⟩

end

/-! ## Safe flash and fuses under the commands that may change them -/

section

variable {s : State} (hs : FirmwareSafe s.sec)
include hs

theorem firmwareSafe_activate : FirmwareSafe (activate s).sec :=
  firmwareSafe_congr hs (by simp [activate]) (by simp [activate]) (by simp [activate])

theorem firmwareSafe_standUp (modId : Nat) : FirmwareSafe (standUp s modId).sec :=
  firmwareSafe_congr hs (by simp [standUp]) (by simp [standUp]) (by simp [standUp])

theorem firmwareSafe_bootFails : FirmwareSafe (bootFails s).sec := by
  unfold bootFails
  dsimp only
  split <;> exact firmwareSafe_congr hs (by simp) (by simp) (by simp)

theorem firmwareSafe_fwBegin : FirmwareSafe (fwBegin s).sec := by
  unfold fwBegin
  dsimp only
  split
  · exact hs
  · split
    · exact hs
    · exact firmwareSafe_beginUpdate hs _ _ _

theorem firmwareSafe_fwWrite : FirmwareSafe (fwWrite s).sec := by
  unfold fwWrite
  split
  · dsimp only
    split
    · exact hs
    · split
      · exact hs
      · exact firmwareSafe_writeUpdate hs _ _ _ _
  · exact hs

theorem firmwareSafe_fwVerify : FirmwareSafe (fwVerify s).sec := by
  unfold fwVerify
  split
  · split
    · exact hs
    · exact firmwareSafe_verifyUpdate hs _ _
  · exact hs

theorem firmwareSafe_fwActivate : FirmwareSafe (fwActivate s).sec := by
  unfold fwActivate
  split
  · split
    · exact firmwareSafe_activate hs
    · exact hs
  · exact hs

theorem firmwareSafe_fwCommit : FirmwareSafe (fwCommit s).sec := by
  by_cases h : commitOk s.sec = true
  · rw [fwCommit_accepted h]
    exact firmwareSafe_commit hs h
  · rw [fwCommit_refused h]
    exact hs

theorem firmwareSafe_fwAbort : FirmwareSafe (fwAbort s).sec := by
  unfold fwAbort
  split
  · split
    · exact firmwareSafe_dropUpdate hs
    · exact hs
  · exact firmwareSafe_dropUpdate hs

theorem firmwareSafe_doUpdateIdleExpiry : FirmwareSafe (doUpdateIdleExpiry s).sec := by
  unfold doUpdateIdleExpiry
  split
  · exact firmwareSafe_dropUpdate hs
  · exact hs

theorem firmwareSafe_doTrialBootFailure : FirmwareSafe (doTrialBootFailure s).sec := by
  unfold doTrialBootFailure
  split
  · exact firmwareSafe_bootFails hs
  · exact hs

theorem firmwareSafe_doRequestUpdate (len : Nat) : FirmwareSafe (doRequestUpdate len s).sec := by
  unfold doRequestUpdate
  split
  · exact hs
  · split
    · exact hs
    · split
      · exact hs
      · exact firmwareSafe_beginUpdate hs _ _ _

theorem firmwareSafe_doUpdateComponent (comp size : Nat) : FirmwareSafe (doUpdateComponent comp size s).sec := by
  unfold doUpdateComponent
  split
  · dsimp only
    split
    · exact hs
    · split <;> split <;> exact firmwareSafe_congr hs (by simp) (by simp) (by simp)
  · split <;> exact hs

theorem firmwareSafe_doFirmwareData (o : Nat) (data : List Byte) : FirmwareSafe (doFirmwareData o data s).sec := by
  unfold doFirmwareData
  split
  · split
    · exact hs
    · exact firmwareSafe_writeUpdate hs _ _ _ _
  · exact hs

theorem firmwareSafe_doCancelUpdate : FirmwareSafe (doCancelUpdate s).sec := by
  unfold doCancelUpdate
  split
  · exact hs
  · split
    · split
      · exact firmwareSafe_dropUpdate hs
      · exact hs
    · exact hs

/-- ActivateFirmware goes on with flash as it is where the bundle has been verified, and with what the check of the bundle leaves. -/
theorem firmwareSafe_doActivateFirmware (selfContained : Bool) : FirmwareSafe (doActivateFirmware selfContained s).sec := by
  unfold doActivateFirmware
  split
  · exact hs
  · split
    · exact hs
    · split
      next u _ =>
        split
        · exact hs
        · have hq : FirmwareSafe (if u.verified = true then (s.sec, true) else verifyUpdate s.sec u s.dev.now).1 := by
            split
            · exact hs
            · exact firmwareSafe_verifyUpdate hs u _
          revert hq
          generalize (if u.verified = true then (s.sec, true) else verifyUpdate s.sec u s.dev.now) = r
          intro hq
          dsimp only
          split
          · exact firmwareSafe_activate (s := respond (withSec s r.1) 233 [0]) hq
          · exact hq
      next => exact hs

theorem firmwareSafe_doStand (modId : Nat) : FirmwareSafe (doStand modId s).sec := by
  unfold doStand
  split
  · exact firmwareSafe_standUp hs _
  · exact hs

theorem firmwareSafe_doRefclkRestart : FirmwareSafe (doRefclkRestart s).sec := by
  unfold doRefclkRestart
  split
  · split
    · exact firmwareSafe_standUp hs _
    · exact hs
  · exact hs

theorem firmwareSafe_doSaddleTimeout : FirmwareSafe (doSaddleTimeout s).sec := by
  unfold doSaddleTimeout
  dsimp only
  split
  · split
    · exact firmwareSafe_bootFails (s := { s with dev := _ }) hs
    · exact hs
  · exact hs

theorem firmwareSafe_doSetStateEffecterStates (id : Nat) (t : Temps) : FirmwareSafe (doSetStateEffecterStates id t s).sec := by
  unfold doSetStateEffecterStates
  split
  · exact hs
  · split
    · exact hs
    · dsimp only
      split
      · exact firmwareSafe_standUp (firmwareSafe_congr hs (by simp) (by simp) (by simp)) _
      · exact firmwareSafe_congr hs (by simp) (by simp) (by simp)

omit hs in
theorem firmwareSafe_updWhole {t : State} {f : State → State} (hf : FirmwareSafe (f s).sec) (ht : updWhole s f = .next t) : FirmwareSafe t.sec := by
  cases ht
  exact hf

/-- R730: each command that may change flash or fuses is one of the operations above. -/
theorem firmwareSafe_flashCommand {c : Instr} {t : State} (h : flashCommand c = true) (ht : exec c s = .next t) : FirmwareSafe t.sec := by
  cases c with
  | stand => exact firmwareSafe_updWhole (firmwareSafe_doStand hs _) ht
  | refclkRestart => exact firmwareSafe_updWhole (firmwareSafe_doRefclkRestart hs) ht
  | saddleTimeout => exact firmwareSafe_updWhole (firmwareSafe_doSaddleTimeout hs) ht
  | setStateEffecterStates => exact firmwareSafe_updWhole (firmwareSafe_doSetStateEffecterStates hs _ _) ht
  | trialBootFailure => exact firmwareSafe_updWhole (firmwareSafe_doTrialBootFailure hs) ht
  | fwBegin => exact firmwareSafe_updWhole (mbxRow_sec_of FirmwareSafe hs (firmwareSafe_fwBegin hs)) ht
  | fwWrite => exact firmwareSafe_updWhole (mbxRow_sec_of FirmwareSafe hs (firmwareSafe_fwWrite hs)) ht
  | fwVerify => exact firmwareSafe_updWhole (mbxRow_sec_of FirmwareSafe hs (firmwareSafe_fwVerify hs)) ht
  | fwActivate => exact firmwareSafe_updWhole (mbxRow_sec_of FirmwareSafe hs (firmwareSafe_fwActivate hs)) ht
  | fwCommit => exact firmwareSafe_updWhole (mbxRow_sec_of FirmwareSafe hs (firmwareSafe_fwCommit hs)) ht
  | fwAbort => exact firmwareSafe_updWhole (mbxRow_sec_of FirmwareSafe hs (firmwareSafe_fwAbort hs)) ht
  | updateIdleExpiry => exact firmwareSafe_updWhole (firmwareSafe_doUpdateIdleExpiry hs) ht
  | requestUpdate => exact firmwareSafe_updWhole (firmwareSafe_doRequestUpdate hs _) ht
  | updateComponent => exact firmwareSafe_updWhole (firmwareSafe_doUpdateComponent hs _ _) ht
  | firmwareData => exact firmwareSafe_updWhole (firmwareSafe_doFirmwareData hs _ _) ht
  | cancelUpdate => exact firmwareSafe_updWhole (firmwareSafe_doCancelUpdate hs) ht
  | activateFirmware => exact firmwareSafe_updWhole (firmwareSafe_doActivateFirmware hs _) ht
  | _ => cases h

/-- R730: every command keeps flash and fuses safe: most leave them alone. -/
theorem firmwareSafe_exec {c : Instr} {t : State} (ht : exec c s = .next t) : FirmwareSafe t.sec := by
  cases h : flashCommand c with
  | true => exact firmwareSafe_flashCommand hs h ht
  | false =>
    obtain ⟨t', ht', hsec⟩ := secKept_of_not_flashCommand s h
    cases ht.symm.trans ht'
    rw [hsec]
    exact hs

end

/-- Settles O6: an idle step leaves flash and fuses alone, and so safe; any other step is a command. -/
theorem firmwareSafeKept : Obligations.FirmwareSafeKept := by
  unfold Obligations.FirmwareSafeKept
  intro s t hs ht
  cases hp : s.pending with
  | nil =>
    cases (step_nil hp).symm.trans ht
    exact hs
  | cons c rest => exact firmwareSafe_exec (s := { s with pending := rest }) hs ((step_cons hp).symm.trans ht)

end Sys2Proof.Machine

/-! PROOF. The statement of 01_organization.md (O8): a restart of the management plane leaves the data and control planes as they were. -/

namespace Sys2Proof.Machine

open Sys2Proof

/-! ## Events of the primary Bridle (R724, R781) -/

/-- `d` is `s` but for the state of management, what has been sent, and SU_PINS. -/
def EventsOnly (s d : Dev) : Prop :=
  (∃ r m o, d = { s with regs := r, mg := m, out := o }) ∧ ∀ off, off ≠ offSU_PINS → reg d off = reg s off

theorem eventsOnly_refl (s : Dev) : EventsOnly s s := ⟨⟨_, _, _, rfl⟩, fun _ _ => rfl⟩

/-- A message of the primary Bridle only goes out. -/
theorem eventsOnly_mgmtOut {s d : Dev} (kind : Nat) (data : List Nat) (h : EventsOnly s d) : EventsOnly s (mgmtOut d kind data) := by
  obtain ⟨⟨r, m, o, rfl⟩, hreg⟩ := h
  exact ⟨⟨_, _, _, rfl⟩, hreg⟩

/-- An event is queued with ALERT_N asserted. -/
theorem eventsOnly_alert {s d : Dev} (m : Mgmt) (h : EventsOnly s d) : EventsOnly s (setF { d with mg := m } fSU_PINS_ALERT 1) := by
  obtain ⟨⟨r, m, o, rfl⟩, hreg⟩ := h
  exact ⟨⟨_, _, _, rfl⟩, fun off ho => (reg_setF_other _ _ _ _ ho).trans (hreg off ho)⟩

theorem eventsOnly_foldl {β : Type} {f : Dev → β → Dev} {s : Dev} (hf : ∀ d b, EventsOnly s d → EventsOnly s (f d b)) (l : List β) :
    ∀ d, EventsOnly s d → EventsOnly s (l.foldl f d) := by
  induction l with
  | nil => exact fun d h => h
  | cons b l ih => exact fun d h => ih _ (hf d b h)

theorem eventsOnly_pushEvents (s : Dev) : EventsOnly s (pushEvents s) := by
  unfold pushEvents
  split
  · exact eventsOnly_refl s
  · refine eventsOnly_foldl (fun d e h => ?_) _ s (eventsOnly_refl s)
    dsimp only
    split
    · exact h
    · split
      · exact eventsOnly_mgmtOut _ _ (eventsOnly_alert _ h)
      · exact eventsOnly_alert _ h

/-! ## The restart (R54, R56) -/

/-- What R56 asks of a restart of the management plane: of the device only the Bridles' own state, SU_FW, the pins and what is sent change. -/
def PlanesKept (s d : Dev) : Prop :=
  (∃ r b m o, d = { s with regs := r, bridle := b, mg := m, out := o }) ∧ ∀ off, off ≠ offSU_FW → off ≠ offSU_PINS → reg d off = reg s off

theorem planesKept_bridleUp (s : Dev) : PlanesKept s (bridleUp s) := by
  obtain ⟨b, hb⟩ : ∃ b, bridleUp s = pushEvents { s with bridle := b } := ⟨_, rfl⟩
  obtain ⟨⟨r, m, o, h⟩, hreg⟩ := eventsOnly_pushEvents { s with bridle := b }
  rw [hb]
  exact ⟨⟨r, b, m, o, h⟩, fun off _ ho => hreg off ho⟩

theorem planesKept_bridleDown (s : Dev) : PlanesKept s (bridleDown s) := ⟨⟨_, _, _, _, rfl⟩, fun _ _ _ => rfl⟩

/-- Flash and fuses are shown in SU_FW alone (R738). -/
theorem planesKept_showFw {s d : Dev} (q : Sec) (h : PlanesKept s d) : PlanesKept s (showFw q d) := by
  obtain ⟨⟨r, b, m, o, rfl⟩, hreg⟩ := h
  exact ⟨⟨_, _, _, _, rfl⟩, fun off hf hp => (reg_setReg_other _ _ _ _ hf).trans (hreg off hf hp)⟩

theorem withSec_dev (s : State) (q : Sec) : (withSec s q).dev = showFw q s.dev := rfl

theorem planesKept_refl (s : Dev) : PlanesKept s s := ⟨⟨_, _, _, _, rfl⟩, fun _ _ _ => rfl⟩

/-- A restart of the management plane, down or up, leaves flash and fuses and the other planes as they were. -/
theorem managementPlaneRestart_planesKept (up : Bool) (s : State) :
    (doManagementPlaneRestart up s).sec = s.sec ∧ PlanesKept s.dev (doManagementPlaneRestart up s).dev := by
  unfold doManagementPlaneRestart
  split
  · exact ⟨rfl, planesKept_refl _⟩
  · split
    · rw [withSec_sec, withSec_dev]
      refine ⟨rfl, ?_⟩
      dsimp only
      apply planesKept_showFw
      exact planesKept_bridleUp s.dev
    · exact ⟨rfl, planesKept_bridleDown s.dev⟩

theorem exec_managementPlaneRestart (up : Bool) (s : State) : exec (.managementPlaneRestart up) s = updWhole s (doManagementPlaneRestart up) := rfl

/-- Settles O8. -/
theorem bridleRestartLeavesOtherPlanes : Obligations.BridleRestartLeavesOtherPlanes := by
  unfold Obligations.BridleRestartLeavesOtherPlanes
  intro s t up ht
  rw [exec_managementPlaneRestart] at ht
  obtain ⟨hsec, ⟨r, b, m, o, hd⟩, hreg⟩ := managementPlaneRestart_planesKept up s
  cases ht
  refine ⟨hsec, rfl, ?_⟩
  dsimp only
  refine ⟨?_, ?_, ?_, ?_, ?_, ?_, ?_, ?_, ?_, ?_, ?_, ?_, ?_, ?_, ?_, ?_, ?_, ?_, hreg⟩ <;> rw [hd]

end Sys2Proof.Machine

/-! PROOF. The arithmetic statements of 04_cores.md (O16, O17, O36, O37): where the arithmetic instructions complete, and what each changes and
leaves alone. -/

namespace Sys2Proof.Machine

open Sys2Proof

/-! ## Completion (R152, R155, R157) -/

/-- The command `c` is one arithmetic instruction: issue event `code`, the registers `vs` and `ss` that it names, and its operation. -/
def IsArith (c : IWord → Instr) (code : Nat) (vs ss : IWord → List Nat) (op : Dev → Group → IWord → Option ArithRes) : Prop :=
  ∀ (iw : IWord) (s : State), exec (c iw) s = upd s (fun d => issueArith d iw code (vs iw) (ss iw) (fun g => op d g iw))

section

variable {c : IWord → Instr} {code : Nat} {vs ss : IWord → List Nat} {op : Dev → Group → IWord → Option ArithRes}

theorem IsArith.completes (h : IsArith c code vs ss op) : ArithCompletes c code vs ss op := by
  intro s iw g r hi hr
  rw [Completes, h iw s, upd_next, issueArith_legal code hi hr]

end

theorem isArith_salu : IsArith .salu 4 (fun _ => []) (fun iw => [sSD iw, sSA iw, sSB iw]) (fun _ g iw => opSalu g iw) := fun _ _ => rfl
theorem isArith_scmp : IsArith .scmp 4 (fun _ => []) (fun iw => [sSD iw, sSA iw, sSB iw]) (fun _ g iw => opScmp g iw) := fun _ _ => rfl
theorem isArith_salui : IsArith .salui 4 (fun _ => []) (fun iw => [sSD iw, sSA iw]) (fun _ g iw => opSalui g iw) := fun _ _ => rfl
theorem isArith_scmpi : IsArith .scmpi 4 (fun _ => []) (fun iw => [sSD iw, sSA iw]) (fun _ g iw => opScmpi g iw) := fun _ _ => rfl
theorem isArith_mov : IsArith .mov 4 (fun _ => []) (fun iw => [sSD iw, sSA iw]) (fun _ g iw => opMov g iw) := fun _ _ => rfl
theorem isArith_movi : IsArith .movi 4 (fun _ => []) (fun iw => [sSD iw]) (fun _ g iw => opMovi g iw) := fun _ _ => rfl
theorem isArith_movhi : IsArith .movhi 4 (fun _ => []) (fun iw => [sSD iw, sSA iw]) (fun _ g iw => opMovhi g iw) := fun _ _ => rfl
theorem isArith_movsr : IsArith .movsr 4 (fun _ => []) (fun iw => [sSD iw]) (fun s g iw => opMovsr (timeBase s) (flagsOf s iw) g iw) := fun _ _ => rfl
theorem isArith_p2s : IsArith .p2s 4 (fun _ => []) (fun iw => [sSD iw]) (fun _ g iw => opP2s g iw) := fun _ _ => rfl
theorem isArith_vread : IsArith .vread 4 (fun iw => [sMOD iw % 256]) (fun iw => [sSD iw]) (fun _ g iw => opVread g iw) := fun _ _ => rfl
theorem isArith_valu : IsArith .valu 2 (fun iw => usesVR iw 1 1 1 1) (fun _ => []) (fun _ g iw => opValu g iw) := fun _ _ => rfl
theorem isArith_valu64 : IsArith .valu64 2 (fun iw => usesVR iw 2 2 2 0) (fun _ => []) (fun _ g iw => opValu64 g iw) := fun _ _ => rfl
theorem isArith_valui : IsArith .valui 2 (fun iw => usesVR iw 1 1 0 0) (fun _ => []) (fun _ g iw => opValui g iw) := fun _ _ => rfl
theorem isArith_falu : IsArith .falu 2 (fun iw => usesVR iw 1 1 1 1) (fun _ => []) (fun _ g iw => opFalu g iw) := fun _ _ => rfl
theorem isArith_falui : IsArith .falui 2 (fun iw => usesVR iw 1 1 0 0) (fun _ => []) (fun _ g iw => opFalui g iw) := fun _ _ => rfl
theorem isArith_dalu : IsArith .dalu 2 (fun iw => usesVR iw 2 2 2 2) (fun _ => []) (fun _ g iw => opDalu g iw) := fun _ _ => rfl
theorem isArith_halu : IsArith .halu 2 (fun iw => usesVR iw 1 1 1 1) (fun _ => []) (fun _ g iw => opHalu g iw) := fun _ _ => rfl
theorem isArith_cvt : IsArith .cvt 2 (fun iw => usesVR iw 1 1 1 1) (fun _ => []) (fun s g iw => opCvt (seedOf s iw) g iw) := fun _ _ => rfl
theorem isArith_cvtd : IsArith .cvtd 2 (fun iw => usesVR iw 1 2 1 1) (fun _ => []) (fun s g iw => opCvtd (seedOf s iw) g iw) := fun _ _ => rfl
theorem isArith_cvt2d : IsArith .cvt2d 2 (fun iw => usesVR iw 2 1 0 0) (fun _ => []) (fun _ g iw => opCvt2d g iw) := fun _ _ => rfl
theorem isArith_fcmp : IsArith .fcmp 2 (fun iw => usesVR iw 0 1 1 0) (fun _ => []) (fun _ g iw => opFcmp g iw) := fun _ _ => rfl
theorem isArith_icmp : IsArith .icmp 2 (fun iw => usesVR iw 0 1 1 0) (fun _ => []) (fun _ g iw => opIcmp g iw) := fun _ _ => rfl
theorem isArith_dcmp : IsArith .dcmp 2 (fun iw => usesVR iw 0 2 2 0) (fun _ => []) (fun _ g iw => opDcmp g iw) := fun _ _ => rfl
theorem isArith_sel : IsArith .sel 2 (fun iw => usesVR iw 1 1 1 0) (fun _ => []) (fun _ g iw => opSel g iw) := fun _ _ => rfl
theorem isArith_plog : IsArith .plog 2 (fun _ => []) (fun _ => []) (fun _ g iw => opPlog g iw) := fun _ _ => rfl
theorem isArith_shfl : IsArith .shfl 2 (fun iw => usesVR iw 1 1 1 0) (fun _ => []) (fun _ g iw => opShfl g iw) := fun _ _ => rfl
theorem isArith_bcast : IsArith .bcast 2 (fun iw => usesVR iw 1 1 0 0) (fun _ => []) (fun _ g iw => opBcast g iw) := fun _ _ => rfl
theorem isArith_vote : IsArith .vote 2 (fun _ => []) (fun iw => [iVD iw % 64]) (fun _ g iw => opVote g iw) := fun _ _ => rfl

/-- Settles O36: each row is one arithmetic instruction. -/
theorem scalarArithmeticCompletes : Obligations.ScalarArithmeticCompletes := by
  unfold Obligations.ScalarArithmeticCompletes
  exact ⟨isArith_salu.completes, isArith_scmp.completes, isArith_salui.completes, isArith_scmpi.completes, isArith_mov.completes, isArith_movi.completes,
    isArith_movhi.completes, isArith_movsr.completes, isArith_p2s.completes, isArith_vread.completes⟩

/-- Settles O37, as O36. -/
theorem vectorArithmeticCompletes : Obligations.VectorArithmeticCompletes := by
  unfold Obligations.VectorArithmeticCompletes
  exact ⟨isArith_valu.completes, isArith_valu64.completes, isArith_valui.completes, isArith_falu.completes, isArith_falui.completes, isArith_dalu.completes,
    isArith_halu.completes, isArith_cvt.completes, isArith_cvtd.completes, isArith_cvt2d.completes, isArith_fcmp.completes, isArith_icmp.completes,
    isArith_dcmp.completes, isArith_sel.completes, isArith_plog.completes, isArith_shfl.completes, isArith_bcast.completes, isArith_vote.completes⟩

/-! ## What an arithmetic instruction leaves of the device -/

/-- `h` is `g` but for its register files. -/
def RegistersOnly (g h : Group) : Prop := { h with v := g.v, vp := g.vp, sr := g.sr, sp := g.sp, p := g.p, pp := g.pp } = g

theorem RegistersOnly.pc {g h : Group} (hr : RegistersOnly g h) : h.pc = g.pc := by
  unfold RegistersOnly at hr
  rw [← hr]

/-- Of the device `d` only cores and commands may differ from `s`: groups of other slots, local memories and store buffers do not. -/
def CoreOnly (s d : Dev) (core slot : Nat) : Prop :=
  (∃ cs cm, d = { s with cores := cs, cmds := cm })
    ∧ (∀ c k, ¬(c = core ∧ k = slot) → getGroup d c k = getGroup s c k)
    ∧ ∀ c, (getCore d c).lm = (getCore s c).lm ∧ (getCore d c).sb = (getCore s c).sb

section

variable {s d : Dev} {core slot : Nat}

theorem coreOnly_refl (s : Dev) (core slot : Nat) : CoreOnly s s core slot := ⟨⟨_, _, rfl⟩, fun _ _ _ => rfl, fun _ => ⟨rfl, rfl⟩⟩

/-- Marks on a command are outside the cores. -/
theorem coreOnly_modCmd (k : Nat) (f : Cmd → Cmd) (h : CoreOnly s d core slot) : CoreOnly s (modCmd d k f) core slot := by
  obtain ⟨⟨cs, cm, rfl⟩, hg, hc⟩ := h
  exact ⟨⟨_, _, rfl⟩, hg, hc⟩

/-- An update of a core that keeps local memory, store buffer and all groups but one. -/
theorem coreOnly_modCore (n : Nat) {f : Core → Core} (hlm : ∀ x, (f x).lm = x.lm) (hsb : ∀ x, (f x).sb = x.sb)
    (hf : ∀ x k, ¬(n = core ∧ k = slot) → tabGet (fun _ => none) (f x).groups k = tabGet (fun _ => none) x.groups k) (h : CoreOnly s d core slot) :
    CoreOnly s (modCore d n f) core slot := by
  obtain ⟨⟨cs, cm, rfl⟩, hg, hc⟩ := h
  refine ⟨⟨_, _, rfl⟩, fun c k hck => ?_, fun c => ?_⟩
  · rw [← hg c k hck]
    by_cases hcn : c = n
    · subst hcn
      rw [getGroup, getCore_modCore_same, hf _ _ hck, getGroup]
    · rw [getGroup, getCore_modCore_other _ _ _ _ hcn, getGroup]
  · rw [← (hc c).1, ← (hc c).2]
    by_cases hcn : c = n
    · subst hcn
      rw [getCore_modCore_same, hlm, hsb]
      exact ⟨rfl, rfl⟩
    · rw [getCore_modCore_other _ _ _ _ hcn]
      exact ⟨rfl, rfl⟩

theorem coreOnly_putGroup (iw : IWord) (g : Group) (h : CoreOnly s d iw.core iw.slot) : CoreOnly s (putGroup d iw g) iw.core iw.slot := by
  unfold putGroup setGroup
  refine coreOnly_modCore _ (fun _ => rfl) (fun _ => rfl) (fun x k hk => ?_) h
  exact tabGet_tabSet_other (fun _ => (none : Option Group)) x.groups (some g) (fun hs => hk ⟨rfl, hs⟩)

theorem coreOnly_countCore (c code n : Nat) (h : CoreOnly s d core slot) : CoreOnly s (countCore d c code n) core slot := by
  unfold countCore
  split
  · exact h
  · dsimp only
    split
    · exact h
    · exact coreOnly_modCore _ (fun _ => rfl) (fun _ => rfl) (fun _ _ _ => rfl) h

theorem coreOnly_countIssue (iw : IWord) (code : Nat) (g : Group) (h : CoreOnly s d core slot) : CoreOnly s (countIssue d iw code g) core slot := by
  unfold countIssue
  split
  · split
    · exact h
    · exact coreOnly_countCore _ _ _ h
  · exact coreOnly_countCore _ _ _ h

theorem coreOnly_arithEffect (iw : IWord) (g : Group) (r : ArithRes) : CoreOnly s (arithEffect s iw g r) iw.core iw.slot := by
  have hput := coreOnly_putGroup iw r.g.next (coreOnly_refl s iw.core iw.slot)
  unfold arithEffect
  dsimp only
  split <;> split
  · exact coreOnly_modCmd _ _ hput
  · exact coreOnly_modCmd _ _ (coreOnly_modCmd _ _ hput)
  · exact hput
  · exact coreOnly_modCmd _ _ hput

end

/-- A legal arithmetic instruction whose operation changes register files alone leaves alone what `ArithKeeps` names. -/
theorem arithKeeps_of_registersOnly {c : IWord → Instr} {code : Nat} {vs ss : IWord → List Nat} {op : Dev → Group → IWord → Option ArithRes}
    (hc : IsArith c code vs ss op) {s t : State} {iw : IWord} {g : Group} {r : ArithRes} (hi : Issues s.dev iw (vs iw) (ss iw) g)
    (hr : op s.dev g iw = some r) (hg : RegistersOnly g r.g) (ht : exec (c iw) s = .next t) : ArithKeeps s t iw g r.g.next := by
  cases ht.symm.trans (hc.completes s iw g r hi hr)
  obtain ⟨⟨cs, cm, hd⟩, hgroups, hcores⟩ := coreOnly_countIssue iw code g (coreOnly_arithEffect (s := s.dev) iw g r)
  have hput : getGroup (countIssue (arithEffect s.dev iw g r) iw code g) iw.core iw.slot = some r.g.next := by
    rw [getGroup_countIssue, getGroup_arithEffect]
  have hpc : r.g.pc = g.pc := hg.pc
  refine ⟨rfl, rfl, ?_, ?_, ?_, ?_, ?_, ?_, ?_, ?_, hgroups, hcores, hput, ?_, ?_⟩
  iterate 8 exact (by dsimp only; rw [hd])
  · rw [← hpc]
    rfl
  · rw [← hpc]
    exact hg

/-! ## The registers a result is written to (R144, R147, R154) -/

theorem getS_setS_other (g : Group) {m n : Nat} (w : Word) (p : Bool) (h : n ≠ m) :
    getS (setS g m w p) n = getS g n ∧ getSP (setS g m w p) n = getSP g n :=
  ⟨tabGet_tabSet_other _ _ _ h, tabGet_tabSet_other _ _ _ h⟩

/-- R147: a lane of a vector register that is not the one written reads as before, and vz always. -/
theorem getV_setV_other (g : Group) {r l r' l' : Nat} (w : BitVec 32) (p : Bool) (hl : l < 32) (hl' : l' < 32) (h : r' ≠ r ∨ r' = 255 ∨ l' ≠ l) :
    getV (setV g r l w p) r' l' = getV g r' l' ∧ getVP (setV g r l w p) r' l' = getVP g r' l' := by
  by_cases hr : r = 255
  · simp [setV, hr]
  · by_cases hz : r' = 255
    · simp [getV, getVP, hz]
    · have hk : 32 * r' + l' ≠ 32 * r + l := by omega
      simp [getV, getVP, setV, hr, hz, tabGet_tabSet_other _ _ _ hk]

theorem registersOnly_setV {g h : Group} (r l : Nat) (w : BitVec 32) (p : Bool) (hg : RegistersOnly g h) : RegistersOnly g (setV h r l w p) := by
  unfold setV
  split
  · exact hg
  · exact hg

theorem scalars_predicates_setV (h : Group) (r l : Nat) (w : BitVec 32) (p : Bool) :
    ScalarsKept h (setV h r l w p) ∧ PredicatesKept h (setV h r l w p) := by
  unfold setV
  split <;> exact ⟨⟨rfl, rfl⟩, rfl, rfl⟩

/-- A group after writes of vector registers alone: `W r l` names the lanes that may differ. -/
structure VectorsOnly (g h : Group) (W : Nat → Nat → Prop) : Prop where
  registers : RegistersOnly g h
  scalars : ScalarsKept g h
  predicates : PredicatesKept g h
  lanes : ∀ r l, l < 32 → ¬W r l → getV h r l = getV g r l ∧ getVP h r l = getVP g r l

theorem vectorsOnly_refl (g : Group) (W : Nat → Nat → Prop) : VectorsOnly g g W := ⟨rfl, ⟨rfl, rfl⟩, ⟨rfl, rfl⟩, fun _ _ _ _ => ⟨rfl, rfl⟩⟩

theorem VectorsOnly.setV {g h : Group} {W : Nat → Nat → Prop} (hv : VectorsOnly g h W) {r l : Nat} (w : BitVec 32) (p : Bool) (hl : l < 32)
    (hW : r = 255 ∨ W r l) : VectorsOnly g (Machine.setV h r l w p) W := by
  obtain ⟨hsc, hpr⟩ := scalars_predicates_setV h r l w p
  refine ⟨registersOnly_setV r l w p hv.registers, ⟨hsc.1.trans hv.scalars.1, hsc.2.trans hv.scalars.2⟩,
    ⟨hpr.1.trans hv.predicates.1, hpr.2.trans hv.predicates.2⟩, fun r' l' hl' hn => ?_⟩
  have hother : r' ≠ r ∨ r' = 255 ∨ l' ≠ l := by
    by_contra hcon
    push Not at hcon
    obtain ⟨rfl, hz, rfl⟩ := hcon
    exact hW.elim hz hn
  obtain ⟨h1, h2⟩ := getV_setV_other h w p hl hl' hother
  obtain ⟨h3, h4⟩ := hv.lanes r' l' hl' hn
  exact ⟨h1.trans h3, h2.trans h4⟩

theorem VectorsOnly.setVn {g : Group} {W : Nat → Nat → Prop} {l : Nat} (p : Bool) (hl : l < 32) (n : Nat) :
    ∀ (h : Group) (r w : Nat), VectorsOnly g h W → (∀ r', r ≤ r' → r' < r + n → W r' l) → VectorsOnly g (Machine.setVn h r l p n w) W := by
  induction n with
  | zero => exact fun h r w hv _ => hv
  | succ n ih =>
    intro h r w hv hW
    rw [Machine.setVn]
    split
    · exact hv
    · exact ih _ _ _ (hv.setV _ p hl (.inr (hW r (Nat.le_refl _) (by omega)))) (fun r' h1 h2 => hW r' (by omega) (by omega))

/-- What every step over the lanes keeps of the group, all of them together keep. -/
theorem foldl_lanes_keep {P : Group → Prop} {F : ArithRes → Nat → ArithRes} {ls : List Nat} (hF : ∀ l ∈ ls, ∀ a : ArithRes, P a.g → P (F a l).g) :
    ∀ a : ArithRes, P a.g → P (ls.foldl F a).g := by
  induction ls with
  | nil => exact fun _ ha => ha
  | cons l ls ih => exact fun a ha => ih (fun x hx => hF x (.tail _ hx)) _ (hF l (.head _) a ha)

/-- R144: a per-lane operation writes its `n` registers in the lanes where it takes effect. -/
theorem vectorsOnly_perLane (g : Group) (iw : IWord) (n : Nat) (f : Nat → Nat × ArithFlags × Bool) :
    VectorsOnly g (perLane g iw n f).g (fun r l => (iVD iw ≤ r ∧ r < iVD iw + n) ∧ (execMask g iw).getLsbD l = true) := by
  unfold perLane
  refine foldl_lanes_keep (P := fun h => VectorsOnly g h _) (fun l hl a ha => ?_) _ (vectorsOnly_refl g _)
  have hmask := (mem_lanesOf _ l).mp hl
  exact ha.setVn _ (BitVec.lt_of_getLsbD hmask) n _ _ _ (fun r h1 h2 => ⟨⟨h1, h2⟩, hmask⟩)

/-! ### Predicate registers -/

/-- One bit of a field is written alone. -/
theorem getLsbD_putBit_other (w : BitVec 32) {i j : Nat} (b : Bool) (hj : j < 32) (h : j ≠ i) : (putBit w i b).getLsbD j = w.getLsbD j := by
  rw [putBit, getLsbD_putFld _ _ _ _ _ hj, if_neg (by omega)]

/-- R147: a lane of a predicate that is not the one written reads as before, and p7 always. -/
theorem getPmask_setP_other (g : Group) {n l n' l' : Nat} (b p : Bool) (hl' : l' < 32) (h : n' ≠ n ∨ n' = 7 ∨ l' ≠ l) :
    (getPmask (setP g n l b p) n').getLsbD l' = (getPmask g n').getLsbD l'
      ∧ (getPPmask (setP g n l b p) n').getLsbD l' = (getPPmask g n').getLsbD l' := by
  by_cases hn : n = 7
  · simp [setP, hn]
  · by_cases h7 : n' = 7
    · simp [getPmask, getPPmask, h7]
    · by_cases hnn : n' = n
      · have hl : l' ≠ l := by omega
        subst hnn
        simp [getPmask, getPPmask, setP, hn, getLsbD_putBit_other _ _ hl' hl]
      · simp [getPmask, getPPmask, setP, hn, h7, tabGet_tabSet_other _ _ _ hnn]

/-- A group after writes of lanes of predicate `n` alone: `W l` names the lanes that may differ. -/
structure PredicatesOnly (g h : Group) (n : Nat) (W : Nat → Prop) : Prop where
  registers : RegistersOnly g h
  vectors : VectorsKept g h
  scalars : ScalarsKept g h
  lanes : ∀ n' l, l < 32 → (n' ≠ n ∨ n' = 7 ∨ ¬W l) →
    (getPmask h n').getLsbD l = (getPmask g n').getLsbD l ∧ (getPPmask h n').getLsbD l = (getPPmask g n').getLsbD l

theorem predicatesOnly_refl (g : Group) (n : Nat) (W : Nat → Prop) : PredicatesOnly g g n W := ⟨rfl, ⟨rfl, rfl⟩, ⟨rfl, rfl⟩, fun _ _ _ _ => ⟨rfl, rfl⟩⟩

theorem registers_setP (h : Group) (n l : Nat) (b p : Bool) : RegistersOnly h (setP h n l b p) ∧ VectorsKept h (setP h n l b p) ∧ ScalarsKept h (setP h n l b p) := by
  unfold setP
  split <;> exact ⟨rfl, ⟨rfl, rfl⟩, rfl, rfl⟩

theorem RegistersOnly.trans {g h k : Group} (h1 : RegistersOnly g h) (h2 : RegistersOnly h k) : RegistersOnly g k := by
  unfold RegistersOnly at *
  rw [← h2] at h1
  exact h1

theorem PredicatesOnly.setP {g h : Group} {n : Nat} {W : Nat → Prop} (hv : PredicatesOnly g h n W) {l : Nat} (b p : Bool) (hW : W l) :
    PredicatesOnly g (Machine.setP h n l b p) n W := by
  obtain ⟨hreg, hvec, hsc⟩ := registers_setP h n l b p
  refine ⟨hv.registers.trans hreg, ⟨hvec.1.trans hv.vectors.1, hvec.2.trans hv.vectors.2⟩,
    ⟨hsc.1.trans hv.scalars.1, hsc.2.trans hv.scalars.2⟩, fun n' l' hl' hn => ?_⟩
  have hother : n' ≠ n ∨ n' = 7 ∨ l' ≠ l := hn.imp_right (Or.imp_right (fun hnw he => hnw (he ▸ hW)))
  obtain ⟨h1, h2⟩ := getPmask_setP_other h b p hl' hother
  obtain ⟨h3, h4⟩ := hv.lanes n' l' hl' hn
  exact ⟨h1.trans h3, h2.trans h4⟩

/-- R144: a per-lane compare writes its predicate in the lanes where it takes effect. -/
theorem predicatesOnly_perLaneP (g : Group) (iw : IWord) (f : Nat → Bool × ArithFlags × Bool) :
    PredicatesOnly g (perLaneP g iw f).g (iVD iw % 8) (fun l => (execMask g iw).getLsbD l = true) := by
  unfold perLaneP
  exact foldl_lanes_keep (P := fun h => PredicatesOnly g h _ _) (fun l hl a ha => ha.setP _ _ ((mem_lanesOf _ l).mp hl)) _ (predicatesOnly_refl g _ _)

/-! ### Results by kind -/

/-- The operation gives a scalar result for register `d iw`. -/
def ScalarOp (op : Dev → Group → IWord → Option ArithRes) (d : IWord → Nat) : Prop :=
  ∀ (s : Dev) (g : Group) (iw : IWord) (r : ArithRes), op s g iw = some r → ∃ w p, r = scalarRes g iw (d iw) w p

/-- The operation writes `n` vector registers lane by lane. -/
def LaneOp (op : Dev → Group → IWord → Option ArithRes) (n : Nat) : Prop :=
  ∀ (s : Dev) (g : Group) (iw : IWord) (r : ArithRes), op s g iw = some r → ∃ f, r = perLane g iw n f

/-- The operation writes a predicate register lane by lane. -/
def PredOp (op : Dev → Group → IWord → Option ArithRes) : Prop :=
  ∀ (s : Dev) (g : Group) (iw : IWord) (r : ArithRes), op s g iw = some r → ∃ f, r = perLaneP g iw f

section

variable {c : IWord → Instr} {code : Nat} {vs ss : IWord → List Nat} {op : Dev → Group → IWord → Option ArithRes}

/-- R154: a scalar result is written to `d` alone, where the instruction acts. -/
theorem IsArith.scalarFrame {d : IWord → Nat} (hc : IsArith c code vs ss op) (hop : ScalarOp op d) : ScalarFrame c vs ss op d := by
  intro s t iw g hi hsome ht
  obtain ⟨r, hr⟩ := Option.isSome_iff_exists.mp hsome
  obtain ⟨w, p, rfl⟩ := hop _ _ _ _ hr
  refine ⟨_, arithKeeps_of_registersOnly hc hi hr ?_ ht, ?_⟩
  · unfold scalarRes
    split <;> exact rfl
  · unfold scalarRes
    split
    · next hon =>
      refine ⟨⟨rfl, rfl⟩, ⟨rfl, rfl⟩, fun n hn => getS_setS_other g _ _ hn, fun h0 => ?_⟩
      simp [execOnce, h0] at hon
    · exact ⟨⟨rfl, rfl⟩, ⟨rfl, rfl⟩, fun _ _ => ⟨rfl, rfl⟩, fun _ => ⟨rfl, rfl⟩⟩

theorem IsArith.vectorFrame {n : Nat} (hc : IsArith c code vs (fun _ => []) op) (hop : LaneOp op n) : VectorFrame c vs op n := by
  intro s t iw g hi hsome ht
  obtain ⟨r, hr⟩ := Option.isSome_iff_exists.mp hsome
  obtain ⟨f, rfl⟩ := hop _ _ _ _ hr
  have hv := vectorsOnly_perLane g iw n f
  refine ⟨_, arithKeeps_of_registersOnly hc hi hr hv.registers ht, hv.scalars, hv.predicates, fun r l _ hl hout => ?_⟩
  by_cases hz : r = 255
  · simp [getV, getVP, hz]
  · exact hv.lanes r l hl (fun hW => hout.elim (· hW.1) (fun h => h.elim hz (fun h => by simp [h] at hW)))

theorem IsArith.predicateFrame (hc : IsArith c code vs (fun _ => []) op) (hop : PredOp op) : PredicateFrame c vs op := by
  intro s t iw g hi hsome ht
  obtain ⟨r, hr⟩ := Option.isSome_iff_exists.mp hsome
  obtain ⟨f, rfl⟩ := hop _ _ _ _ hr
  have hp := predicatesOnly_perLaneP g iw f
  refine ⟨_, arithKeeps_of_registersOnly hc hi hr hp.registers ht, hp.vectors, hp.scalars, fun n l _ hl hout => ?_⟩
  exact hp.lanes n l hl (hout.imp_right (Or.imp_right (fun h => by simp [h])))

end

theorem scalarOp_opSalu : ScalarOp (fun _ g iw => opSalu g iw) sSD := by
  intro s g iw r h
  simp only [opSalu, Option.ite_none_left_eq_some, Option.map_eq_some_iff] at h
  obtain ⟨-, w, -, rfl⟩ := h
  exact ⟨_, _, rfl⟩

theorem scalarOp_opScmp : ScalarOp (fun _ g iw => opScmp g iw) sSD := by
  intro s g iw r h
  simp only [opScmp, Option.ite_none_left_eq_some, Option.map_eq_some_iff] at h
  obtain ⟨-, w, -, rfl⟩ := h
  exact ⟨_, _, rfl⟩

theorem scalarOp_opSalui : ScalarOp (fun _ g iw => opSalui g iw) sSD := by
  intro s g iw r h
  simp only [opSalui, Option.ite_none_left_eq_some, Option.map_eq_some_iff] at h
  obtain ⟨-, w, -, rfl⟩ := h
  exact ⟨_, _, rfl⟩

theorem scalarOp_opScmpi : ScalarOp (fun _ g iw => opScmpi g iw) sSD := by
  intro s g iw r h
  simp only [opScmpi, Option.map_eq_some_iff] at h
  obtain ⟨w, -, rfl⟩ := h
  exact ⟨_, _, rfl⟩

theorem scalarOp_opMov : ScalarOp (fun _ g iw => opMov g iw) sSD := by
  intro s g iw r h
  simp only [opMov, Option.ite_none_left_eq_some, Option.some.injEq] at h
  obtain ⟨-, rfl⟩ := h
  exact ⟨_, _, rfl⟩

theorem scalarOp_opMovi : ScalarOp (fun _ g iw => opMovi g iw) sSD := by
  intro s g iw r h
  simp only [opMovi, Option.ite_none_left_eq_some, Option.some.injEq] at h
  obtain ⟨-, rfl⟩ := h
  exact ⟨_, _, rfl⟩

theorem scalarOp_opMovhi : ScalarOp (fun _ g iw => opMovhi g iw) sSD := by
  intro s g iw r h
  simp only [opMovhi, Option.ite_none_left_eq_some, Option.some.injEq] at h
  obtain ⟨-, rfl⟩ := h
  exact ⟨_, _, rfl⟩

theorem scalarOp_opMovsr : ScalarOp (fun s g iw => opMovsr (timeBase s) (flagsOf s iw) g iw) sSD := by
  intro s g iw r h
  simp only [opMovsr, Option.ite_none_left_eq_some, Option.map_eq_some_iff] at h
  obtain ⟨-, w, -, rfl⟩ := h
  exact ⟨_, _, rfl⟩

theorem scalarOp_opP2s : ScalarOp (fun _ g iw => opP2s g iw) sSD := by
  intro s g iw r h
  simp only [opP2s, Option.ite_none_left_eq_some, Option.some.injEq] at h
  obtain ⟨-, rfl⟩ := h
  exact ⟨_, _, rfl⟩

theorem scalarOp_opVread : ScalarOp (fun _ g iw => opVread g iw) sSD := by
  intro s g iw r h
  simp only [opVread, Option.ite_none_left_eq_some, Option.some.injEq] at h
  obtain ⟨-, rfl⟩ := h
  exact ⟨_, _, rfl⟩

theorem scalarOp_opVote : ScalarOp (fun _ g iw => opVote g iw) iVD := by
  intro s g iw r h
  simp only [opVote, Option.ite_none_left_eq_some, Option.some.injEq] at h
  obtain ⟨-, rfl⟩ := h
  exact ⟨_, _, rfl⟩

theorem laneOp_opValu : LaneOp (fun _ g iw => opValu g iw) 1 := by
  intro s g iw r h
  simp only [opValu, Option.ite_none_left_eq_some, Option.some.injEq] at h
  obtain ⟨-, rfl⟩ := h
  exact ⟨_, rfl⟩

theorem laneOp_opValu64 : LaneOp (fun _ g iw => opValu64 g iw) 2 := by
  intro s g iw r h
  simp only [opValu64, Option.ite_none_left_eq_some, Option.some.injEq] at h
  obtain ⟨-, rfl⟩ := h
  exact ⟨_, rfl⟩

theorem laneOp_opValui : LaneOp (fun _ g iw => opValui g iw) 1 := by
  intro s g iw r h
  simp only [opValui, Option.ite_none_left_eq_some, Option.some.injEq] at h
  obtain ⟨-, rfl⟩ := h
  exact ⟨_, rfl⟩

theorem laneOp_opFalu : LaneOp (fun _ g iw => opFalu g iw) 1 := by
  intro s g iw r h
  simp only [opFalu] at h
  split at h
  · cases h
  · simp only [Option.ite_none_left_eq_some, Option.some.injEq] at h
    obtain ⟨-, rfl⟩ := h
    exact ⟨_, rfl⟩

theorem laneOp_opFalui : LaneOp (fun _ g iw => opFalui g iw) 1 := by
  intro s g iw r h
  simp only [opFalui, Option.ite_none_left_eq_some, Option.some.injEq] at h
  obtain ⟨-, rfl⟩ := h
  exact ⟨_, rfl⟩

theorem laneOp_opDalu : LaneOp (fun _ g iw => opDalu g iw) 2 := by
  intro s g iw r h
  simp only [opDalu] at h
  split at h
  · cases h
  · simp only [Option.ite_none_left_eq_some, Option.some.injEq] at h
    obtain ⟨-, rfl⟩ := h
    exact ⟨_, rfl⟩

theorem laneOp_opHalu : LaneOp (fun _ g iw => opHalu g iw) 1 := by
  intro s g iw r h
  simp only [opHalu] at h
  split at h
  · cases h
  · simp only [Option.ite_none_left_eq_some, Option.some.injEq] at h
    obtain ⟨-, rfl⟩ := h
    exact ⟨_, rfl⟩

theorem laneOp_opCvt : LaneOp (fun s g iw => opCvt (seedOf s iw) g iw) 1 := by
  intro s g iw r h
  simp only [opCvt] at h
  split at h
  · simp only [Option.ite_none_left_eq_some, Option.some.injEq] at h
    obtain ⟨-, rfl⟩ := h
    exact ⟨_, rfl⟩
  · cases h

theorem laneOp_opCvtd : LaneOp (fun s g iw => opCvtd (seedOf s iw) g iw) 1 := by
  intro s g iw r h
  simp only [opCvtd] at h
  split at h
  · simp only [Option.ite_none_left_eq_some, Option.some.injEq] at h
    obtain ⟨-, rfl⟩ := h
    exact ⟨_, rfl⟩
  · cases h

theorem laneOp_opCvt2d : LaneOp (fun _ g iw => opCvt2d g iw) 2 := by
  intro s g iw r h
  simp only [opCvt2d] at h
  split at h
  · simp only [Option.ite_none_left_eq_some, Option.some.injEq] at h
    obtain ⟨-, rfl⟩ := h
    exact ⟨_, rfl⟩
  · cases h

theorem laneOp_opSel : LaneOp (fun _ g iw => opSel g iw) 1 := by
  intro s g iw r h
  simp only [opSel, Option.ite_none_left_eq_some, Option.some.injEq] at h
  obtain ⟨-, rfl⟩ := h
  exact ⟨_, rfl⟩

theorem laneOp_opShfl : LaneOp (fun _ g iw => opShfl g iw) 1 := by
  intro s g iw r h
  simp only [opShfl, Option.ite_none_left_eq_some, Option.some.injEq] at h
  obtain ⟨-, rfl⟩ := h
  exact ⟨_, rfl⟩

theorem laneOp_opBcast : LaneOp (fun _ g iw => opBcast g iw) 1 := by
  intro s g iw r h
  simp only [opBcast, Option.ite_none_left_eq_some, Option.some.injEq] at h
  obtain ⟨-, rfl⟩ := h
  exact ⟨_, rfl⟩

theorem predOp_opFcmp : PredOp (fun _ g iw => opFcmp g iw) := by
  intro s g iw r h
  simp only [opFcmp, Option.ite_none_left_eq_some, Option.some.injEq] at h
  obtain ⟨-, rfl⟩ := h
  exact ⟨_, rfl⟩

theorem predOp_opIcmp : PredOp (fun _ g iw => opIcmp g iw) := by
  intro s g iw r h
  simp only [opIcmp, Option.ite_none_left_eq_some, Option.some.injEq] at h
  obtain ⟨-, rfl⟩ := h
  exact ⟨_, rfl⟩

theorem predOp_opDcmp : PredOp (fun _ g iw => opDcmp g iw) := by
  intro s g iw r h
  simp only [opDcmp, Option.ite_none_left_eq_some, Option.some.injEq] at h
  obtain ⟨-, rfl⟩ := h
  exact ⟨_, rfl⟩

theorem predOp_opPlog : PredOp (fun _ g iw => opPlog g iw) := by
  intro s g iw r h
  simp only [opPlog, Option.ite_none_left_eq_some, Option.some.injEq] at h
  obtain ⟨-, rfl⟩ := h
  exact ⟨_, rfl⟩

/-- Settles O16: the operation of each row gives a scalar result. -/
theorem scalarArithmeticFrame : Obligations.ScalarArithmeticFrame := by
  unfold Obligations.ScalarArithmeticFrame
  exact ⟨isArith_salu.scalarFrame scalarOp_opSalu, isArith_scmp.scalarFrame scalarOp_opScmp, isArith_salui.scalarFrame scalarOp_opSalui,
    isArith_scmpi.scalarFrame scalarOp_opScmpi, isArith_mov.scalarFrame scalarOp_opMov, isArith_movi.scalarFrame scalarOp_opMovi,
    isArith_movhi.scalarFrame scalarOp_opMovhi, isArith_movsr.scalarFrame scalarOp_opMovsr, isArith_p2s.scalarFrame scalarOp_opP2s,
    isArith_vread.scalarFrame scalarOp_opVread, isArith_vote.scalarFrame scalarOp_opVote⟩

/-- Settles O17: the operation of each row writes vector registers, or a predicate, lane by lane. -/
theorem vectorArithmeticFrame : Obligations.VectorArithmeticFrame := by
  unfold Obligations.VectorArithmeticFrame
  exact ⟨isArith_valu.vectorFrame laneOp_opValu, isArith_valu64.vectorFrame laneOp_opValu64, isArith_valui.vectorFrame laneOp_opValui,
    isArith_falu.vectorFrame laneOp_opFalu, isArith_falui.vectorFrame laneOp_opFalui, isArith_dalu.vectorFrame laneOp_opDalu,
    isArith_halu.vectorFrame laneOp_opHalu, isArith_cvt.vectorFrame laneOp_opCvt, isArith_cvtd.vectorFrame laneOp_opCvtd,
    isArith_cvt2d.vectorFrame laneOp_opCvt2d, isArith_sel.vectorFrame laneOp_opSel, isArith_shfl.vectorFrame laneOp_opShfl,
    isArith_bcast.vectorFrame laneOp_opBcast, isArith_fcmp.predicateFrame predOp_opFcmp, isArith_icmp.predicateFrame predOp_opIcmp,
    isArith_dcmp.predicateFrame predOp_opDcmp, isArith_plog.predicateFrame predOp_opPlog⟩

end Sys2Proof.Machine

/-! PROOF. The results of the integer instructions (O18, R802): SALU on 64-bit scalars and VALU on 32-bit lanes, in two's complement. -/

namespace Sys2Proof.Machine

open Sys2Proof

/-! ## Two's complement in the numbers that the model computes with -/

theorem sextNat_toNat {n : Nat} (a : BitVec n) : sextNat n a.toNat = a.toInt := by
  rw [BitVec.toInt_eq_toNat_cond, sextNat, Nat.mod_eq_of_lt a.isLt]
  rcases n with _ | n
  · simp [BitVec.of_length_zero]
  · have hhalf : a.toNat < 2 ^ (n + 1 - 1) ↔ 2 * a.toNat < 2 ^ (n + 1) := by rw [Nat.add_sub_cancel, Nat.pow_succ]; omega
    simp only [hhalf]

theorem ofNat_wrapNat (n : Nat) (z : Int) : BitVec.ofNat n (wrapNat n z) = BitVec.ofInt n z := by
  apply BitVec.eq_of_toNat_eq
  have hlt : (z % ((2 ^ n : Nat) : Int)).toNat < 2 ^ n := by
    have h1 := Int.emod_lt_of_pos z (b := ((2 ^ n : Nat) : Int)) (by exact_mod_cast Nat.two_pow_pos n)
    omega
  rw [BitVec.toNat_ofInt, BitVec.toNat_ofNat, wrapNat, Nat.mod_eq_of_lt hlt]

theorem ofNat_mod_two_pow (n x : Nat) : BitVec.ofNat n (x % 2 ^ n) = BitVec.ofNat n x := by
  apply BitVec.eq_of_toNat_eq
  simp

section

variable {n : Nat} (a b c : BitVec n)

theorem ofNat_add_toNat : BitVec.ofNat n ((a.toNat + b.toNat) % 2 ^ n) = a + b := by simp [ofNat_mod_two_pow, BitVec.ofNat_add]

theorem ofInt_sub_toNat : BitVec.ofNat n (wrapNat n ((a.toNat : Int) - b.toNat)) = a - b := by
  rw [ofNat_wrapNat]
  apply BitVec.eq_of_toNat_eq
  have hcast : (a.toNat : Int) - b.toNat + ((2 ^ n : Nat) : Int) = ((2 ^ n - b.toNat + a.toNat : Nat) : Int) := by
    have := b.isLt
    omega
  rw [BitVec.toNat_ofInt, BitVec.toNat_sub, ← Int.add_emod_right, hcast]
  norm_cast

theorem ofNat_mul_toNat : BitVec.ofNat n (a.toNat * b.toNat % 2 ^ n) = a * b := by simp [ofNat_mod_two_pow, BitVec.ofNat_mul]

theorem ofNat_mulAdd_toNat : BitVec.ofNat n ((a.toNat * b.toNat + c.toNat) % 2 ^ n) = a * b + c := by
  simp [ofNat_mod_two_pow, BitVec.ofNat_mul, BitVec.ofNat_add]

theorem ofNat_shiftLeft_toNat (k : Nat) : BitVec.ofNat n (a.toNat * 2 ^ k % 2 ^ n) = a <<< k := by
  apply BitVec.eq_of_toNat_eq
  simp [Nat.shiftLeft_eq]

theorem ofNat_shiftRight_toNat (k : Nat) : BitVec.ofNat n (a.toNat / 2 ^ k) = a >>> k := by
  apply BitVec.eq_of_toNat_eq
  rw [BitVec.toNat_ushiftRight, Nat.shiftRight_eq_div_pow, BitVec.toNat_ofNat, Nat.mod_eq_of_lt (Nat.lt_of_le_of_lt (Nat.div_le_self _ _) a.isLt)]

theorem ofNat_sshiftRight_toInt (k : Nat) : BitVec.ofNat n (wrapNat n (a.toInt / 2 ^ k)) = a.sshiftRight k := by
  rw [ofNat_wrapNat, BitVec.sshiftRight, Int.shiftRight_eq_div_pow]
  norm_cast

theorem ofNat_land_toNat : BitVec.ofNat n (Nat.land a.toNat b.toNat) = a &&& b := BitVec.eq_of_toNat_eq (by simp)

theorem ofNat_lor_toNat : BitVec.ofNat n (Nat.lor a.toNat b.toNat) = a ||| b := BitVec.eq_of_toNat_eq (by simp)

theorem ofNat_xor_toNat : BitVec.ofNat n (Nat.xor a.toNat b.toNat) = a ^^^ b := BitVec.eq_of_toNat_eq (by simp)

theorem ofNat_ite_toNat (p : Prop) [Decidable p] : BitVec.ofNat n (if p then a.toNat else b.toNat) = if p then a else b := by
  split <;> simp

end

/-! ## SALU -/

/-- SALU with the function field `m` is legal and gives `w` of the operands `a` and `b`. -/
def SaluGives (m : Nat) (a b w : Word) : Prop :=
  m < 32 ∧ ¬(m / 16 % 2 = 1 ∧ m % 16 ≠ 3 ∧ m % 16 ≠ 10 ∧ m % 16 ≠ 11)
    ∧ ∃ x, salu (m % 16) (m / 16 % 2 == 1) a.toNat b.toNat = some x ∧ BitVec.ofNat 64 x = w

section

variable (a b : Word)

theorem saluGives_add : SaluGives 0 a b (a + b) := ⟨by decide, by decide, _, rfl, ofNat_add_toNat a b⟩
theorem saluGives_sub : SaluGives 1 a b (a - b) := ⟨by decide, by decide, _, rfl, ofInt_sub_toNat a b⟩
theorem saluGives_mul : SaluGives 2 a b (a * b) := ⟨by decide, by decide, _, rfl, ofNat_mul_toNat a b⟩
theorem saluGives_mulh : SaluGives 3 a b (BitVec.ofInt 64 (a.toInt * b.toInt / 2 ^ 64)) :=
  ⟨by decide, by decide, _, rfl, by rw [sextNat_toNat, sextNat_toNat]; exact ofNat_wrapNat 64 _⟩
theorem saluGives_mulhu : SaluGives 19 a b (BitVec.ofNat 64 (a.toNat * b.toNat / 2 ^ 64)) := ⟨by decide, by decide, _, rfl, rfl⟩
theorem saluGives_shl : SaluGives 4 a b (a <<< (b.toNat % 64)) := ⟨by decide, by decide, _, rfl, ofNat_shiftLeft_toNat a _⟩
theorem saluGives_shr : SaluGives 5 a b (a >>> (b.toNat % 64)) := ⟨by decide, by decide, _, rfl, ofNat_shiftRight_toNat a _⟩
theorem saluGives_sar : SaluGives 6 a b (a.sshiftRight (b.toNat % 64)) :=
  ⟨by decide, by decide, _, rfl, by rw [sextNat_toNat]; exact ofNat_sshiftRight_toInt a _⟩
theorem saluGives_and : SaluGives 7 a b (a &&& b) := ⟨by decide, by decide, _, rfl, ofNat_land_toNat a b⟩
theorem saluGives_or : SaluGives 8 a b (a ||| b) := ⟨by decide, by decide, _, rfl, ofNat_lor_toNat a b⟩
theorem saluGives_xor : SaluGives 9 a b (a ^^^ b) := ⟨by decide, by decide, _, rfl, ofNat_xor_toNat a b⟩
theorem saluGives_min : SaluGives 10 a b (if a.toInt ≤ b.toInt then a else b) :=
  ⟨by decide, by decide, _, rfl, by rw [sextNat_toNat, sextNat_toNat]; exact ofNat_ite_toNat a b _⟩
theorem saluGives_max : SaluGives 11 a b (if a.toInt ≤ b.toInt then b else a) :=
  ⟨by decide, by decide, _, rfl, by rw [sextNat_toNat, sextNat_toNat]; exact ofNat_ite_toNat b a _⟩
theorem saluGives_minu : SaluGives 26 a b (if a.toNat ≤ b.toNat then a else b) := ⟨by decide, by decide, _, rfl, ofNat_ite_toNat a b _⟩
theorem saluGives_maxu : SaluGives 27 a b (if a.toNat ≤ b.toNat then b else a) := ⟨by decide, by decide, _, rfl, ofNat_ite_toNat b a _⟩

end

/-- A legal SALU that acts on clean operands gives its function's result, with no flag and no poison. -/
theorem opSalu_gives {g : Group} {iw : IWord} {w : Word} (hact : execOnce g iw = true) (hsc : sSC iw = 0) (hpa : getSP g (sSA iw) = false)
    (hpb : getSP g (sSB iw) = false) (hpp : predPoisonAny g iw = false) (h : SaluGives (sMOD iw) (getS g (sSA iw)) (getS g (sSB iw)) w) :
    opSalu g iw = some { g := setS g (sSD iw) w false, fl := 0, poison := false } := by
  obtain ⟨hm, hu, x, hx, rfl⟩ := h
  have hlegal : ¬(sMOD iw / 32 ≠ 0 ∨ sSC iw ≠ 0 ∨ (sMOD iw / 16 % 2 = 1 ∧ sMOD iw % 16 ≠ 3 ∧ sMOD iw % 16 ≠ 10 ∧ sMOD iw % 16 ≠ 11)) := by
    rintro (h | h | h)
    · exact h (Nat.div_eq_of_lt hm)
    · exact h hsc
    · exact hu h
  rw [opSalu, if_neg hlegal, hx, Option.map_some, scalarRes, if_pos hact, hpa, hpb, hpp]
  rfl

/-! ## VALU -/

/-- VALU with the function code `fn` gives `w` of the operands `a`, `b` and `c`. -/
def ValuGives (fn : Nat) (a b c w : BitVec 32) : Prop := BitVec.ofNat 32 ((valu fn false a.toNat b.toNat c.toNat).getD 0) = w

section

variable (a b c : BitVec 32)

theorem valuGives_add : ValuGives 0 a b c (a + b) := ofNat_add_toNat a b
theorem valuGives_sub : ValuGives 1 a b c (a - b) := ofInt_sub_toNat a b
theorem valuGives_mul : ValuGives 2 a b c (a * b) := ofNat_mul_toNat a b
theorem valuGives_mulh : ValuGives 3 a b c (BitVec.ofInt 32 (a.toInt * b.toInt / 2 ^ 32)) := by
  rw [← sextNat_toNat, ← sextNat_toNat]
  exact ofNat_wrapNat 32 _
theorem valuGives_mad : ValuGives 4 a b c (a * b + c) := ofNat_mulAdd_toNat a b c
theorem valuGives_shl : ValuGives 5 a b c (a <<< (b.toNat % 32)) := ofNat_shiftLeft_toNat a _
theorem valuGives_shr : ValuGives 6 a b c (a >>> (b.toNat % 32)) := ofNat_shiftRight_toNat a _
theorem valuGives_sar : ValuGives 7 a b c (a.sshiftRight (b.toNat % 32)) := by
  rw [← ofNat_sshiftRight_toInt, ← sextNat_toNat]
  rfl
theorem valuGives_and : ValuGives 8 a b c (a &&& b) := ofNat_land_toNat a b
theorem valuGives_or : ValuGives 9 a b c (a ||| b) := ofNat_lor_toNat a b
theorem valuGives_xor : ValuGives 10 a b c (a ^^^ b) := ofNat_xor_toNat a b
theorem valuGives_min : ValuGives 11 a b c (if a.toInt ≤ b.toInt then a else b) := by
  rw [← sextNat_toNat, ← sextNat_toNat]
  exact ofNat_ite_toNat a b _
theorem valuGives_max : ValuGives 12 a b c (if a.toInt ≤ b.toInt then b else a) := by
  rw [← sextNat_toNat, ← sextNat_toNat]
  exact ofNat_ite_toNat b a _

end

/-- A legal VALU is its function lane by lane: the codes up to 12, signed, with VC unused. -/
theorem opValu_legal {g : Group} {iw : IWord} (htyp : iTYP iw = 0) (hrnd : iRND iw = 0) (hsat : iSAT iw = 0) (hvc : iVC iw = 0) (hmod : iMOD iw ≤ 12)
    (hd : legV g (iVD iw) = true) (ha : legV g (iVA iw) = true) (hb : legV g (iVB iw) = true) (h0 : legV g 0 = true) :
    ∃ f, opValu g iw = some (perLane g iw 1 f)
      ∧ ∀ l, (f l).1 = (valu (iMOD iw) false (getV g (iVA iw) l).toNat (getV g (iVB iw) l).toNat (getV g 0 l).toNat).getD 0 := by
  have h16 : iMOD iw % 16 = iMOD iw := Nat.mod_eq_of_lt (by omega)
  have hu : iMOD iw / 16 % 2 = 0 := by omega
  have hm : iMOD iw / 32 = 0 := by omega
  rw [opValu, if_neg]
  · refine ⟨_, rfl, fun l => ?_⟩
    dsimp only
    rw [hvc, h16, hu]
    rfl
  · rw [hvc, h16, hu, hm, htyp, hrnd, hsat, hd, ha, hb, h0]
    simp
    omega

/-- Settles O18: each SALU and VALU function, over the numbers the model computes with. -/
theorem integerResults : Obligations.IntegerResults := by
  unfold Obligations.IntegerResults
  constructor
  · intro s iw g a b w hi hact hsc ha hb hpa hpb hpp hw
    have hgives : SaluGives (sMOD iw) (getS g (sSA iw)) (getS g (sSB iw)) w := by
      rw [← ha, ← hb]
      rcases hw with ⟨hm, rfl⟩ | ⟨hm, rfl⟩ | ⟨hm, rfl⟩ | ⟨hm, rfl⟩ | ⟨hm, rfl⟩ | ⟨hm, rfl⟩ | ⟨hm, rfl⟩ | ⟨hm, rfl⟩ | ⟨hm, rfl⟩ | ⟨hm, rfl⟩ | ⟨hm, rfl⟩
        | ⟨hm, rfl⟩ | ⟨hm, rfl⟩ | ⟨hm, rfl⟩ | ⟨hm, rfl⟩ <;> rw [hm]
      · exact saluGives_add a b
      · exact saluGives_sub a b
      · exact saluGives_mul a b
      · exact saluGives_mulh a b
      · exact saluGives_mulhu a b
      · exact saluGives_shl a b
      · exact saluGives_shr a b
      · exact saluGives_sar a b
      · exact saluGives_and a b
      · exact saluGives_or a b
      · exact saluGives_xor a b
      · exact saluGives_min a b
      · exact saluGives_max a b
      · exact saluGives_minu a b
      · exact saluGives_maxu a b
    exact isArith_salu.completes s iw g _ hi (opSalu_gives hact hsc hpa hpb hpp hgives)
  · intro s t iw g hi htyp hrnd hsat hvc hmod hd ha hb h0 hnz ht
    obtain ⟨f, hop, hf⟩ := opValu_legal htyp hrnd hsat hvc hmod hd ha hb h0
    cases ht.symm.trans (isArith_valu.completes s iw g _ hi hop)
    refine ⟨(perLane g iw 1 f).g.next, by rw [getGroup_countIssue, getGroup_arithEffect], fun l a b w _ hl ha hb hw => ?_⟩
    have hres : ValuGives (iMOD iw) a b (getV g 0 l) w := by
      rw [hw, getV_next, getV_perLane _ _ _ _ hnz, if_pos hl, hf, ha, hb]
      rfl
    have hfn {fn : Nat} {x : BitVec 32} (hx : ValuGives fn a b (getV g 0 l) x) (hm : iMOD iw = fn) : w = x := by
      rw [hm] at hres
      exact hres.symm.trans hx
    exact ⟨hfn (valuGives_add ..), hfn (valuGives_sub ..), hfn (valuGives_mul ..), hfn (valuGives_mulh ..), hfn (valuGives_mad ..),
      hfn (valuGives_shl ..), hfn (valuGives_shr ..), hfn (valuGives_sar ..), hfn (valuGives_and ..), hfn (valuGives_or ..), hfn (valuGives_xor ..),
      hfn (valuGives_min ..), hfn (valuGives_max ..)⟩

end Sys2Proof.Machine

/-! PROOF. Instructions as issues (O14, O15, O21, O38): when one waits, takes its exception or is skipped, and where the control instructions complete. -/

namespace Sys2Proof.Machine

open Sys2Proof

/-! ## The branches of an issue (R152, R170, R171, R206) -/

section

variable {s : Dev} {iw : IWord} {g : Group} (code : Nat) (vs ss : List Nat) (f : Dev → Group → Dev)

theorem issue_poisoned (h : mayIssue s iw = some g) (hp : iw.poison = true) : issue s iw code vs ss f = raiseExc s iw.core iw.slot 0x0B := by
  simp [issue, h, hp]

theorem issue_otherRow {b : Byte} (h : mayIssue s iw = some g) (hp : iw.poison = false) (hb : iw.opcode = some b) :
    issue s iw code vs ss f = if opListed b then s else raiseExc s iw.core iw.slot 0x01 := by
  simp [issue, h, hp, hb]

theorem issue_busy (h : mayIssue s iw = some g) (hp : iw.poison = false) (ho : iw.opcode = none) (hb : busy g vs ss = true) :
    issue s iw code vs ss f = s := by
  simp [issue, h, hp, ho, hb]

end

/-- The command `c` is one issue: under `run`, its effect on the device is that of `issue` with its own event, registers and effect. -/
def IsIssued (run : State → (Dev → Dev) → Out') (c : IWord → Instr) : Prop :=
  ∃ F : IWord → Dev → Dev, (∀ (iw : IWord) (s : State), exec (c iw) s = run s (F iw))
    ∧ ∀ (iw : IWord) (d : Dev), ∃ (code : Nat) (vs ss : List Nat) (f : Dev → Group → Dev), F iw d = issue d iw code vs ss f

theorem IsArith.isIssued {c : IWord → Instr} {code : Nat} {vs ss : IWord → List Nat} {op : Dev → Group → IWord → Option ArithRes}
    (h : IsArith c code vs ss op) : IsIssued upd c :=
  ⟨_, h, fun _ _ => ⟨_, _, _, _, rfl⟩⟩

/-- What every issue does before it looks at its instruction: it waits, or takes the exception of its word (R206, R170). -/
theorem IsIssued.completes {c : IWord → Instr} (h : IsIssued upd c) (s : State) (iw : IWord) :
    (mayIssue s.dev iw = none → Completes (c iw) s s.dev)
      ∧ ∀ g, mayIssue s.dev iw = some g →
        (iw.poison = true → Completes (c iw) s (raiseExc s.dev iw.core iw.slot 0x0B))
        ∧ ∀ b, iw.poison = false → iw.opcode = some b → Completes (c iw) s (if opListed b then s.dev else raiseExc s.dev iw.core iw.slot 0x01) := by
  obtain ⟨F, he, hF⟩ := h
  obtain ⟨code, vs, ss, f, hf⟩ := hF iw s.dev
  simp only [Completes, he, upd_next, hf]
  refine ⟨fun hw => ?_, fun g hg => ⟨fun hp => ?_, fun b hp hb => ?_⟩⟩
  · rw [issue_waits _ _ _ _ hw]
  · rw [issue_poisoned _ _ _ _ hg hp]
  · rw [issue_otherRow _ _ _ _ hg hp hb]

theorem IsIssued.completesM {c : IWord → Instr} (h : IsIssued updM c) (s : State) (iw : IWord) :
    (mayIssue s.dev iw = none → CompletesM (c iw) s s.dev)
      ∧ ∀ g, mayIssue s.dev iw = some g →
        (iw.poison = true → CompletesM (c iw) s (raiseExc s.dev iw.core iw.slot 0x0B))
        ∧ ∀ b, iw.poison = false → iw.opcode = some b → CompletesM (c iw) s (if opListed b then s.dev else raiseExc s.dev iw.core iw.slot 0x01) := by
  obtain ⟨F, he, hF⟩ := h
  obtain ⟨code, vs, ss, f, hf⟩ := hF iw s.dev
  refine ⟨fun hw => ?_, fun g hg => ⟨fun hp => ?_, fun b hp hb => ?_⟩⟩
  · exact Machine.completesM (fun b => he iw _) (hf.trans (issue_waits _ _ _ _ hw))
  · exact Machine.completesM (fun b => he iw _) (hf.trans (issue_poisoned _ _ _ _ hg hp))
  · exact Machine.completesM (fun b => he iw _) (hf.trans (issue_otherRow _ _ _ _ hg hp hb))

/-- An arithmetic instruction whose registers are pending waits (R152). -/
theorem IsArith.busy_completes {c : IWord → Instr} {code : Nat} {vs ss : IWord → List Nat} {op : Dev → Group → IWord → Option ArithRes}
    (h : IsArith c code vs ss op) {s : State} {iw : IWord} {g : Group} (hg : mayIssue s.dev iw = some g) (hp : iw.poison = false)
    (ho : iw.opcode = none) (hb : busy g (vs iw) (ss iw) = true) : Completes (c iw) s s.dev := by
  rw [Completes, h iw s, upd_next, issueArith, issue_busy _ _ _ _ hg hp ho hb]

/-- The control instructions. -/
def controlRows : List (IWord → Instr) := [.nop, .bra, .split, .join, .loop, .breakI, .exit, .tokenWait, .trap]

theorem isIssued_controlRows : ∀ c ∈ controlRows, IsIssued upd c := by
  simp only [controlRows, List.forall_mem_cons]
  exact ⟨⟨doNop, fun _ _ => rfl, fun _ _ => ⟨_, _, _, _, rfl⟩⟩,
    ⟨doBra, fun _ _ => rfl, fun _ _ => ⟨_, _, _, _, rfl⟩⟩,
    ⟨doSplit, fun _ _ => rfl, fun _ _ => ⟨_, _, _, _, rfl⟩⟩,
    ⟨doJoin, fun _ _ => rfl, fun _ _ => ⟨_, _, _, _, rfl⟩⟩,
    ⟨doLoop, fun _ _ => rfl, fun _ _ => ⟨_, _, _, _, rfl⟩⟩,
    ⟨doBreak, fun _ _ => rfl, fun _ _ => ⟨_, _, _, _, rfl⟩⟩,
    ⟨doExit, fun _ _ => rfl, fun _ _ => ⟨_, _, _, _, rfl⟩⟩,
    ⟨doTokenWait, fun _ _ => rfl, fun _ _ => ⟨_, _, _, _, rfl⟩⟩,
    ⟨doTrap, fun _ _ => rfl, fun _ _ => ⟨_, _, _, _, rfl⟩⟩,
    fun _ h => nomatch h⟩

/-- The arithmetic instructions. -/
def arithRows : List (IWord → Instr) := [.salu, .scmp, .salui, .scmpi, .mov, .movi, .movhi, .movsr, .p2s, .vread, .valu, .valu64, .valui, .falu,
  .falui, .dalu, .halu, .cvt, .cvtd, .cvt2d, .fcmp, .icmp, .dcmp, .sel, .plog, .shfl, .bcast, .vote]

theorem isIssued_arithRows : ∀ c ∈ arithRows, IsIssued upd c := by
  simp only [arithRows, List.forall_mem_cons]
  exact ⟨isArith_salu.isIssued, isArith_scmp.isIssued, isArith_salui.isIssued, isArith_scmpi.isIssued, isArith_mov.isIssued,
    isArith_movi.isIssued, isArith_movhi.isIssued, isArith_movsr.isIssued, isArith_p2s.isIssued, isArith_vread.isIssued,
    isArith_valu.isIssued, isArith_valu64.isIssued, isArith_valui.isIssued, isArith_falu.isIssued, isArith_falui.isIssued,
    isArith_dalu.isIssued, isArith_halu.isIssued, isArith_cvt.isIssued, isArith_cvtd.isIssued, isArith_cvt2d.isIssued,
    isArith_fcmp.isIssued, isArith_icmp.isIssued, isArith_dcmp.isIssued, isArith_sel.isIssued, isArith_plog.isIssued,
    isArith_shfl.isIssued, isArith_bcast.isIssued, isArith_vote.isIssued, fun _ h => nomatch h⟩

/-- The fences, the barrier, and the matrix and fabric instructions. -/
def syncAsyncRows : List (IWord → Instr) := [.fenceL, .fenceS, .fenceLs, .bar, .mma, .aload, .drain, .fload, .fswap, .frun]

theorem isIssued_syncAsyncRows : ∀ c ∈ syncAsyncRows, IsIssued upd c := by
  simp only [syncAsyncRows, List.forall_mem_cons]
  exact ⟨⟨(fun iw => doFence iw 1 true false), fun _ _ => rfl, fun _ _ => ⟨_, _, _, _, rfl⟩⟩,
    ⟨(fun iw => doFence iw 2 false true), fun _ _ => rfl, fun _ _ => ⟨_, _, _, _, rfl⟩⟩,
    ⟨(fun iw => doFence iw 3 true true), fun _ _ => rfl, fun _ _ => ⟨_, _, _, _, rfl⟩⟩,
    ⟨doBar, fun _ _ => rfl, fun _ _ => ⟨_, _, _, _, rfl⟩⟩,
    ⟨(doMx 1), fun _ _ => rfl, fun _ _ => ⟨_, _, _, _, rfl⟩⟩,
    ⟨(doMx 2), fun _ _ => rfl, fun _ _ => ⟨_, _, _, _, rfl⟩⟩,
    ⟨(doMx 3), fun _ _ => rfl, fun _ _ => ⟨_, _, _, _, rfl⟩⟩,
    ⟨doFload, fun _ _ => rfl, fun _ _ => ⟨_, _, _, _, rfl⟩⟩,
    ⟨doFswap, fun _ _ => rfl, fun _ _ => ⟨_, _, _, _, rfl⟩⟩,
    ⟨doFrun, fun _ _ => rfl, fun _ _ => ⟨_, _, _, _, rfl⟩⟩,
    fun _ h => nomatch h⟩

/-- The memory and DMA instructions, which make coherent requests. -/
def memoryRows : List (IWord → Instr) := [.ld, .st, .lds, .sts, .atom, .ldr, .stc, .dma]

theorem isIssued_memoryRows : ∀ c ∈ memoryRows, IsIssued updM c := by
  simp only [memoryRows, List.forall_mem_cons]
  exact ⟨⟨doLd, fun _ _ => rfl, fun _ _ => ⟨_, _, _, _, rfl⟩⟩,
    ⟨doSt, fun _ _ => rfl, fun _ _ => ⟨_, _, _, _, rfl⟩⟩,
    ⟨doLds, fun _ _ => rfl, fun _ _ => ⟨_, _, _, _, rfl⟩⟩,
    ⟨doSts, fun _ _ => rfl, fun _ _ => ⟨_, _, _, _, rfl⟩⟩,
    ⟨doAtom, fun _ _ => rfl, fun _ _ => ⟨_, _, _, _, rfl⟩⟩,
    ⟨doLdr, fun _ _ => rfl, fun _ _ => ⟨_, _, _, _, rfl⟩⟩,
    ⟨doStc, fun _ _ => rfl, fun _ _ => ⟨_, _, _, _, rfl⟩⟩,
    ⟨doDma, fun _ _ => rfl, fun _ _ => ⟨_, _, _, _, rfl⟩⟩,
    fun _ h => nomatch h⟩

/-- Settles O14: each row is one issue. -/
theorem waitingInstructionsChangeNothing : Obligations.WaitingInstructionsChangeNothing := by
  unfold Obligations.WaitingInstructionsChangeNothing
  refine ⟨fun c s iw hc => ?_, fun c s iw hc => (isIssued_memoryRows c hc).completesM s iw, fun s iw g hg hp ho => ⟨fun hb => ?_, fun hb => ?_, fun hb => ?_⟩⟩
  · have hrow : c ∈ controlRows ++ (arithRows ++ syncAsyncRows) := hc
    simp only [List.mem_append] at hrow
    rcases hrow with hctl | harith | hsync
    · exact (isIssued_controlRows c hctl).completes s iw
    · exact (isIssued_arithRows c harith).completes s iw
    · exact (isIssued_syncAsyncRows c hsync).completes s iw
  · exact ⟨isArith_salu.busy_completes hg hp ho hb, isArith_scmp.busy_completes hg hp ho hb⟩
  · exact ⟨isArith_valu.busy_completes hg hp ho hb, isArith_falu.busy_completes hg hp ho hb, isArith_cvt.busy_completes hg hp ho hb⟩
  · exact isArith_dalu.busy_completes hg hp ho hb

end Sys2Proof.Machine

/-! PROOF. Control (O21, O38), and instructions whose predicate is true in no active lane (O15). -/

namespace Sys2Proof.Machine

open Sys2Proof

/-! ## An instruction that issues (R152) -/

section

variable {s : State} {iw : IWord} {g : Group} {d : Dev} {code : Nat} {vs ss : List Nat} {c : IWord → Instr} {f : Dev → Group → Dev}

/-- An instruction that issues has its effect `f` and is counted. -/
theorem issued_completes {F : IWord → Dev → Dev} (he : exec (c iw) s = upd s (F iw)) (hF : F iw s.dev = issue s.dev iw code vs ss f)
    (hi : Issues s.dev iw vs ss g) (hd : f s.dev g = d) : Completes (c iw) s (countIssue d iw code g) := by
  rw [Completes, he, upd_next, hF, issue_runs code f hi, hd]

theorem issued_completesM {F : IWord → Dev → Dev} (he : ∀ t : State, exec (c iw) t = updM t (F iw)) (hF : F iw s.dev = issue s.dev iw code vs ss f)
    (hi : Issues s.dev iw vs ss g) (hd : f s.dev g = d) : CompletesM (c iw) s (countIssue d iw code g) :=
  completesM (fun _ => he _) (by rw [hF, issue_runs code f hi, hd])

end

theorem execOnce_eq_false {g : Group} {iw : IWord} (h : execMask g iw = 0) : execOnce g iw = false := by simp [execOnce, h]

/-! ## Control (R158, R801) -/

section

variable {s : State} {iw : IWord} {g : Group}

theorem nop_completes (h : ControlRuns s.dev iw false false g) : Completes (.nop iw) s (countIssue (putGroup s.dev iw g.next) iw 4 g) :=
  issued_completes (F := doNop) rfl rfl h.1 (by simp [h.2, skip])

/-- BRA of a condition that no lane, or every lane, meets. -/
theorem bra_completes (h : ControlRuns s.dev iw true false g) {t : BitVec 32} (ht : t = g.act &&& predMask g iw) (hu : t = 0 ∨ t = g.act) :
    Completes (.bra iw) s (countIssue (putGroup (condPoison s.dev iw g) iw { g with pc := if t = 0 then g.pc + 8 else target g (cT1 iw) }) iw 4 g) := by
  subst ht
  refine issued_completes (F := doBra) rfl rfl h.1 ?_
  dsimp only
  rw [h.2, Bool.not_true, if_neg Bool.false_ne_true, if_neg (by tauto)]

/-- The group after a SPLIT: lanes `t` go on, or, where there is none, lanes `f` branch (R158). -/
def splitGroup (g : Group) (iw : IWord) (t f : BitVec 32) : Group :=
  let j : StackEntry := { kind := .join, pc := target g (cT2 iw), mask := g.act }
  if t = 0 then { g with stack := j :: g.stack, act := f, pc := target g (cT1 iw) }
  else { g with stack := if f ≠ 0 then { kind := .els, pc := target g (cT1 iw), mask := f } :: j :: g.stack else j :: g.stack, act := t, pc := g.pc + 8 }

theorem split_completes (h : ControlRuns s.dev iw true true g) (hst : g.stack.length + 2 ≤ 32) {t f : BitVec 32} (ht : t = g.act &&& predMask g iw)
    (hf : f = g.act &&& ~~~(predMask g iw)) :
    Completes (.split iw) s (countIssue (putGroup (condPoison s.dev iw g) iw (splitGroup g iw t f)) iw 4 g) := by
  subst ht hf
  refine issued_completes (F := doSplit) rfl rfl h.1 ?_
  have hroom : ¬stackCap < g.stack.length + if g.act &&& predMask g iw ≠ 0 ∧ g.act &&& ~~~(predMask g iw) ≠ 0 then 2 else 1 := by
    unfold stackCap
    split <;> omega
  dsimp only
  rw [h.2, Bool.not_true, if_neg Bool.false_ne_true, if_neg hroom, splitGroup]
  split <;> rfl

theorem join_completes (h : ControlRuns s.dev iw false false g) (hon : execOnce g iw = true) {act : BitVec 32} {pc : Word} {st : List StackEntry}
    (hp : popNext g.live g.stack = some (act, pc, st)) :
    Completes (.join iw) s (countIssue (putGroup s.dev iw { g with act := act, pc := pc, stack := st }) iw 4 g) :=
  issued_completes (F := doJoin) rfl rfl h.1 (by simp [h.2, hon, hp, applyPop])

theorem loop_completes (h : ControlRuns s.dev iw true false g) (hon : execOnce g iw = true) (hst : g.stack.length < 32) :
    Completes (.loop iw) s
      (countIssue (putGroup s.dev iw { g with stack := { kind := .loop, pc := target g (cT1 iw), mask := g.act } :: g.stack, pc := g.pc + 8 }) iw 4 g) :=
  issued_completes (F := doLoop) rfl rfl h.1 (by simp [h.2, hon, stackCap, Nat.not_le.mpr hst])

/-- BREAK that leaves lanes active. -/
theorem breakI_goes_on (h : ControlRuns s.dev iw false false g) (hloop : g.stack.any (fun e => e.kind == .loop) = true) {b : BitVec 32}
    (hb : b = g.act &&& predMask g iw) (hact : g.act &&& ~~~b ≠ 0) :
    Completes (.breakI iw) s
      (countIssue (putGroup (condPoison s.dev iw g) iw { g with stack := maskToLoop b g.stack, act := g.act &&& ~~~b, pc := g.pc + 8 }) iw 4 g) := by
  subst hb
  refine issued_completes (F := doBreak) rfl rfl h.1 ?_
  dsimp only
  rw [h.2, hloop, if_neg (by decide), if_neg (by decide), if_pos hact]

/-- BREAK of the last active lanes pops to its loop's entry. -/
theorem breakI_pops (h : ControlRuns s.dev iw false false g) (hloop : g.stack.any (fun e => e.kind == .loop) = true) {b : BitVec 32}
    (hb : b = g.act &&& predMask g iw) (hact : g.act &&& ~~~b = 0) {act : BitVec 32} {pc : Word} {st : List StackEntry}
    (hp : popToLoop g.live (maskToLoop b g.stack) = some (act, pc, st)) :
    Completes (.breakI iw) s (countIssue (putGroup (condPoison s.dev iw g) iw { g with act := act, pc := pc, stack := st }) iw 4 g) := by
  subst hb
  refine issued_completes (F := doBreak) rfl rfl h.1 ?_
  dsimp only
  rw [h.2, hloop, if_neg (by decide), if_neg (by decide), if_neg (not_not_intro hact), hp]
  rfl

theorem exit_ends (h : ControlRuns s.dev iw false false g) (hon : execOnce g iw = true) (hl : g.live &&& ~~~g.act = 0) :
    Completes (.exit iw) s
      (countIssue (pokeCore (blockEnd (putGroup s.dev iw { g with live := 0, act := 0, hold := .exited, stack := [], pend := none, arr := 0 }) iw.core iw.slot) iw.core) iw 4 g) :=
  issued_completes (F := doExit) rfl rfl h.1 (by simp [h.2, hon, hl])

theorem exit_pops (h : ControlRuns s.dev iw false false g) (hon : execOnce g iw = true) (hl : g.live &&& ~~~g.act ≠ 0) (hpend : g.pend = none)
    {act : BitVec 32} {pc : Word} {st : List StackEntry} (hp : popNext (g.live &&& ~~~g.act) g.stack = some (act, pc, st)) :
    Completes (.exit iw) s
      (countIssue (safePoint (putGroup s.dev iw { g with live := g.live &&& ~~~g.act, act := act, pc := pc, stack := st }) iw) iw 4 g) := by
  refine issued_completes (F := doExit) rfl rfl h.1 ?_
  dsimp only
  rw [h.2, hon, if_neg (by decide), if_neg (by decide), if_neg hl, hpend, hp]
  rfl

theorem tokenWait_completes (h : ControlRuns s.dev iw false true g) (hm : cT2 iw < 2 ^ 16 - 1) (hon : execOnce g iw = true)
    (htok : (bitsOf 16 (cT2 iw)).any (fun k => tabGet (fun _ => 0) g.tok k != 0) = false) :
    Completes (.tokenWait iw) s (countIssue (putGroup s.dev iw g.next) iw 4 g) := by
  have h1 : ¬2 ^ 16 ≤ cT2 iw := by omega
  have h2 : cT2 iw ≠ 0xFFFF := by omega
  refine issued_completes (F := doTokenWait) rfl rfl h.1 ?_
  dsimp only
  rw [h.2, hon, htok, decide_eq_false h1, if_neg (by decide), if_neg (by decide), if_neg (by decide), if_neg h2]
  rfl

theorem trap_completes (h : ControlRuns s.dev iw false false g) (hon : execOnce g iw = true) :
    Completes (.trap iw) s (countIssue (if debugOn s.dev then whoaStop (putGroup s.dev iw g.next) 2 else raiseExc s.dev iw.core iw.slot 0x0A) iw 4 g) :=
  issued_completes (F := doTrap) rfl rfl h.1 (by simp [h.2, hon, skip])

end

/-- Settles O38: each row by its own lemma. -/
theorem controlCompletes : Obligations.ControlCompletes := by
  unfold Obligations.ControlCompletes
  refine ⟨fun s iw g h => nop_completes h, fun s iw g h => ⟨fun ht => ?_, fun ht hact => ?_⟩,
    fun s iw g t f j h ht hf hj hst => ⟨fun h0 => ?_, fun h0 h1 => ?_, fun h0 h1 => ?_⟩, fun s iw g act pc st h hon hp => join_completes h hon hp,
    fun s iw g h hon hst => loop_completes h hon hst,
    fun s iw g b h hloop hb => ⟨fun hact => breakI_goes_on h hloop hb hact, fun act pc st hact hp => breakI_pops h hloop hb hact hp⟩,
    fun s iw g h hon => ⟨fun hl => exit_ends h hon hl, fun act pc st hl hpend hp => exit_pops h hon hl hpend hp⟩,
    fun s iw g h hm hon htok => tokenWait_completes h hm hon htok, fun s iw g h hon => ⟨fun hd => ?_, fun hd => ?_⟩⟩
  · have hc := bra_completes h rfl (.inl ht)
    rwa [if_pos ht] at hc
  · have hc := bra_completes h rfl (.inr ht)
    rwa [if_neg (by rwa [ht])] at hc
  · have hc := split_completes h hst ht hf
    rwa [splitGroup, if_pos h0, ← hj] at hc
  · have hc := split_completes h hst ht hf
    rwa [splitGroup, if_neg h0, if_neg (not_not_intro h1), ← hj] at hc
  · have hc := split_completes h hst ht hf
    rwa [splitGroup, if_neg h0, if_pos h1, ← hj] at hc
  · have hc := trap_completes h hon
    rwa [hd, if_neg Bool.false_ne_true] at hc
  · have hc := trap_completes h hon
    rwa [hd, if_pos rfl] at hc

/-! ## Pops of the reconvergence stack (R158) -/

/-- A pop goes to the topmost entry with live lanes, past entries with none. -/
theorem popNext_some {live act : BitVec 32} {pc : Word} {st' : List StackEntry} (st : List StackEntry) (h : popNext live st = some (act, pc, st')) :
    ∃ dropped e, st = dropped ++ e :: st' ∧ act = e.mask &&& live ∧ act ≠ 0 ∧ pc = e.pc ∧ ∀ x ∈ dropped, x.mask &&& live = 0 := by
  induction st with
  | nil => cases h
  | cons e t ih =>
    rw [popNext] at h
    split at h
    · next h0 =>
      obtain ⟨dropped, e', rfl, hact, hne, hpc, hd⟩ := ih h
      exact ⟨e :: dropped, e', rfl, hact, hne, hpc, List.forall_mem_cons.mpr ⟨h0, hd⟩⟩
    · next h0 =>
      cases h
      exact ⟨[], e, rfl, rfl, h0, rfl, fun _ hx => nomatch hx⟩

/-- Lanes of an entry that are live are live. -/
theorem and_and_not_self (m live : BitVec 32) : m &&& live &&& ~~~live = 0 := by
  simp [BitVec.and_assoc]

theorem popNext_live {live act : BitVec 32} {pc : Word} {st st' : List StackEntry} (h : popNext live st = some (act, pc, st')) :
    act ≠ 0 ∧ act &&& ~~~live = 0 ∧ st'.length < st.length := by
  obtain ⟨dropped, e, rfl, rfl, hne, -, -⟩ := popNext_some st h
  refine ⟨hne, and_and_not_self _ _, ?_⟩
  simp only [List.length_append, List.length_cons]
  omega

theorem popToLoop_live {live act : BitVec 32} {pc : Word} {st' : List StackEntry} (st : List StackEntry) (h : popToLoop live st = some (act, pc, st')) :
    act ≠ 0 ∧ act &&& ~~~live = 0 ∧ st'.length < st.length := by
  induction st with
  | nil => cases h
  | cons e t ih =>
    rw [popToLoop] at h
    split at h
    · split at h
      · obtain ⟨hne, hlive, hlen⟩ := popNext_live h
        exact ⟨hne, hlive, Nat.lt_succ_of_lt hlen⟩
      · next h0 =>
        cases h
        exact ⟨h0, and_and_not_self _ _, Nat.lt_succ_self _⟩
    · obtain ⟨hne, hlive, hlen⟩ := ih h
      exact ⟨hne, hlive, Nat.lt_succ_of_lt hlen⟩

/-- R158: SPLIT parts the active lanes between those that go on and those it pushes. -/
theorem splitGroup_parts (g : Group) (iw : IWord) (p : BitVec 32) (hact : g.act ≠ 0) :
    ∃ pushed, (splitGroup g iw (g.act &&& p) (g.act &&& ~~~p)).stack = pushed ++ { kind := .join, pc := target g (cT2 iw), mask := g.act } :: g.stack
      ∧ (splitGroup g iw (g.act &&& p) (g.act &&& ~~~p)).act ≠ 0
      ∧ (splitGroup g iw (g.act &&& p) (g.act &&& ~~~p)).act ||| (pushed.map (fun e => e.mask)).foldl (· ||| ·) 0 = g.act
      ∧ (splitGroup g iw (g.act &&& p) (g.act &&& ~~~p)).act &&& (pushed.map (fun e => e.mask)).foldl (· ||| ·) 0 = 0 := by
  have hall : g.act &&& p ||| g.act &&& ~~~p = g.act := by rw [← BitVec.and_or_distrib_left, BitVec.or_not_self, BitVec.and_allOnes]
  have hnone : g.act &&& p &&& (g.act &&& ~~~p) = 0 := by ext; simp; tauto
  by_cases ht : g.act &&& p = 0
  · have hall : g.act &&& ~~~p = g.act := by simpa [ht] using hall
    rw [splitGroup, if_pos ht, hall]
    exact ⟨[], rfl, hact, BitVec.or_zero, BitVec.and_zero⟩
  · by_cases hf : g.act &&& ~~~p = 0
    · have hall : g.act &&& p = g.act := by simpa [hf] using hall
      rw [splitGroup, if_neg ht, if_neg (not_not_intro hf), hall]
      exact ⟨[], rfl, hact, BitVec.or_zero, BitVec.and_zero⟩
    · rw [splitGroup, if_neg ht, if_pos hf]
      refine ⟨[{ kind := .els, pc := target g (cT1 iw), mask := g.act &&& ~~~p }], rfl, ht, ?_⟩
      rw [List.map_singleton, List.foldl_cons, List.foldl_nil, show ∀ x : BitVec 32, 0 ||| x = x from fun _ => BitVec.zero_or]
      exact ⟨hall, hnone⟩

theorem getGroup_putGroup (s : Dev) (iw : IWord) (g : Group) : getGroup (putGroup s iw g) iw.core iw.slot = some g :=
  getGroup_setGroup_same s iw.core iw.slot (some g)

/-- Settles O21: what the pops of the stack find, and how SPLIT parts the lanes. -/
theorem popsGiveLiveLanes : Obligations.PopsGiveLiveLanes := by
  unfold Obligations.PopsGiveLiveLanes
  refine ⟨fun s iw g act pc st h hon hp => ?_, fun s t iw g h hst hact ht => ?_, fun live st st' act pc h => popToLoop_live st h⟩
  · obtain ⟨hne, hlive, hlen⟩ := popNext_live hp
    obtain ⟨dropped, e, hst, he, -, hpc, hd⟩ := popNext_some _ hp
    exact ⟨join_completes h hon hp, hne, hlive, hlen, dropped, e, hst, he, hpc, hd⟩
  · cases ht.symm.trans (split_completes h hst rfl rfl)
    obtain ⟨pushed, hstack, hne, hor, hand⟩ := splitGroup_parts g iw (predMask g iw) hact
    exact ⟨_, pushed, by rw [getGroup_countIssue, getGroup_putGroup], hstack, hne, hor, hand⟩

/-! ## Instructions guarded off (R154) -/

/-- An issue whose effect, guarded off, is to skip. -/
theorem guardedOff {s : State} {iw : IWord} {g : Group} {code : Nat} {vs ss : List Nat} {c : IWord → Instr} {F : IWord → Dev → Dev} {f : Dev → Group → Dev}
    (h0 : execMask g iw = 0) (he : exec (c iw) s = upd s (F iw)) (hF : F iw s.dev = issue s.dev iw code vs ss f) (hi : Issues s.dev iw vs ss g)
    (hf : execOnce g iw = false → f s.dev g = skip s.dev iw g) : Completes (c iw) s (countIssue (skip s.dev iw g) iw code g) :=
  issued_completes he hF hi (hf (execOnce_eq_false h0))

theorem guardedOffM {s : State} {iw : IWord} {g : Group} {code : Nat} {vs ss : List Nat} {c : IWord → Instr} {F : IWord → Dev → Dev} {f : Dev → Group → Dev}
    (h0 : execMask g iw = 0) (he : ∀ t : State, exec (c iw) t = updM t (F iw)) (hF : F iw s.dev = issue s.dev iw code vs ss f) (hi : Issues s.dev iw vs ss g)
    (hf : execOnce g iw = false → f s.dev g = skip s.dev iw g) : CompletesM (c iw) s (countIssue (skip s.dev iw g) iw code g) :=
  issued_completesM he hF hi (hf (execOnce_eq_false h0))

/-- Settles O15: each row, once legal, looks at its predicate before all else. -/
theorem guardedOffDoesNothing : Obligations.GuardedOffDoesNothing := by
  unfold Obligations.GuardedOffDoesNothing
  intro s iw g h0
  refine ⟨fun hi hl => ⟨?_, ?_, ?_⟩, fun hi hl => ?_, fun hi hl ht => ?_, fun hi => ⟨fun hl => ?_, fun hl => ?_, fun hl => ?_, fun hl => ?_⟩,
    fun hi hl => ⟨fun hsc hl1 => ?_, fun hsc hl1 hd => ?_⟩, fun hr hsd => ⟨fun hi => ?_, fun hi => ?_, fun hi => ?_⟩, fun hi hr h1 h2 hsc => ?_,
    fun hi hr hsc h2 h1 => ?_, fun hi hr hsc h1 h2 => ?_, fun hi hr => ?_⟩
  · exact guardedOff (F := doJoin) h0 rfl rfl hi (fun hoff => by simp [hl, hoff])
  · exact guardedOff (F := doExit) h0 rfl rfl hi (fun hoff => by simp [hl, hoff])
  · exact guardedOff (F := doTrap) h0 rfl rfl hi (fun hoff => by simp [hl, hoff])
  · exact guardedOff (F := doLoop) h0 rfl rfl hi (fun hoff => by simp [hl, hoff])
  · exact guardedOff (F := doTokenWait) h0 rfl rfl hi (fun hoff => by simp [hl, hoff, show ¬65536 ≤ cT2 iw from Nat.not_le.mpr ht])
  · exact guardedOff (F := fun iw => doFence iw 1 true false) h0 rfl rfl hi (fun hoff => by simp [hl, hoff])
  · exact guardedOff (F := fun iw => doFence iw 2 false true) h0 rfl rfl hi (fun hoff => by simp [hl, hoff])
  · exact guardedOff (F := fun iw => doFence iw 3 true true) h0 rfl rfl hi (fun hoff => by simp [hl, hoff])
  · exact guardedOff (F := doBar) h0 rfl rfl hi (fun hoff => by simp [hl, hoff])
  · exact guardedOffM (F := doLds) h0 (fun _ => rfl) rfl hi (fun hoff => by simp [hl, hsc, hl1, hoff])
  · exact guardedOffM (F := doSts) h0 (fun _ => rfl) rfl hi (fun hoff => by simp [hl, hsc, hl1, hd, hoff])
  · exact guardedOff (F := doMx 1) h0 rfl rfl hi (fun hoff => by simp [hr, hsd, hoff])
  · exact guardedOff (F := doMx 2) h0 rfl rfl hi (fun hoff => by simp [hr, hsd, hoff])
  · exact guardedOff (F := doMx 3) h0 rfl rfl hi (fun hoff => by simp [hr, hsd, hoff])
  · exact guardedOffM (F := doDma) h0 (fun _ => rfl) rfl hi (fun hoff => by simp [hr, h1, h2, hsc, hoff])
  · exact guardedOff (F := doFload) h0 rfl rfl hi (fun hoff => by simp [hr, hsc, h2, h1, hoff])
  · exact guardedOff (F := doFswap) h0 rfl rfl hi (fun hoff => by simp [hr, hsc, h2, h1, hoff])
  · exact guardedOff (F := doFrun) h0 rfl rfl hi (fun hoff => by simp [hr, hoff])

end Sys2Proof.Machine

/-! PROOF. Where accesses to memory, fences and barriers complete (O39, O40, O41). -/

namespace Sys2Proof.Machine

open Sys2Proof

/-! ## What each access does where it goes out -/

section

variable {s s1 s3 : Dev} {iw : IWord} {g : Group} {l : List LaneAcc}

theorem startLoad_goes {sh : LoadShape} {la : List (Nat × Nat)} (pz : Nat → Bool) (busyV busyS : List Nat) (h : LoadGoes s iw g sh la s1 l) :
    startLoad s iw g sh la pz busyV busyS = loadEffect iw g sh pz busyV busyS s1 l := by
  obtain ⟨hne, hres, htrk, hcred, htso, hsb⟩ := h
  unfold startLoad
  split
  · exact absurd rfl hne
  · simp only [hres, htrk, hcred, htso, hsb, Bool.not_true, Bool.false_eq_true, if_false]
    rfl

theorem startStore_goes {size scope : Nat} {release : Bool} {la : List (Nat × Nat)} {val : Nat → Nat} {pz : Nat → Bool} {m : BitVec 32}
    (h : StoreGoes s iw g size scope release la val pz s1 s3 l m) : startStore s iw g size scope release la val pz = storeEffect iw g pz s3 l m := by
  obtain ⟨hne, hst, hres, htrk, hrel, hbuf, hm, hall⟩ := h
  have hrel : (if release then releaseWait s1 iw.core iw.slot scope g else .done) = RelWait.done := by
    cases release with
    | false => rfl
    | true => exact hrel rfl
  have hnew : la.filter (fun x => !(0 : BitVec 32).getLsbD x.1) = la := by simp
  have hels : (l.map (fun a => { acc := a, val := val a.lane, poison := pz a.lane : StoreElem })).any (fun e => e.poison && m.getLsbD e.acc.lane)
      = l.any (fun a => pz a.lane && m.getLsbD a.lane) := List.any_map
  unfold startStore
  dsimp only
  rw [hst, hnew]
  split
  · exact absurd rfl hne
  · simp only [hres, htrk, beq_self_eq_true, Bool.and_true, hrel, hbuf, hels, hm, hall, if_true, if_false, Bool.false_eq_true]
    rfl

theorem startAtom_goes {kind : ReqKind} {write : Bool} (busyV : List Nat) (h : AtomGoes s iw g write s1 l) :
    startAtom s iw g kind (iVD iw) busyV write = atomEffect iw g kind busyV s1 l := by
  obtain ⟨hne, hres, htrk, hcred, htso, hsb, hrel⟩ := h
  have hrel : (if aORD iw / 2 = 1 then releaseWait s1 iw.core iw.slot (aSCOPE iw) g else .done) = RelWait.done := by
    split
    · next ho => exact hrel ho
    · rfl
  have htso : (tso s1 && !((getCore s1 iw.core).sb.isEmpty)) = false := by
    cases ht : tso s1 with
    | false => rfl
    | true => simp [htso ht]
  unfold startAtom
  dsimp only
  split
  · next h0 => exact absurd h0 hne
  · simp only [hres, htrk, hcred, htso, hsb, hrel, Bool.not_true, Bool.false_eq_true, if_false]
    rfl

end

/-- Settles O39: a legal access that nothing holds starts its load or store. -/
theorem globalAccessesComplete : Obligations.GlobalAccessesComplete := by
  unfold Obligations.GlobalAccessesComplete
  refine ⟨fun s iw g sh d l hi hl hm hsh hgo => ?_, fun s iw g sh d l hi hl hsc hl1 hon hm hsh hgo => ?_,
    fun s iw g d d3 l m pz hi hl hx hsc hl1 hd hm hpz hgo => ?_, fun s iw g d d3 l m pz hi hl hsc hl1 hd hon hm hpz hgo => ?_⟩
  · refine issued_completesM (F := doLd) (fun _ => rfl) rfl hi ?_
    simp only [hl, hm, ← hsh, Bool.not_true, Bool.false_eq_true, if_false]
    exact startLoad_goes _ _ _ hgo
  · refine issued_completesM (F := doLds) (fun _ => rfl) rfl hi ?_
    simp only [hl, hsc, decide_eq_false (Nat.not_le.mpr hl1), hon, hm, ← hsh, Bool.not_true, Bool.or_false, Bool.false_eq_true, if_false]
    exact startLoad_goes _ _ _ hgo
  · refine issued_completesM (F := doSt) (fun _ => rfl) rfl hi ?_
    simp only [hl, hx, hsc, hl1, hd, hm, ← hpz, beq_self_eq_true, Bool.and_true, Bool.not_true, Bool.false_eq_true, if_false]
    exact startStore_goes hgo
  · refine issued_completesM (F := doSts) (fun _ => rfl) rfl hi ?_
    simp only [hl, hsc, hl1, hd, hon, hm, ← hpz, bne_self_eq_false, Bool.not_true, Bool.or_false, Bool.false_eq_true, if_false]
    exact startStore_goes hgo

/-- Settles O40: local accesses act at once, and the global ones start. -/
theorem localAndAtomicComplete : Obligations.LocalAndAtomicComplete := by
  unfold Obligations.LocalAndAtomicComplete
  refine ⟨fun s iw g g2 b l pz hi hl hlm hm hb ha hf hpz => ?_, fun s iw g b l hi hl hlm hx hm hb ha hpz => ?_,
    fun s iw g g2 b c l fl hi hl hm hsp hb ha hat => ?_, fun s iw g d l hi hl hm hsp hgo => ?_, fun s iw g d l hi hl hm hgo => ?_,
    fun s iw g d l hi hl hm hgo => ?_⟩
  · refine issued_completes (F := doLdl) rfl rfl hi ?_
    simp only [hl, hlm, hm, hb, ha, hf, hpz, Bool.and_true, Bool.not_true, Bool.false_eq_true, if_false]
  · refine issued_completes (F := doStl) rfl rfl hi ?_
    simp only [hl, hlm, hx, hm, hb, ha, hpz, beq_self_eq_true, Bool.and_true, Bool.not_true, Bool.false_eq_true, if_false]
    rfl
  · refine issued_completesM (F := doAtom) (fun _ => rfl) rfl hi ?_
    simp only [hl, hm, hsp, atomLocal, hb, ha, hat, Bool.not_true, Bool.false_eq_true, if_false, if_true]
  · refine issued_completesM (F := doAtom) (fun _ => rfl) rfl hi ?_
    simp only [hl, hm, hsp, Bool.not_true, Bool.false_eq_true, if_false]
    exact startAtom_goes _ hgo
  · refine issued_completesM (F := doLdr) (fun _ => rfl) rfl hi ?_
    simp only [hl, hm, Bool.not_true, Bool.false_eq_true, if_false]
    exact startAtom_goes _ hgo
  · refine issued_completesM (F := doStc) (fun _ => rfl) rfl hi ?_
    simp only [hl, hm, Bool.not_true, Bool.false_eq_true, if_false]
    exact startAtom_goes _ hgo

/-! ## Fences and barriers (R187 to R196) -/

/-- A fence that has nothing to wait for goes on. -/
theorem fence_done {s : State} {iw : IWord} {g : Group} {c : IWord → Instr} {kind : Nat} {l st : Bool} {d : Dev}
    (he : exec (c iw) s = upd s (doFence iw kind l st)) (hi : Issues s.dev iw [] [] g) (hon : execOnce g iw = true)
    (htok : yASYNC iw = 1 → g.tok.any (fun e => e.2 != 0) = false) (hl : fenceLegal iw kind = true)
    (hd : d = if st && ySCOPE iw != 0 then sealFor s.dev iw.core else s.dev) (hrel : st = true → releaseWait d iw.core iw.slot (ySCOPE iw) g = .done)
    (hret : l = true → loadsReturned d iw.core iw.slot = true) :
    Completes (c iw) s (countIssue (putGroup (if l && ySCOPE iw != 0 then l1Flash d iw.core else d) iw g.next) iw 2 g) := by
  have htok : ¬(yASYNC iw = 1 ∧ g.tok.any (fun e => e.2 != 0) = true) := fun h => by simp [htok h.1] at h
  have hrel : (if st then releaseWait d iw.core iw.slot (ySCOPE iw) g else .done) = RelWait.done := by
    cases st with
    | false => rfl
    | true => exact hrel rfl
  have hret : (l && !loadsReturned d iw.core iw.slot) = false := by
    cases l with
    | false => rfl
    | true => simp [hret rfl]
  refine issued_completes (F := fun iw => doFence iw kind l st) he rfl hi ?_
  simp only [hl, hon, if_neg htok, ← hd, hrel, hret, Bool.not_true, Bool.false_eq_true, if_false]
  rfl

/-- Settles O41: fences and barriers that have nothing left to wait for. -/
theorem synchronisationCompletes : Obligations.SynchronisationCompletes := by
  unfold Obligations.SynchronisationCompletes
  refine ⟨fun s iw g d hi hon htok hd => ⟨fun hl hret => ?_, fun hl hrel => ?_, fun hl hrel hret => ?_⟩,
    fun s iw g hi hl hon hpend harr hrel hmark => ?_, fun s core slot g scope bid since atExit ps hw hg hh hps hsaved hall => ?_,
    fun s core slot g c scope bid since atExit hw hg hc hh => ?_⟩
  · exact fence_done (l := true) (st := false) rfl hi hon htok hl rfl (fun h => nomatch h) (fun _ => hret)
  · exact fence_done (l := false) (st := true) rfl hi hon htok hl hd (fun _ => hrel) (fun h => nomatch h)
  · exact fence_done (l := true) (st := true) rfl hi hon htok hl hd (fun _ => hrel) (fun _ => hret)
  · refine issued_completes (F := doBar) rfl rfl hi ?_
    have hpend : (g.pend.isSome && g.pend != some (ySCOPE iw, yBID iw)) = false := by rcases hpend with h | h <;> simp [h]
    simp only [hl, hon, hpend, harr, hrel, hmark, Bool.not_true, Bool.false_eq_true, if_false, if_true]
  · have he : exec (.barrierComplete core slot) s = upd s (doBarrierComplete core slot) := rfl
    rw [Completes, he, upd_next, doBarrierComplete]
    simp only [hw, hg, hh, ← hps, hall, hsaved, List.isEmpty_nil, Bool.and_true, Bool.false_eq_true, if_false, if_true]
  · have he : exec (.barrierWatchdog core slot) s = upd s (doBarrierWatchdog core slot) := rfl
    rw [Completes, he, upd_next, doBarrierWatchdog]
    rcases hh with hh | hh <;> simp only [hw, hg, hc, hh, Bool.false_eq_true, if_false]

end Sys2Proof.Machine

/-! PROOF. Where requests at their homes, the store buffer and the coherent system complete (O42, O43, O44). -/

namespace Sys2Proof.Machine

open Sys2Proof

/-! ## Requests at their homes -/

/-- A home that finds nothing wrong acts (R318). -/
theorem homeStep_ok (core : Nat) (at' : Dev → Option (Nat × PageAttr)) {op : Dev → Dev} {s : Dev} (hw : whoaStopped s = false) :
    homeStep .ok core at' op s = op s := by
  have hok (line : Nat) (attr : PageAttr) : homeFaultEff .ok core line attr s = s := by
    unfold homeFaultEff
    split <;> rfl
  simp only [homeStep, hw, hok, Bool.false_eq_true, if_false, bne_self_eq_false, Bool.false_and]
  split <;> rfl

section

variable {s : Dev} {core id home : Nat} {r : MemReq}

/-- A read that reaches its home is served there, or its home looks for it further (R291). -/
theorem doHomeRead_reaches (h : ReadReaches s core id home r) :
    doHomeRead core id s = if readMisses s core r home then joinMiss s core r home else serveRead s core r := by
  obtain ⟨⟨hw, hr, hserved, hwaiting, hplace, hhome, htags⟩, hload, hbehind, hshut⟩ := h
  have hpg : pgHeld s (r.line * 512) = false := by simp only [lineShut, Bool.or_eq_false_iff] at hshut; exact hshut.1.1.2
  simp [doHomeRead, hw, hr, hload, hserved, hwaiting, hpg, hbehind, hplace, hhome, hshut, htags]

theorem missFull_eq_false_of_room (line : Nat) (h : (s.ms.misses.filter (fun m => m.slice == home)).length < 256) : missFull s home line = false := by
  simp [missFull, Nat.not_le.mpr h]

theorem joinMiss_opens (h : s.ms.misses.find? (fun m => m.slice == home && m.line == r.line) = none) (hroom : missFull s home r.line = false) :
    joinMiss s core r home = modReq (modMs s (fun x => { x with misses := x.misses ++ [openMiss home r r.sectors [.core core r.id]] })) core r.id (fun r => { r with waiting := true }) := by
  simp only [joinMiss, h, hroom, Bool.false_eq_true, if_false]
  rfl

theorem joinMiss_joins {m : MissEntry} (h : s.ms.misses.find? (fun m => m.slice == home && m.line == r.line) = some m)
    (hroom : m.reqs.length + (s.ms.redQ.filter (fun q => q.home == home && q.line == r.line)).length < 64) :
    joinMiss s core r home =
      modReq (modMs s (fun x => { x with misses := updFirst (fun m => m.slice == home && m.line == r.line) (fun m => { m with reqs := m.reqs ++ [.core core r.id] }) x.misses }))
        core r.id (fun r => { r with waiting := true }) := by
  simp only [joinMiss, h, Nat.not_le.mpr hroom, if_false]

/-- An operation that reaches its home is placed there (R301). -/
theorem doHomeAtomic_reaches (h : AtomReaches s core id home r) : doHomeAtomic core id s = placeAtom s core home r := by
  obtain ⟨⟨hw, hr, hserved, hwaiting, hplace, hhome, htags⟩, hload, hbehind, hpg, hdrop, hheld, hdead, -, -⟩ := h
  simp only [doHomeAtomic, hw, hr, hload, hserved, hwaiting, hpg, hbehind, hplace, hhome, htags, hdrop, hheld, hdead,
    Bool.or_false, Bool.false_eq_true, Bool.true_eq_false, or_false, if_false]

/-- The placement table decides where the operation is performed (R301). -/
theorem placeAtom_reaches (h : AtomReaches s core id home r) :
    (rmwPlace s home r.line r.attr (opKind r) r.sectors = .adder → placeAtom s core home r = queueAdder s core home r)
      ∧ (rmwPlace s home r.line r.attr (opKind r) r.sectors = .fill → placeAtom s core home r = queueFill s core home r)
      ∧ (rmwPlace s home r.line r.attr (opKind r) r.sectors = .held ∨ rmwPlace s home r.line r.attr (opKind r) r.sectors = .drop →
        placeAtom s core home r = performAtom cohRmw s core r) := by
  obtain ⟨-, -, -, -, -, -, -, htag, hroom⟩ := h
  refine ⟨fun hp => ?_, fun hp => ?_, fun hp => ?_⟩
  · simp only [placeAtom, htag, Nat.not_lt.mpr hroom, if_false, hp]
  · simp only [placeAtom, htag, Nat.not_lt.mpr hroom, if_false, hp]
  · rcases hp with hp | hp <;> simp only [placeAtom, htag, Nat.not_lt.mpr hroom, if_false, hp]

/-- An operation that opens its line's miss is queued on the fill (R302). -/
theorem queueFill_opens (h : s.ms.misses.find? (fun m => m.slice == home && m.line == r.line) = none) (hroom : missFull s home r.line = false) :
    queueFill s core home r =
      modReq (modMs (pinFor (modMs s (fun x => { x with misses := x.misses ++ [openMiss home r 255 []] })) home r) (fun x => { x with redQ := x.redQ ++ [redOpOf core home r] }))
        core r.id (fun r => { r with waiting := true }) := by
  simp only [queueFill, h, hroom, Bool.false_eq_true, if_false]
  rfl

end

/-! ## Misses that are filled -/

section

variable {s d1 d2 : Dev} {m : MissEntry} {held : List HeldOp} {ops : List RedOp} {live : List (Nat × MemReq)}

/-- The device as a fill finds it: what the home holds at the line is taken, and the miss and its queued operations are gone. -/
def FillStarts (s d1 d2 : Dev) (m : MissEntry) (held : List HeldOp) (ops : List RedOp) (live : List (Nat × MemReq)) : Prop :=
  ops = s.ms.redQ.filter (fun q => q.home == m.slice && q.line == m.line) ∧ takeHeld s m.slice m.line = (d1, held)
    ∧ d2 = setPin (modMs d1 (fun x => { x with misses := x.misses.filter (fun e => !(e.slice == m.slice && e.line == m.line)), redQ := x.redQ.filter (fun q => !(q.home == m.slice && q.line == m.line)) })) m.slice m.line 0
    ∧ live = m.reqs.filterMap (fun q => match q with
      | .core c i => (getReq d2 c i).map (fun r => (c, r)))

/-- A fill that no request waits for installs the line. -/
theorem fillServe_idle (h : FillStarts s d1 d2 m held [] []) :
    fillServe s m = settleDrains (releaseHeld (cohRead d2 none m.tag (m.line * 512) m.attr m.sectors .demand).1 m.slice m.line held) := by
  obtain ⟨hops, htake, rfl, hlive⟩ := h
  simp only [fillServe, htake, ← hops, ← hlive, List.isEmpty_nil, Bool.and_self, if_true, List.foldl_nil]

/-- A fill serves its readers, then the operations queued on its line (R292). -/
theorem fillServe_serves (h : FillStarts s d1 d2 m held ops live) (hne : live ≠ [] ∨ ops ≠ []) :
    fillServe s m = settleDrains (releaseHeld (ops.foldl (fun s q => match getReq s q.core q.req with
        | some r => performAtom cohRmw s q.core r
        | none => s)
      (live.foldl (fun s q => serveRead s q.1 q.2) ((live.drop 1).foldl (fun s q => countRegion s (coreRegion q.1) (if isFar (512 * m.line) then 0x44 else 0x43) 1) d2))) m.slice m.line held) := by
  obtain ⟨hops, htake, rfl, hlive⟩ := h
  have hempty : (live.isEmpty && ops.isEmpty) = false := by
    rcases hne with h | h <;> simp [h]
  simp only [fillServe, htake, ← hops, ← hlive, hempty, Bool.false_eq_true, if_false] <;> rfl

end

/-- The data of a miss arrives: it is filled, under the tier's answer (R391, R395). -/
theorem doMissFill_fills {s : Dev} {slice line : Nat} {m : MissEntry} (hw : whoaStopped s = false)
    (hm : s.ms.misses.find? (fun m => m.slice == slice && m.line == line) = some m)
    (hsleep : isNear (m.backing * 512) = true → s.pw.sleeping.getLsbD (nField (m.backing * 512) 39 37) = false) (hadd : adderPending s line = false) :
    doMissFill slice line s = fillServe s m := by
  have hawake : (isNear (m.backing * 512) && s.pw.sleeping.getLsbD (nField (m.backing * 512) 39 37)) = false := by
    cases hn : isNear (m.backing * 512) with
    | false => rfl
    | true => simp [hsleep hn]
  simp only [doMissFill, hw, hm, hawake, hadd, Bool.or_self, Bool.false_eq_true, if_false]

/-- The answer of a read or an operation, once it is known. -/
theorem serveRead_eq {s d : Dev} {core : Nat} {r : MemReq} {a : RdRes} (h : lineRead s core r.tag (r.line * 512) r.attr r.sectors = (d, a)) :
    serveRead s core r = answerRead d core r a := by
  simp only [serveRead, h]

theorem performAtom_eq {rmw : RmwFn} {s d : Dev} {core : Nat} {r : MemReq} {a : AtomRes} (h : atomServe rmw s core r.tag r = (d, a)) :
    performAtom rmw s core r = answerAtom d core r a := by
  simp only [performAtom, h]

/-- Settles O42: a request that reaches its home is served or queued there, and an answered load writes its registers. -/
theorem homeRequestsComplete : Obligations.HomeRequestsComplete := by
  unfold Obligations.HomeRequestsComplete
  refine ⟨fun s core id home r h => ⟨fun d a hhit hread => ?_, fun hmiss hnone hroom => ?_, fun m hmiss hsome hroom => ?_⟩,
    fun s slice line resp d d1 d2 m held ops live hw hd hm hsleep hadd hops htake hd2 hlive => ⟨fun hl ho => ?_, fun hne => ?_⟩,
    fun s core id home r h => ⟨fun hp => ?_, fun hp hnone hroom => ?_, fun d a hp hserve => ?_⟩,
    fun s core id r q d d2 a hw hr hq hcore hreq hnear hd hserve => ?_,
    fun s core id r d d2 rs hw hr hserved hret hd hrs hall hd2 => ?_⟩
  · refine completesM (fun _ => rfl) ((homeStep_ok _ _ h.1.1).trans ?_)
    rw [doHomeRead_reaches h, hhit, if_neg Bool.false_ne_true, serveRead_eq hread]
  · refine completesM (fun _ => rfl) ((homeStep_ok _ _ h.1.1).trans ?_)
    rw [doHomeRead_reaches h, hmiss, if_pos rfl, joinMiss_opens hnone (missFull_eq_false_of_room _ hroom)]
  · refine completesM (fun _ => rfl) ((homeStep_ok _ _ h.1.1).trans ?_)
    rw [doHomeRead_reaches h, hmiss, if_pos rfl, joinMiss_joins hsome hroom]
  · subst hl ho
    have hw' : whoaStopped d = false := by rw [hd]; exact hw
    refine completesM (fun _ => rfl) ?_
    rw [withFlaw, flawIn, ← hd, doMissFill_fills hw' hm hsleep hadd, fillServe_idle ⟨hops, htake, hd2, hlive⟩]
    rfl
  · have hw' : whoaStopped d = false := by rw [hd]; exact hw
    refine completesM (fun _ => rfl) ?_
    rw [withFlaw, flawIn, ← hd, doMissFill_fills hw' hm hsleep hadd, fillServe_serves ⟨hops, htake, hd2, hlive⟩ hne]
    rfl
  · refine completesM (fun _ => rfl) ((homeStep_ok _ _ h.1.1).trans ?_)
    rw [doHomeAtomic_reaches h, (placeAtom_reaches h).1 hp]
    rfl
  · refine completesM (fun _ => rfl) ((homeStep_ok _ _ h.1.1).trans ?_)
    rw [doHomeAtomic_reaches h, (placeAtom_reaches h).2.1 hp, queueFill_opens hnone hroom]
  · refine completesM (fun _ => rfl) ((homeStep_ok _ _ h.1.1).trans ?_)
    rw [doHomeAtomic_reaches h, (placeAtom_reaches h).2.2 hp, performAtom_eq hserve]
  · refine completesM (f := withFlaw .none (doAdderOperation core id)) (fun _ => rfl) ?_
    rw [withFlaw_none, ← performAtom_eq hserve]
    simp only [doAdderOperation, hw, hr, hq, hcore, hreq, hnear, ← hd, ne_eq, not_true_eq_false, or_self, if_true, if_false, Bool.false_eq_true]
  · refine completesM (f := doLoadResponse core id) (fun _ => rfl) ?_
    simp only [doLoadResponse, hw, hr, hserved, hret, ← hd, ← hrs, hall, ← hd2, Bool.not_true, Bool.or_self, Bool.false_eq_true, if_false, if_true]

/-! ## The store buffer -/

/-- Settles O43: an entry that nothing holds back goes its way. -/
theorem storeBufferCompletes : Obligations.StoreBufferCompletes := by
  unfold Obligations.StoreBufferCompletes
  refine ⟨fun s core e hw he => ⟨fun hp hc => ?_, fun d hp ha => ?_⟩, fun s core seq e hw he hst => ?_,
    fun s core seq home e d hw he hst happ hpg hbehind hhome htags ha => ?_, fun s core seq e hw he hst happ hpeer => ?_⟩
  · refine completesM (f := doSbSend core) (fun _ => rfl) ?_
    simp only [doSbSend, hw, he, hp, hc, Bool.not_true, Bool.false_eq_true, if_false]
  · refine completesM (f := doSbSend core) (fun _ => rfl) ?_
    simp only [doSbSend, hw, he, Bool.false_eq_true, if_false]
    rw [applyEntry, ha]
  · have hx : exec (.sbOpenExpiry core seq) s = upd s (doSbOpenExpiry core seq) := rfl
    rw [Completes, hx, upd_next]
    simp only [doSbOpenExpiry, hw, he, hst, Bool.false_eq_true, if_false, if_true]
  · refine completesM (fun _ => rfl) ((homeStep_ok _ _ hw).trans ?_)
    simp only [doHomeWrite, hw, he, hst, happ, hpg, hbehind, hhome, htags, applyEntry, ha, ne_eq, not_true_eq_false, Bool.false_eq_true, or_self, if_false, if_true]
  · refine completesM (f := doSbAck core seq) (fun _ => rfl) ?_
    simp only [doSbAck, hw, he, hst, happ, hpeer, Bool.false_eq_true, if_false, and_self, if_true]

/-! ## The coherent system -/

/-- A 64-bit set-up write that reaches its register has its effect. -/
theorem setupWr_completes {c : Instr} {s : State} {port off : Nat} {data : Word} {eff : Dev → Dev} {d : Dev} (he : exec c s = upd s (setupWr port off data eff))
    (ht : SetupTaken s.dev port off) (hd : eff s.dev = d) : Completes c s d := by
  rw [Completes, he, upd_next, setupWr_taken data eff ht, hd]

/-- The fields of the CD_RANGE_CMD word of an operation. -/
theorem rangeWord_fields {op : Nat} (hop : op < 4) (tagsel : Bool) (tag : Fin 32) :
    (rangeWord op tagsel tag).getLsbD 0 = true ∧ fld (rangeWord op tagsel tag) 5 4 = op := by
  have hsel : tagsel.toNat ≤ 1 := Bool.toNat_le tagsel
  have htag := tag.isLt
  constructor
  · simp only [rangeWord, BitVec.getLsbD_ofNat, Nat.testBit_zero]
    simp
    omega
  · simp only [fld, nField, rangeWord, BitVec.toNat_ofNat]
    omega

/-- A CD_RANGE operation begins on the lines its registers name (R296). -/
theorem rangeCmdEff_begins {s : Dev} {op : Nat} (port : Nat) (tagsel : Bool) (tag : Fin 32) (hop : op < 4) (h0 : op ≠ 0) (hbusy : getF s fCD_RANGE_CMD_BUSY ≠ 1)
    (hlen : getF s fCD_RANGE_LEN_LINES ≠ 0) {d : Dev} (hd : d = rangeStarted (setF (writeReg s offCD_RANGE_CMD (rangeWord op tagsel tag)) fCD_RANGE_CMD_BUSY 1)) :
    rangeCmdEff port (rangeWord op tagsel tag) s = rangeLines (rangeOpOf op) 0 d (rangeHits d) := by
  obtain ⟨hgo, hfld⟩ := rangeWord_fields hop tagsel tag
  simp only [rangeCmdEff, hgo, hfld, h0, hbusy, hlen, Bool.true_eq_false, or_self, if_false]
  rw [hd]
  rfl

/-- Settles O44: each row by what its command does. -/
theorem coherenceCompletes : Obligations.CoherenceCompletes := by
  unfold Obligations.CoherenceCompletes
  refine ⟨fun s port tagsel tag ht hbusy hlen => ⟨fun d hd => ?_, fun d hd => ?_, fun d hd => ?_⟩, fun s b n tags d hbusy hr hheld hd => ?_,
    fun s port slice data ht => ?_, fun s port ht => ⟨?_, fun hdrop hself => ?_⟩, fun s silent dead hw hdead hne h0 h1 => ?_⟩
  · exact setupWr_completes rfl ht (rangeCmdEff_begins _ _ _ (by decide) (by decide) hbusy hlen hd)
  · exact setupWr_completes rfl ht (rangeCmdEff_begins _ _ _ (by decide) (by decide) hbusy hlen hd)
  · exact setupWr_completes rfl ht (rangeCmdEff_begins _ _ _ (by decide) (by decide) hbusy hlen hd)
  · have hx : exec .rangeDone s = upd s doRangeDone := rfl
    rw [Completes, hx, upd_next]
    simp only [doRangeDone, hbusy, hheld, Bool.false_eq_true, or_self, if_false, hr, ← hd]
    cases tags <;> rfl
  · refine setupWr_completes rfl ht ?_
    have hbit : (data ||| 2).getLsbD 1 = true := by simp
    simp only [sliceCfgEff, hbit, if_true]
  · exact setupWr_completes rfl ht rfl
  · refine setupWr_completes rfl ht ?_
    have hstage : stage s.dev = 2 := ht.2.2.2.2.2.1
    have hbit : (BitVec.ofNat 64 false.toNat).getLsbD 0 = false := by decide
    simp only [orderEff, hbit, hstage, hdrop, hself, Bool.false_eq_true, if_false, and_self, if_true]
  · have hx : exec (.heartbeatExpiry silent) s = upd s (doHeartbeatExpiry silent.toNat) := rfl
    rw [Completes, hx, upd_next]
    simp only [doHeartbeatExpiry, ← hdead, hw, hne, h0, h1, Bool.false_eq_true, or_self, if_false]

end Sys2Proof.Machine

/-! PROOF. Where the rows of the matrix unit and of the fabric complete (O45, O46). -/

namespace Sys2Proof.Machine

open Sys2Proof

/-- A command that acts on the device alone completes with its effect. -/
theorem upd_completes {c : Instr} {s : State} (F : Dev → Dev) {d : Dev} (he : exec c s = upd s F) (hd : F s.dev = d) : Completes c s d := by
  rw [Completes, he, upd_next, hd]

/-! ## The matrix unit -/

section

variable {s : State} {iw : IWord} {g : Group} {o : MxOp} {qs : List TrkReq}

/-- A matrix instruction for which there is room enters its core's queue (R120). -/
theorem matrix_goes {c : IWord → Instr} {op : Nat} (he : exec (c iw) s = upd s (doMx op iw)) (h1 : op ≠ 0) (h3 : op ≤ 3) (h : MatrixGoes s.dev iw op g o qs) :
    Completes (c iw) s (countIssue (mxQueued s.dev iw g o qs) iw 3 g) := by
  obtain ⟨hi, hres, hsd, hon, hop, hvalid, hbeyond, rfl, hqs, hlen, htok, hready⟩ := h
  refine issued_completes (F := doMx op) he rfl hi ?_
  have hodd : ¬(op = 0 ∨ 3 < op) := by omega
  simp only [hres, hsd, hon, hop, hodd, hvalid, hbeyond, ← hqs, hready, mxQueued, htok, Nat.not_le.mpr hlen, bne_self_eq_false, Bool.or_self, Bool.not_true,
    Option.isSome_none, Bool.false_eq_true, ne_eq, not_true_eq_false, or_self, if_false]

end

/-- Settles O45: an instruction enters the queue, the oldest of a lane starts, and a lane's operation ends. -/
theorem matrixCompletes : Obligations.MatrixCompletes := by
  unfold Obligations.MatrixCompletes
  refine ⟨fun s iw g o qs => ⟨matrix_goes rfl (by decide) (by decide), matrix_goes rfl (by decide) (by decide), matrix_goes rfl (by decide) (by decide)⟩,
    fun s core o d hw ho hd => ⟨fun hop => ?_, fun hop => ?_, fun hop hdest hb => ?_⟩, fun s core o t fl d hw ho ht hd => ?_,
    fun s core o t d hw ho hop ht hd => ?_, fun s core o t d d2 hw ho hop hbeats ht hd hd2 => ?_⟩
  · refine upd_completes (doLaneStart core) rfl ?_
    simp only [doLaneStart, hw, ho, ← hd, hop, Bool.false_eq_true, if_false, if_true]
  · refine upd_completes (doLaneStart core) rfl ?_
    have h1 : xcOP o.ctrl ≠ 1 := by rcases hop with h | h <;> omega
    have h3 : ¬(xcOP o.ctrl = 3 ∧ xcDEST o.ctrl = true) := by
      rcases hop with h | ⟨-, h⟩ <;> simp [h]
    simp only [doLaneStart, hw, ho, ← hd, h1, ← and_assoc, h3, false_and, Bool.false_eq_true, if_false]
  · refine upd_completes (doLaneStart core) rfl ?_
    simp only [doLaneStart, hw, ho, ← hd, hop, hdest, hb, Nat.reduceEqDiff, Bool.false_eq_true, Bool.true_eq_false, and_false, and_self, if_false, if_true]
  · refine upd_completes (doMmaComplete core) rfl ?_
    simp only [doMmaComplete, hw, ho, ht, ← hd, Bool.false_eq_true, if_false]
  · refine upd_completes (doAloadComplete core) rfl ?_
    simp only [doAloadComplete, hw, ho, hop, ← ht, ← hd, ne_eq, not_true_eq_false, Bool.false_eq_true, if_false]
  · refine upd_completes (doDrainComplete core) rfl ?_
    have hready : ¬(xcOP o.ctrl ≠ 3 ∨ xcDEST o.ctrl = true ∧ beatsTaken (getCl s.dev (coreCluster core)) o = false) := by
      rintro (h | ⟨h, hb⟩)
      · exact h hop
      · simp [hbeats h] at hb
    simp only [doDrainComplete, hw, ho, hready, ← ht, ← hd, ← hd2, Bool.false_eq_true, if_false]

/-! ## The fabric -/

/-- A fabric instruction for which there is room enters its cluster's queue (R201). -/
theorem fabIssue_goes {s : Dev} {iw : IWord} {g : Group} {kind : FabKind} {arg0 arg1 origin : Word} {uses : List Nat} {qs : List TrkReq}
    (h : AsyncRoom s iw g (getCl s (coreCluster iw.core)).fabQ.length 16 qs) {o : FabOp}
    (ho : o = { id := s.nextKey, core := iw.core, slot := iw.slot, cmd := g.cmd, tok := xTOK iw, kind := kind, arg0 := arg0, arg1 := arg1, origin := origin,
                poison := asyPoison g iw uses, loaded := false }) :
    fabIssue s iw g kind arg0 arg1 origin uses qs = fabQueued s iw g o qs := by
  obtain ⟨hlen, htok, hready⟩ := h
  subst ho
  simp only [fabIssue, fabQueued, htok, hready, Nat.not_le.mpr hlen, or_self, Bool.not_true, Bool.false_eq_true, if_false]

@[simp] theorem setIn_op (r : FabRun) (p : Nat) (x : InPort) : (setIn r p x).op = r.op := rfl
@[simp] theorem setIn_iter (r : FabRun) (p : Nat) (x : InPort) : (setIn r p x).iter = r.iter := rfl

/-- Settles O46: an operation enters the queue, and the one at its head acts. -/
theorem fabricCompletes : Obligations.FabricCompletes := by
  unfold Obligations.FabricCompletes
  refine ⟨fun s iw g o qs hi hres hsc hsd2 hsd1 hon hqs hroom ho => ?_, fun s iw g o hi hres hsc hsd1 hsd2 hon hroom ho => ?_,
    fun s iw g o qs hi hres hon hqs hroom ho => ?_, fun s cl o d d2 d3 h r size img hw ho hva hread herr hsize hal hlo hhi hread2 herr2 himg hok hd3 => ?_,
    fun s cl o rest hw hq hkind hdrain => ?_, fun s cl o rest hw hq hrun hkind hchk => ?_,
    fun s cl port r img hw hrun himg hin hopen htail => ⟨fun b fl a hdr hb ha hovr => ?_, fun b rest d a hdr hb hd ha hovr => ?_⟩,
    fun s cl r n a hw hrun htail ha hovr => ?_⟩
  · refine issued_completes (F := doFload) rfl rfl hi ?_
    simp only [hres, hsc, hsd2, hsd1, hon, ← hqs, bne_self_eq_false, Bool.or_self, Bool.not_true, Bool.false_eq_true, if_false]
    exact fabIssue_goes hroom ho
  · refine issued_completes (F := doFswap) rfl rfl hi ?_
    simp only [hres, hsc, hsd2, hsd1, hon, bne_self_eq_false, Bool.or_self, Bool.not_true, Bool.false_eq_true, if_false]
    exact fabIssue_goes hroom ho
  · refine issued_completes (F := doFrun) rfl rfl hi ?_
    simp only [hres, hon, ← hqs, bne_self_eq_false, Bool.not_true, Bool.false_eq_true, if_false]
    exact fabIssue_goes hroom ho
  · refine completesM (f := doFloadValidated cl) (fun _ => rfl) ?_
    have hn : (if size % 64 = 0 ∧ 0x2900 ≤ size ∧ size ≤ 0x10000 then size else 64) = size := if_pos ⟨hal, hlo, hhi⟩
    simp only [doFloadValidated, hw, ho, hva, hread, herr, ← hsize, hn, hread2, herr2, ← himg, hok, ← hd3, ne_eq, not_true_eq_false, Option.isSome_none,
      Bool.false_eq_true, if_false, if_true]
  · refine upd_completes (doFswapEffect cl) rfl ?_
    simp only [doFswapEffect, hw, hq, hkind, hdrain, ne_eq, not_true_eq_false, Bool.false_eq_true, or_self, if_false]
  · rw [Completes, frunStart_none]
    simp only [doFrunStart, hw, hq, hrun, hkind, hchk, ne_eq, not_true_eq_false, Bool.false_eq_true, if_false]
  · rw [Completes, fabricBeat_none]
    dsimp only at ha
    simp only [setIn_op, setIn_iter, doFabricBeat, hw, hrun, ← himg, hin, hopen, htail, hdr, hb, ← ha, hovr, Option.isSome_none, Bool.not_true, Bool.or_self, Bool.false_eq_true, if_false]
  · rw [Completes, fabricBeat_none]
    dsimp only at ha
    simp only [setIn_op, setIn_iter, doFabricBeat, hw, hrun, ← himg, hin, hopen, htail, hdr, hb, ← hd, ← ha, hovr, Option.isSome_none, Bool.not_true, Bool.or_self, Bool.false_eq_true,
      if_false, if_true]
  · rw [Completes, runEnd_none]
    simp only [doRunEnd, hw, hrun, htail, ← ha, hovr, Bool.false_eq_true, if_false]

end Sys2Proof.Machine

/-! PROOF. Where the rows of the memory tiers complete (O47). -/

namespace Sys2Proof.Machine

open Sys2Proof

/-- A 64-bit set-up write that makes coherent requests, once it reaches its register. -/
theorem setupWr_completesM {c : Instr} {s : State} {port off : Nat} {data : Word} {eff : Dev → Dev} {d : Dev} (he : ∀ t : State, exec c t = updM t (setupWr port off data eff))
    (ht : SetupTaken s.dev port off) (hd : eff s.dev = d) : CompletesM c s d :=
  completesM (fun _ => he _) ((setupWr_taken data eff ht).trans hd)

/-- A bit of a number below a power of two that does not reach it. -/
theorem getLsbD_ofNat_mul_add {k a b i : Nat} (hb : b < 2 ^ k) (hi : i < k) (hk : k ≤ 64) : (BitVec.ofNat 64 (a * 2 ^ k + b)).getLsbD i = b.testBit i := by
  rw [BitVec.getLsbD_ofNat, decide_eq_true (by omega), Bool.true_and, Nat.mul_comm, Nat.testBit_two_pow_mul_add _ hb, if_pos hi]

section

variable {s : Dev} {port : Nat} {f : Nat}

/-- R396: RECOVER of a dead port begins its training. -/
theorem farCtlEff_recover (h : getF s (fMT_FAR_CAP_STATE f) = 2) : farCtlEff port f 1 s = modMs s (fun m => { m with farRetrain := insSorted f m.farRetrain }) := by
  have h0 : (1 : Word).getLsbD 0 = true := by decide
  have h1 : (1 : Word).getLsbD 1 = false := by decide
  simp only [farCtlEff, h0, h1, h, if_true, Bool.false_eq_true, if_false]

/-- R396: UNLATCH of a recovered port brings it up. -/
theorem farCtlEff_unlatch (h : getF s (fMT_FAR_CAP_STATE f) = 3) : farCtlEff port f 2 s = setF s (fMT_FAR_CAP_STATE f) 1 := by
  have h0 : (2 : Word).getLsbD 0 = false := by decide
  have h1 : (2 : Word).getLsbD 1 = true := by decide
  simp only [farCtlEff, h0, h1, h, if_true, Bool.false_eq_true, if_false]

end

/-- The LOAD bit of MT_BACK_CTL as LOAD writes it. -/
theorem backCtl_load_bit (entries : Fin 1025) : (BitVec.ofNat 64 (2 ^ 16 + entries.val)).getLsbD 16 = true := by
  have he := entries.isLt
  rw [BitVec.getLsbD_ofNat, show 2 ^ 16 + entries.val = 2 ^ 16 * 1 + entries.val from rfl, Nat.testBit_two_pow_mul_add _ (by omega)]
  rfl

/-- The GO bit of MT_INJECT as INJECT writes it. -/
theorem inject_go_bit (kind : Fin 4) (sector : BitVec 42) : (BitVec.ofNat 64 (kind.val * 2 ^ 62 + sector.toNat * 64 + 1)).getLsbD 0 = true := by
  rw [show kind.val * 2 ^ 62 + sector.toNat * 64 + 1 = (kind.val * 2 ^ 56 + sector.toNat) * 2 ^ 6 + 1 by ring, getLsbD_ofNat_mul_add (by decide) (by decide) (by decide)]
  rfl

/-- Settles O47: each row by what its command does. -/
theorem tiersComplete : Obligations.TiersComplete := by
  unfold Obligations.TiersComplete
  refine ⟨fun s sector a ha => ?_, fun s f _ => ⟨rfl, rfl⟩, fun s port hp => ?_, fun s sector hon hnear hawake hstack hdie => ?_,
    fun s port f ht => ⟨fun h => ?_, fun h => ?_⟩, fun s f result h => ?_, fun s f => rfl, fun s port entries d d2 l ht hd hl => ?_,
    fun s port kind sector d ht hdbg hd hnear => ?_, fun s stack hstack hdie on d d2 hon hd hd2 d3 e hd3 he => ?_, fun s f addr h => ⟨?_, ?_⟩⟩
  · refine upd_completes (doAdderFlushExpiry sector) rfl ?_
    simp only [doAdderFlushExpiry, ha]
  · refine upd_completes (doHostCreditTimeout port) rfl ?_
    simp only [doHostCreditTimeout, hp, Bool.false_eq_true, if_false]
  · refine completesM (f := withFlaw .none (doScrubRead sector)) (fun _ => rfl) ?_
    simp only [withFlaw_none, doScrubRead, hon, hnear, hawake, hstack, hdie, Bool.true_eq_false, Bool.false_eq_true, or_self, if_false]
  · exact setupWr_completes rfl ht (farCtlEff_recover h)
  · exact setupWr_completes rfl ht (farCtlEff_unlatch h)
  · refine upd_completes (doFarRetrainDone f result) rfl ?_
    simp only [doFarRetrainDone, h, if_true]
  · refine setupWr_completesM (fun _ => rfl) ht ?_
    simp only [backCtlEff, backCtl_load_bit, ← hd, hl, if_true]
  · refine setupWr_completes rfl ht ?_
    simp only [injectEff, inject_go_bit, hdbg, ← hd, hnear, Bool.true_eq_false, Bool.not_true, Bool.false_eq_true, if_false, if_true]
  · refine upd_completes (doStackLoss stack) rfl ?_
    subst hon he
    simp only [doStackLoss, hstack, hdie, ← hd, ← hd2, ← hd3, Bool.or_self, Bool.false_eq_true, if_false]
  · refine upd_completes (doCxlEventRecord f true addr) rfl ?_
    simp only [doCxlEventRecord, h, if_false, if_true]
  · refine upd_completes (doCxlEventRecord f false addr) rfl ?_
    simp only [doCxlEventRecord, h, Bool.false_eq_true, if_false]

end Sys2Proof.Machine

/-! PROOF. Where the rows of the die links and the dock bays complete (O48). -/

namespace Sys2Proof.Machine

open Sys2Proof

/-! ## Links -/

section

variable {s : Dev} {l : Nat} {t : LinkTrain}

/-- A link of Halter that has not settled trains, at the rate that both ends and it allow, where there is one (R423). -/
theorem doLinkTraining_trains (hb : s.su.begun = true) (hset : linkSettled s l = false) (hbay : 14 ≤ l → getF s (fDL_BAY_STATUS_STATE (l - 14)) = 2)
    (hrev : t.reversed = true → l = 6 ∨ l = 7) {r gen feats : Nat} (hr : trainRate s l t = some r)
    (hgen : gen = (if min (advVersion s (linkEnds l).1) (advVersion s (linkEnds l).2) = 3 then 2 else 1))
    (hfeats : feats = (decide ((linkEnds l).1 < 8) && decide ((linkEnds l).2 < 8)).toNat) {d : Dev}
    (hd : d = setReg s (offDL_LINK l) (BitVec.ofNat 64 (2 * 2 ^ 62 + gen * 2 ^ 60 + r * 2 ^ 56 + (l == 6 || l == 7).toNat * 2 ^ 55 + feats * 2 ^ 49 + feats * 2 ^ 48
      + getF s (fDL_LINK_REPAIRS l) * 2 ^ 40 + (2 ^ linkModules l - 1)))) :
    doLinkTraining l t s = linkSteps (if some r = (allowedRates l).head? then d
      else noteReplace (errRecord d { sev := 0, cause := 0x0021, unit := 0x09, index := l, replace := true, detail := r }) 4) := by
  have hbay' : (decide (14 ≤ l) && getF s (fDL_BAY_STATUS_STATE (l - 14)) != 2) = false := by
    by_cases h : 14 ≤ l
    · simp [hbay h]
    · simp [h]
  have hrev' : (t.reversed && !(l == 6 || l == 7)) = false := by
    cases hc : t.reversed with
    | false => rfl
    | true => rcases hrev hc with h | h <;> simp [h]
  simp only [doLinkTraining, hb, hset, hbay', hrev', hr, Bool.not_true, Bool.or_self, Bool.false_eq_true, if_false, ← hgen, ← hfeats, ← hd]

/-- A link for which no rate is allowed fails (R423). -/
theorem doLinkTraining_fails (hb : s.su.begun = true) (hset : linkSettled s l = false) (hbay : 14 ≤ l → getF s (fDL_BAY_STATUS_STATE (l - 14)) = 2)
    (hrev : t.reversed = false) (hr : trainRate s l t = none) : doLinkTraining l t s = linkSteps (linkFails s l) := by
  have hbay' : (decide (14 ≤ l) && getF s (fDL_BAY_STATUS_STATE (l - 14)) != 2) = false := by
    by_cases h : 14 ≤ l
    · simp [hbay h]
    · simp [h]
  simp only [doLinkTraining, hb, hset, hbay', hrev, hr, Bool.not_true, Bool.or_self, Bool.false_and, Bool.false_eq_true, if_false]

/-- A module of an UP link that meets its trigger is repaired, or its link fails (R429, R421). -/
theorem doLaneRepair_acts {d : Dev} {m resends : Nat} {c : RepairCause} (und : Bool) (r : ModTrain) (hup : linkUp s l = true)
    (hm : (getF s (fDL_LINK_MODULES l)).testBit m = true)
    (hc : (c = .lane ∧ d = s) ∨ ∃ n, c = .crc n ∧ d = satF s (fDL_LINK_ERR_CRC l) n.toNat ∧ getF d fDL_CFG_REPAIR_THR < n.toNat) :
    doLaneRepair l m c resends und r s =
      if und then linkFails (satF d (fDL_LINK_ERR_RESENDS l) resends) l else repairModule (satF d (fDL_LINK_ERR_RESENDS l) resends) l m r := by
  rcases hc with ⟨rfl, rfl⟩ | ⟨n, rfl, rfl, hthr⟩
  · simp only [doLaneRepair, hup, hm, Bool.not_true, Bool.or_self, Bool.false_eq_true, if_false]
  · simp only [doLaneRepair, hup, hm, decide_eq_true hthr, Bool.not_true, Bool.or_self, Bool.false_eq_true, if_false]

/-- R431: a link short of modules while one is out fails. -/
theorem repairModule_short {d2 : Dev} {m : Nat} (r : ModTrain)
    (hd2 : d2 = setF (setF s (fDL_LINK_MODULES l) (Nat.land (getF s (fDL_LINK_MODULES l)) (4095 - 2 ^ m))) (fDL_LINK_X8 l) (Nat.land (getF s (fDL_LINK_X8 l)) (4095 - 2 ^ m))) :
    (linkShort d2 l = true → repairModule s l m r = linkFails d2 l) ∧ (linkShort d2 l = false → repairModule s l m .off = d2) := by
  constructor
  · intro h
    simp only [repairModule, ← hd2, h, if_true]
  · intro h
    simp only [repairModule, ← hd2, h, Bool.false_eq_true, if_false, if_true]

end

/-- The fields of DL_LINKn_CTL as RETRAIN writes it. -/
theorem retrain_fields (module : Fin 16) : (BitVec.ofNat 64 (1 + 2 ^ 16 * module.val)).getLsbD 0 = true ∧ fld (BitVec.ofNat 64 (1 + 2 ^ 16 * module.val)) 19 16 = module.val := by
  have hm := module.isLt
  constructor
  · simp only [BitVec.getLsbD_ofNat, Nat.testBit_zero]
    simp
    omega
  · simp only [fld, nField, BitVec.toNat_ofNat]
    omega

/-! ## Bays -/

section

variable {s : Dev} {b : Nat}

theorem writeRegBy_bays (s : Dev) (off : Nat) (val : Word) (p : FieldSpec → Bool) : (writeRegBy s off val p).bays = s.bays := by
  unfold writeRegBy
  split <;> rfl

/-- R442: DL_BAYb_CTL of a bay that was not bound since its reset. -/
theorem bayCtlEff_unbound (port : Nat) (data : Word) (h : (tabGet (fun _ => BayRun.init) s.bays b).lastBound = none) :
    bayCtlEff port b data s = showRights { (writeRegBy s (offDL_BAY_CTL b) data (fun f => !(getF s (fDL_BAY_CTL_BIND b) == 1 && f.lsb == 16))) with
      bays := tabSet (fun _ => BayRun.init) s.bays b { tabGet (fun _ => BayRun.init) s.bays b with
        lastBound := if data.getLsbD 8 then some (if getF s (fDL_BAY_CTL_BIND b) = 0 then fld data 19 16 else getF s (fDL_BAY_CTL_SLICE b)) else none } } b := by
  simp only [bayCtlEff, h, Bool.and_false, Bool.false_eq_true, if_false, ite_self, writeRegBy_bays]

/-- R434: an admissible descriptor admits its bay, and another refuses it. -/
theorem doBayAdmission_reads {desc : BitVec 4096} {list : Nat} (hp : s.su.powered = true) (hb : s.su.begun = false) (hst : stage s = 0)
    (hbay : (getF s fID_PART_BAYS).testBit b = true) {d : Dev}
    (hd : d = setF (showDesc { s with bays := tabSet (fun _ => BayRun.init) s.bays b BayRun.init } b desc) (fDL_BAY_STATUS_RIGHTS_REQ b) (descNat desc 0x14 4 % 16)) :
    (∀ c, bayCause desc list = some c → doBayAdmission b (some desc) list s = bayRefused d b c)
      ∧ (bayCause desc list = none → doBayAdmission b (some desc) list s =
        { (setF (setF d (fDL_BAY_STATUS_STATE b) 2) (fDL_BAY_STATUS_CAUSE b) 0) with bays := tabSet (fun _ => BayRun.init) d.bays b { admitted := true, lastBound := none } }) := by
  have hbay : (getF { s with bays := tabSet (fun _ => BayRun.init) s.bays b BayRun.init } fID_PART_BAYS).testBit b = true := hbay
  refine ⟨fun c hc => ?_, fun hc => ?_⟩ <;>
    simp only [doBayAdmission, hp, hb, hst, hbay, ← hd, hc, Bool.not_true, bne_self_eq_false, Bool.or_self, Bool.false_eq_true, if_false, if_true]

end

/-! ## Routes -/

/-- R48, R49: with no link lost, the routes are the fixed ones. -/
theorem route_of_no_loss {s : Dev} (h : ∀ l, l < 14 → linkLost s l = false) (a b : Nat) : route s a b = some (fixedRoute a b) := by
  have hall : (List.range 14).all (fun l => !linkLost s l) = true := by
    rw [List.all_eq_true]
    intro l hl
    rw [h l (List.mem_range.mp hl)]
    rfl
  rw [route, if_pos hall]

/-- The fixed routes of compute dies go along the row, and change row in the destination's column. -/
theorem fixedRoute_rows : ∀ a b : Fin 8, fixedRoute a b = alongRow (dieRow a) (dieCol a) (dieCol b) ++ (if dieRow a = dieRow b then [] else [b.val]) := by decide

theorem fixedRoute_hubs : ∀ a : Fin 8, fixedRoute a 8 = alongRow (dieRow a) (dieCol a) 0 ++ [8] ∧ fixedRoute a 9 = alongRow (dieRow a) (dieCol a) 3 ++ [9] := by decide

/-- Settles O48: each row by what its command does. -/
theorem linksAndBaysComplete : Obligations.LinksAndBaysComplete := by
  unfold Obligations.LinksAndBaysComplete
  refine ⟨fun s link found r gen feats hb hset hbay hrev hr hgen hfeats d hd => ?_, fun s link found hb hset hbay hrev hr => ?_,
    fun s link module cause resends result d hup hm hc => ⟨?_, ?_⟩, fun d d2 l m r hd2 => repairModule_short r hd2,
    fun s port link module result d ht hd hup hm => ?_, fun s bay desc d list hp hb hst hbay hlist hd => ⟨fun hc => ?_, fun c hc => ?_⟩,
    fun s port bay data ht hlast => ⟨?_, ?_⟩, fun s bay req hw hst hup hbind hslice => ?_, fun s bay hst => ?_, fun s h a b => ?_⟩
  · exact completesM (f := doLinkTraining link found) (fun _ => rfl) (doLinkTraining_trains hb hset hbay hrev hr hgen hfeats hd)
  · exact completesM (f := doLinkTraining link found) (fun _ => rfl) (doLinkTraining_fails hb hset hbay hrev hr)
  · exact completesM (f := doLaneRepair link module cause resends.toNat false result) (fun _ => rfl) ((doLaneRepair_acts false result hup hm hc).trans (if_neg Bool.false_ne_true))
  · exact completesM (f := doLaneRepair link module cause resends.toNat true result) (fun _ => rfl) ((doLaneRepair_acts true result hup hm hc).trans (if_pos rfl))
  · obtain ⟨hgo, hmod⟩ := retrain_fields module
    refine setupWr_completesM (fun _ => rfl) ht ?_
    simp only [linkCtlEff, hgo, hmod, ← hd, hup, decide_eq_true hm, Bool.and_self, if_true]
  · refine upd_completes (doBayAdmission bay (some desc) list) (by rw [hlist]; rfl) ?_
    rw [(doBayAdmission_reads hp hb hst hbay hd).2 hc, setF_bays, setF_bays]
  · exact upd_completes (doBayAdmission bay (some desc) list) (by rw [hlist]; rfl) ((doBayAdmission_reads hp hb hst hbay hd).1 c hc)
  · exact setupWr_completes rfl ht (bayCtlEff_unbound port _ hlast)
  · exact setupWr_completes rfl ht (bayCtlEff_unbound port _ hlast)
  · refine completesM (f := doBayRequest bay req) (fun _ => rfl) ?_
    simp only [doBayRequest, hw, hst, hup, hbind, hslice, bne_self_eq_false, Bool.not_true, Bool.or_self, Bool.false_eq_true, ne_eq, not_true_eq_false, if_false, Nat.one_ne_zero]
  · exact completesM (f := fun d => bayFails d bay) (fun _ => rfl) rfl
  · simp only [route_of_no_loss h]
    exact ⟨congrArg some (fixedRoute_rows a b), congrArg some (fixedRoute_hubs a).1, congrArg some (fixedRoute_hubs a).2, by decide, by decide⟩

end Sys2Proof.Machine

/-! PROOF. Where observation, Whoa, the hang dump, rail failures and the event rings complete (O49, O50, O51). -/

namespace Sys2Proof.Machine

open Sys2Proof

/-! ## Observation and time -/

/-- R671: a ring that was not enabled and is in order becomes ACTIVE. -/
theorem ringCfgEff_enables {s s1 : Dev} {port off : Nat} {state cause : Fld} {data : Word} (h0 : getF s ⟨off, 0, 0⟩ = 0) (hdata : data.getLsbD 0 = true)
    (hs1 : s1 = writeReg s off data) (hsize : ringSize (getF s1 ⟨off, 5, 1⟩) = true) (hport : getF s1 ⟨off, 41, 40⟩ = 1 ∨ getF s1 ⟨off, 41, 40⟩ = 2)
    (hup : portUp s1 (portOf (getF s1 ⟨off, 41, 40⟩)) = true) : ringCfgEff port off state cause data s = setF (setF s1 state 1) cause 0 := by
  have hport : (getF s1 ⟨off, 41, 40⟩ == 1 || getF s1 ⟨off, 41, 40⟩ == 2) = true := by simpa using hport
  simp only [ringCfgEff, h0, hdata, ← hs1, hsize, hport, hup, Nat.zero_ne_one, Bool.not_true, Bool.false_eq_true, Bool.and_self, if_false, if_true]

theorem getLsbD_or_one (data : Word) : (data ||| 1).getLsbD 0 = true := by simp

/-- Settles O49: each row by what its command does. -/
theorem observationCompletes : Obligations.ObservationCompletes := by
  unfold Obligations.ObservationCompletes
  refine ⟨fun s hst hw => ⟨?_, fun hus => ?_⟩, fun s port buf data s1 d ht h0 hs1 hsize hport hup hd => ?_, fun s port delta ht hcyc => ?_,
    fun s hp hon hmode => ⟨?_, fun h2 d hd => ?_⟩, fun s hsrc hst => ?_, fun s m => ⟨rfl, fun hdbg => ?_⟩⟩
  · refine upd_completes doSnapshot rfl ?_
    simp only [doSnapshot, hst, hw, and_self, if_true]
  · refine upd_completes doCounterSample rfl ?_
    simp only [doCounterSample, hst, hw, hus, ne_eq, not_false_eq_true, and_self, if_true]
  · refine setupWr_completes rfl ht ?_
    rw [trbCfgEff, ringCfgEff_enables h0 (getLsbD_or_one data) hs1 hsize hport hup, ← hd]
  · refine setupWr_completes rfl ht ?_
    simp only [tsyncStepEff, hcyc, Bool.false_eq_true, if_false]
  · have hoff : (!s.dev.su.powered || s.dev.pw.off != .on || getF s.dev fSU_SYNCIO_MODE == 3) = false := by simp [hp, hon, hmode]
    refine upd_completes (doSyncEdge false) rfl ?_
    simp only [doSyncEdge, hoff, Bool.not_false, Bool.true_or, Bool.false_eq_true, if_false, if_true, Bool.toNat_false]
  · refine upd_completes (doSyncEdge true) rfl ?_
    simp only [doSyncEdge, hp, hon, h2, bne_self_eq_false, Bool.not_true, Bool.false_eq_true, if_false, Bool.toNat_true, ← hd, Nat.reduceBEq, Bool.or_self, Nat.reduceEqDiff, false_and]
  · refine upd_completes doHoldoverExpiry rfl ?_
    simp only [doHoldoverExpiry, hsrc, hst, or_self, if_false]
  · refine upd_completes (doScanOut (some m) none) rfl ?_
    simp only [doScanOut, loadChain, hdbg, if_true]

/-! ## Whoa and the hang dump -/

/-- The GO, RESUME_HELD and ABORT_HELD bits of OBS_DUMPh_CTL as DUMP_GO writes them. -/
theorem dumpGo_bits (data : Word) : (putFld (data ||| 1) 2 1 0).getLsbD 0 = true ∧ (putFld (data ||| 1) 2 1 0).getLsbD 1 = false ∧ (putFld (data ||| 1) 2 1 0).getLsbD 2 = false := by
  refine ⟨?_, ?_, ?_⟩ <;> rw [getLsbD_putFld _ _ _ _ _ (by decide)] <;> simp

/-- The same bits as RESUME_HELD (2) and ABORT_HELD (4) write them. -/
theorem dumpHeld_bits (data : Word) (v : Nat) : (putFld data 2 0 v).getLsbD 0 = v.testBit 0 ∧ (putFld data 2 0 v).getLsbD 1 = v.testBit 1 ∧ (putFld data 2 0 v).getLsbD 2 = v.testBit 2 := by
  refine ⟨?_, ?_, ?_⟩ <;> rw [getLsbD_putFld _ _ _ _ _ (by decide)] <;> simp

/-- R700: a held dump's slice runs on, or its commands are aborted. -/
theorem dumpCtlEff_held {s d : Dev} {h : Nat} {data : Word} {v : Nat} (h0 : v.testBit 0 = false) (h12 : (v.testBit 1 || v.testBit 2) = true)
    (hd : d = writeReg s (offOBS_DUMP_CTL h) (putFld data 2 0 v)) (hst : getF d (fOBS_DUMP_STAT_STATE h) = 2) :
    dumpCtlEff h (putFld data 2 0 v) s = dumpEnd d h (!v.testBit 1) := by
  obtain ⟨b0, b1, b2⟩ := dumpHeld_bits data v
  simp only [dumpCtlEff, b0, b1, b2, h0, h12, ← hd, hst, Bool.false_eq_true, if_false, and_self, if_true]

/-- R699: a trigger that finds its slice and buffer in order freezes the slice. -/
theorem dumpTrigger_go {s d2 : Dev} {h n : Nat} (hr : dumpRefuse s h n = 0)
    (hd2 : d2 = setReg s (offOBS_DUMP_STAT h) (BitVec.ofNat 64 (2 ^ 62 + getF s (fOBS_DUMP_STAT_TRIG_CHAN h) * 2 ^ 40))) :
    dumpTrigger s h n none = setDump d2 h { active := true, slice := n, trigger := 0xFF, t1 := timeBase d2, held := false, frozen := true, since := d2.now } := by
  simp only [dumpTrigger, hr, ← hd2, Option.getD_none]

/-- Settles O50: each row by what its command does. -/
theorem whoaAndDumpComplete : Obligations.WhoaAndDumpComplete := by
  unfold Obligations.WhoaAndDumpComplete
  refine ⟨fun s port ht hdbg => ?_, fun s d hp hd => ⟨fun hin => ?_, fun hin => ?_⟩, fun s port hub data d d2 n ht hd hn hr hd2 => ?_,
    fun s chan wd d hwd hne hw hown hfr hcmds hd => ?_, fun s hub d hd hact hw hreqs => ⟨fun ha => ?_, fun ha => ?_⟩, fun s port hub data d ht => ⟨fun hd hst => ?_, fun hd hst => ?_⟩⟩
  · refine setupWr_completes rfl ht ?_
    simp only [whoaStopEff, hdbg, if_true]
  · refine upd_completes doStopIo rfl ?_
    simp only [doStopIo, hp, ← hd, hin, Bool.not_true, Bool.false_eq_true, if_false, and_self, if_true]
  · refine upd_completes doStopIo rfl ?_
    simp only [doStopIo, hp, ← hd, hin, Bool.not_true, Bool.false_eq_true, if_false, Nat.zero_ne_one, false_and]
  · obtain ⟨b0, b1, b2⟩ := dumpGo_bits data
    refine setupWr_completes rfl ht ?_
    simp only [dumpCtlEff, b0, b1, b2, ← hd, ← hn, if_true, Bool.or_self, Bool.false_eq_true, and_false, if_false]
    exact dumpTrigger_go hr hd2
  · have hnow : d.now = max s.dev.now ((getCh s.dev chan).lastDone + 10000000 * wd) := by rw [hd]
    refine upd_completes (doChannelWatchdog chan) rfl ?_
    simp only [doChannelWatchdog, ← hwd, hne, hw, hown, hfr, hcmds, ← hd, hnow, Bool.false_eq_true, or_self, if_false]
  · refine upd_completes (doDumpFrozen hub) rfl ?_
    simp only [doDumpFrozen, ← hd, hact, hw, hreqs, ha, Bool.not_true, Bool.or_self, Bool.false_eq_true, if_false]
  · refine upd_completes (doDumpFrozen hub) rfl ?_
    simp only [doDumpFrozen, ← hd, hact, hw, hreqs, Bool.not_true, Bool.or_self, Bool.false_eq_true, if_false]
    split
    · next h2 => omega
    · rfl
  · exact setupWr_completes rfl ht (dumpCtlEff_held (v := 2) (by decide) (by decide) hd hst)
  · exact setupWr_completes rfl ht (dumpCtlEff_held (v := 4) (by decide) (by decide) hd hst)

/-! ## Faults -/

/-- Settles O51: each row by what its command does. -/
theorem faultsComplete : Obligations.FaultsComplete := by
  unfold Obligations.FaultsComplete
  refine ⟨fun s part hb hst => ⟨fun hw => ?_, fun hw => ?_⟩, fun s port ring data s1 ht h0 hs1 hsize hport hup => ?_,
    fun s port ring head d ht hsize hd => ⟨fun hlt => ?_, fun hle => ?_⟩⟩
  · refine upd_completes (doRailFailure part) rfl ?_
    simp only [doRailFailure, hb, hst, hw, Bool.not_true, Bool.false_eq_true, ne_eq, not_true_eq_false, if_false]
  · refine upd_completes (doRailFailure part) rfl ?_
    simp only [doRailFailure, hb, hst, hw, Bool.not_true, Bool.false_eq_true, ne_eq, not_true_eq_false, if_false, if_true]
  · refine setupWr_completes rfl ht ?_
    rw [erCfgEff, ringCfgEff_enables h0 (getLsbD_or_one data) hs1 hsize hport hup]
  · refine setupWr_completes rfl ht ?_
    simp only [erHeadEff, ringHeadEff, hsize, ← hd, Nat.not_le.mpr hlt, Bool.not_true, Bool.false_eq_true, if_false]
  · refine setupWr_completes rfl ht ?_
    simp only [erHeadEff, ringHeadEff, hsize, ← hd, hle, Bool.not_true, Bool.false_eq_true, if_false, if_true]

end Sys2Proof.Machine

/-! PROOF. Where power, protection, sleep, wake, droop, ageing and energy rows complete (O52, O53). -/

namespace Sys2Proof.Machine

open Sys2Proof

/-! ## Power and protection -/

/-- R585: what one tick of Rein leaves, given the allotments it finds. -/
theorem doReinTick_ticks {s seen d d2 d3 d4 : Dev} {m : TickMeas} {a beff : Nat} {al : List Nat} (hst : stage s = 2) (hon : s.pw.off = .on) (hw : whoaStopped s = false)
    (hseen : setTemps (setF s fPW_STATUS_REIN_UP 1) m.temps = seen)
    (hd : d = { seen with pw := { seen.pw with missedClamp := false, ratios := m.ratios.map (fun e => (e.1.val, e.2.val)) } })
    (hb : beff = nextBeff d)
    (ha : a = ((beff : Int) - ((m.pin.toNat : Int) - ((m.meters.map (fun w => w.toNat)).sum : Nat)) - (d.pw.hist.foldl (fun (x : Int) h => x + h.1 - h.2) 0) / 200).toNat)
    (hal : allotments d m a = (d2, al)) (hd3 : d3 = ((List.range 32).zip al).foldl (regionTick m) d2)
    (hd4 : d4 = { d3 with pw := { d3.pw with beff := beff, hist := ((m.pin.toNat, beff) :: d3.pw.hist).take 200 } }) :
    doReinTick m s = (let t := setF d4 fPW_STATUS_THROTTLE (if d4.pw.cap.isEmpty then 0 else 1)
      pushEvents (fillerTick (setF (setF (setF t fPW_STATUS_APPLIED_W (beff / 1000)) fPW_STATUS_FLOOR_W (appliedFloor t)) fPW_STATUS_RAMP_WPMS (appliedRamp t)) m)) := by
  rw [doReinTick, if_neg (by simp [hst, hon, hw]), hseen]
  extract_lets s1 pw1 s2 beff' e fixed a' t
  obtain rfl : d = s2 := hd
  obtain rfl : beff = beff' := hb
  obtain rfl : a = a' := ha
  rw [hal]
  subst hd4 hd3
  rfl

/-- Settles O52: each row by what its command does. -/
theorem powerCompletes : Obligations.PowerCompletes := by
  unfold Obligations.PowerCompletes
  refine ⟨fun s m d d2 d3 d4 a beff al hst hon hw hd hb ha hal hd3 hd4 => ?_, fun s hst hon hw hm => ?_, fun s vin iin hp hoff hcurb => ?_, fun s vin iin hv hi => ?_,
    fun s hp hoff => ?_, fun s => upd_completes doBrakeRelease rfl rfl, fun s sensor temp d hp hin hlk ht hd => ?_, fun s hp hin hlk => ?_, fun s vin d hp hin hv hd => ?_,
    fun s d hp hon hok hlost hd => ?_, fun s port data ht hlo hhi => ?_, fun s port data ht hr hf => ?_⟩
  · exact upd_completes (doReinTick m) rfl (doReinTick_ticks hst hon hw rfl hd hb ha hal hd3 hd4)
  · refine upd_completes doReinMissed rfl ?_
    simp only [doReinMissed, hst, hon, hw, hm, ne_eq, not_true_eq_false, Bool.false_eq_true, or_self, if_false]
  · have hgo : (!s.dev.su.powered || s.dev.pw.off == .input || !(decide (100 * getF s.dev fPW_CFG_OC_LIMIT_A < iin.toNat) || decide (vin.toNat < 4400))) = false := by
      simp only [hp, beq_eq_false_iff_ne.mpr hoff, Bool.not_true, Bool.false_or, Bool.not_eq_false', Bool.or_eq_true, decide_eq_true_eq]
      exact hcurb
    refine upd_completes (doCurb vin.toNat iin.toNat) rfl ?_
    simp only [doCurb, hgo, Bool.false_eq_true, if_false]
  · refine upd_completes (doCurbRelease vin.toNat iin.toNat) rfl ?_
    simp only [doCurbRelease, decide_eq_true hv, decide_eq_true hi, Bool.and_self, if_true]
  · refine upd_completes doBrake rfl ?_
    simp only [doBrake, hp, setF_pw, hoff, Bool.not_true, Bool.false_eq_true, if_false]
  · have hgo : (!s.dev.su.powered || s.dev.pw.off == .input || s.dev.pw.off == .leak || decide (temp.val < (if sensor.val < 34 then 115 else 105))) = false := by
      simp [hp, hin, hlk, ht]
    refine upd_completes (doThermalTrip sensor temp) rfl ?_
    simp only [doThermalTrip, hgo, Bool.false_eq_true, if_false, ← hd]
  · have hgo : (!s.dev.su.powered || s.dev.pw.off == .input || s.dev.pw.off == .leak) = false := by simp [hp, hin, hlk]
    refine upd_completes doLeak rfl ?_
    simp only [doLeak, hgo, Bool.false_eq_true, if_false]
  · have hgo : (!s.dev.su.powered || s.dev.pw.off == .input || (decide (4000 ≤ vin.toNat) && decide (vin.toNat ≤ 6000))) = false := by
      simp only [hp, Bool.not_true, beq_eq_false_iff_ne.mpr hin, Bool.or_false, Bool.false_or, Bool.and_eq_false_iff, decide_eq_false_iff_not]
      omega
    refine upd_completes (doInputShutdown vin.toNat) rfl ?_
    simp only [doInputShutdown, hgo, Bool.false_eq_true, if_false, ← hd]
  · have hgo : (!s.dev.su.powered || s.dev.pw.off == .input || getF s.dev fPW_STATUS_REFCLK_OK == 0) = false := by simp [hp, hon, hok]
    refine upd_completes doRefclkLoss rfl ?_
    simp only [doRefclkLoss, hgo, hlost, Bool.false_eq_true, if_false, if_pos hon, ← hd, setF_pw]
  · refine setupWr_completes rfl ht ?_
    simp only [budgetEff, hlo, hhi, and_self, if_true]
  · refine setupWr_completes rfl ht ?_
    simp only [rampEff, hr, hf, decide_true, Bool.and_self, if_true]

/-! ## Sleep, wake, droop, ageing and energy -/

/-- Settles O53: each row by what its command does. -/
theorem sleepAndEnergyComplete : Obligations.SleepAndEnergyComplete := by
  unfold Obligations.SleepAndEnergyComplete
  refine ⟨fun s cl d hg hidle hr hd => ?_, fun s r hst hgr hpg hf ht => ?_, fun s die hsr hl hall hm => ?_, fun s cl d hg hst hd => ?_, fun s r hst => ?_,
    fun s die => upd_completes (fun d => wakeDie d die) rfl rfl, fun s cl mv hmv hst hs => ?_, fun s cl => upd_completes (doDroopRelease cl) rfl rfl,
    fun s core p new hup hv hst hp hnew => ?_, fun s m kn kd runs idle cl d d2 d3 d4 hp hin hk hd hruns hidle hd4 => ?_⟩
  · refine upd_completes (doClockGate cl) rfl ?_
    simp only [doClockGate, hg, hidle, decide_eq_false (Nat.not_le.mpr hr), Bool.not_true, Bool.or_self, Bool.false_eq_true, if_false, ← hd]
  · refine upd_completes (doPowerGate r) rfl ?_
    simp only [doPowerGate, hst, hgr, hpg, hf, ht, ne_eq, not_true_eq_false, Bool.false_eq_true, Bool.true_eq_false, or_self, if_false]
  · refine upd_completes (doSelfRefresh die) rfl ?_
    simp only [doSelfRefresh, hsr, hl, hall, hm, Bool.false_eq_true, or_self, if_false]
  · refine upd_completes (doClusterWake cl) rfl ?_
    have hst' : getF d (fPW_RGN_STATE (cl.val / 6)) = 1 := by rw [hd]; exact hst
    simp only [doClusterWake, wakeCl, hg, hst, ← hd, hst', Bool.not_true, Bool.false_or, Nat.reduceLeDiff, decide_false, Bool.false_eq_true, if_false, if_true]
  · refine upd_completes (doRegionWake r) rfl ?_
    simp only [doRegionWake, hst, ne_eq, not_true_eq_false, if_false]
  · refine upd_completes (doDroop cl mv) rfl ?_
    simp only [doDroop, Nat.not_le.mpr hmv, Nat.not_le.mpr hst, hs, Bool.false_eq_true, or_self, if_false]
  · have hgo : (!true || getF s.dev fPW_STATUS_REIN_UP == 0 || getF s.dev (fPW_RGN_VOLT_MV (core.val / 24)) != 650 + 25 * p.val || decide (2 ≤ getF s.dev (fPW_RGN_STATE (core.val / 24)))) = false := by
      simp [hup, hv, hst]
    refine upd_completes (doAgeingTest core p true) rfl ?_
    simp only [doAgeingTest, hgo, hp, Bool.false_eq_true, false_and, if_false, ← hnew]
  · have hgo : (!s.dev.su.powered || s.dev.pw.off == .input) = false := by simp [hp, hin]
    dsimp only at hd
    subst hd4
    refine upd_completes (doEnergySettle m) rfl ?_
    simp only [doEnergySettle, hgo, hk, hruns, hidle, Bool.false_eq_true, if_false, ← hd]

end Sys2Proof.Machine

/-! PROOF. The near tier's zeroing, and where the startup and reset rows complete (O23, O54). -/

namespace Sys2Proof.Machine

open Sys2Proof

/-! ## What the rows of startup do -/

/-- A command that changes device and firmware completes with what its function leaves. -/
theorem updWhole_completes {c : Instr} {s t : State} (f : State → State) (he : exec c s = updWhole s f) (ht : f s = t) : CompletesTo c s t := by
  rw [CompletesTo, he, updWhole, ht]

/-- What Halter waits for: Stand is over, the planes are on, the reference clock is valid and a host port is released (R616, R618). -/
def HalterReady (d : Dev) (port : Fin 2) : Prop :=
  d.su.standDone = true ∧ d.su.begun = false ∧ d.pw.off = .on ∧ getF d fPW_STATUS_REFCLK_OK = 1 ∧ stage d ≠ 3 ∧ portReleased d port = true

/-- The test `tryHalter` makes, where Halter is ready. -/
theorem halterReady_tested {d : Dev} {port : Fin 2} (h : HalterReady d port) :
    (d.su.standDone && !d.su.begun && d.pw.off == .on && getF d fPW_STATUS_REFCLK_OK == 1 && stage d != 3 && [0, 1].any (portReleased d)) = true := by
  obtain ⟨hst, hb, hon, href, h3, hrel⟩ := h
  have hany : [0, 1].any (portReleased d) = true := List.any_eq_true.mpr ⟨port.val, by fin_cases port <;> simp, hrel⟩
  simp [hst, hb, hon, href, h3, hany]

/-- R616: with a sequencer image that verifies, Halter begins. -/
theorem tryHalter_verified {d : Dev} {port : Fin 2} (h : HalterReady d port) (img : Nat) (stay : Bool) :
    tryHalter d (some img) stay = pushEvents (beginHalter { d with su := { d.su with seqOk := true } } img stay) := by
  unfold tryHalter
  exact if_pos (halterReady_tested h)

/-- R616: with none, it fails. -/
theorem tryHalter_unverified {d : Dev} {port : Fin 2} (h : HalterReady d port) (stay : Bool) :
    tryHalter d none stay = pushEvents (failFw { d with su := { d.su with seqOk := false } }) := by
  unfold tryHalter
  exact if_pos (halterReady_tested h)

/-- A step that each element of a list leaves undone is the identity. -/
theorem foldl_of_fixed {α β : Type} {f : α → β → α} {a : α} : ∀ {l : List β}, (∀ b ∈ l, f a b = a) → l.foldl f a = a
  | [], _ => rfl
  | b :: l, h => by
    rw [List.foldl_cons, h b List.mem_cons_self]
    exact foldl_of_fixed (fun c hc => h c (List.mem_cons_of_mem _ hc))

/-! ## The near tier (R619 step 7) -/

/-- Reading memory of which the near part has been dropped. -/
theorem tabGet_far {α : Type} (x : Nat → α) (t : Tab α) (a : Nat) :
    tabGet x (t.filter (fun e => !isNear e.1)) a = if isNear a then x a else tabGet x t a := by
  induction t with
  | nil => simp [tabGet]
  | cons e t ih =>
    by_cases hn : isNear e.1 = true
    · rw [List.filter_cons_of_neg (by simp [hn]), ih]
      by_cases hk : e.1 = a
      · simp [← hk, hn]
      · rw [tabGet, if_neg hk]
    · rw [List.filter_cons_of_pos (by simpa using hn), tabGet, tabGet, ih]
      by_cases hk : e.1 = a
      · rw [if_pos hk, if_pos hk, if_neg (hk ▸ hn)]
      · rw [if_neg hk, if_neg hk]

theorem noteStep_ms (s : Dev) (k : Nat) : (noteStep s k).ms = s.ms := by
  unfold noteStep
  split <;> rfl

theorem halterWork_ms (s : Dev) : (halterWork s).ms = s.ms := by
  unfold halterWork
  extract_lets past s1 s2
  have h1 : s1.ms = s.ms := by
    show (if _ then noteStep s 4 else s).ms = s.ms
    split
    · exact noteStep_ms s 4
    · rfl
  have h2 : s2.ms = s1.ms := by
    show (if _ then noteStep s1 9 else s1).ms = s1.ms
    split
    · exact noteStep_ms s1 9
    · rfl
  split
  · rw [noteStep_ms, h2, h1]
  · rw [h2, h1]

/-- Zeroing of the near tier, where its turn has come (R619 step 7). -/
theorem doNearTierZeroing_zeroes {s d : Dev} (hb : s.su.begun = true) (h5 : stepDone s 5 = true) (h7 : stepDone s 7 = false)
    (hd : d = modMs s (fun m => { m with tier := m.tier.filter (fun e => !isNear e.1), tierPoison := m.tierPoison.filter (fun x => !isNear (64 * x)), tierErr := m.tierErr.filter (fun e => !isNear (64 * e.1)) })) :
    doNearTierZeroing s = halterWork (noteStep (setF d fMT_STATUS_NEAR_ZEROED 1) 7) := by
  have hgo : (!s.su.begun || !stepDone s 5 || stepDone s 7) = false := by simp [hb, h5, h7]
  simp only [doNearTierZeroing, hgo, Bool.false_eq_true, if_false, ← hd]

/-- Settles O23: the row drops the near part of memory and touches no other byte. -/
theorem nearZeroingClears : Obligations.NearZeroingClears := by
  unfold Obligations.NearZeroingClears
  intro s t hb h5 h7 ht a
  have ht : t = { s with dev := doNearTierZeroing s.dev } := (Host.Outcome.next.inj ht).symm
  have hms : t.dev.ms.tier = s.dev.ms.tier.filter (fun e => !isNear e.1) := by
    rw [ht, doNearTierZeroing_zeroes hb h5 h7 rfl, halterWork_ms, noteStep_ms, setF_ms, modMs_ms]
  rw [hms, tabGet_far]

/-! ## Startup and reset -/

/-- Settles O54: each row by what its command does. -/
theorem startupCompletes : Obligations.StartupCompletes := by
  unfold Obligations.StartupCompletes
  refine ⟨fun s m h => ?_, fun s hn hp h0 => ?_, fun s hp h1 hl => ?_, fun s port d hr hp hon hd => ⟨fun ho => ?_, fun ho => ?_⟩,
    fun s port d hp hd hst hb hon href h3 hrel => ⟨fun img himg => ?_, fun himg => ?_⟩, fun s hp hin => ?_, fun s hl hok hoff => ?_, fun s port hp hon hrel hup hb => ?_,
    fun s hb h5 => ?_, fun s d hb h5 h7 hd => ?_, fun s f result d hb hf hd => ?_, fun s r d ht hturn hd => ?_, fun s d h1 h12 hd => ?_, fun s pmin h1 h12 hc => ?_,
    fun s d hb hlt htrial hd => ?_, fun s port ht hbusy => ?_⟩
  · have hgo : (!s.dev.su.powered || s.dev.pw.off == .input) = true := by
      rcases h with h | h <;> simp [h]
    refine updWhole_completes (doStand m) rfl ?_
    simp only [doStand, hgo, if_true]
  · refine upd_completes (doPrimaryArbitration hn) rfl ?_
    simp only [doPrimaryArbitration, hp, h0, Bool.not_true, Bool.false_eq_true, if_false, if_true]
  · refine upd_completes (doPrimaryArbitration false) rfl ?_
    simp only [doPrimaryArbitration, hp, h1, hl, Bool.not_true, Bool.false_eq_true, Nat.one_ne_zero, and_self, if_false, if_true]
  · have hgo : (!d.su.powered || d.pw.off != .on) = false := by subst hd; simp [hp, hon]
    refine upd_completes (doPerstAssert port (seqImage s.sec)) rfl ?_
    simp only [doPerstAssert, hr, ← hd, hgo, ho, Bool.false_eq_true, if_false, if_true]
  · have hgo : (!d.su.powered || d.pw.off != .on) = false := by subst hd; simp [hp, hon]
    refine upd_completes (doPerstAssert port (seqImage s.sec)) rfl ?_
    simp only [doPerstAssert, hr, ← hd, hgo, ho, Bool.false_eq_true, if_false]
  · have hpd : d.su.powered = true := by subst hd; simp [hp]
    refine upd_completes (doPerstRelease port (seqImage s.sec)) rfl ?_
    simp only [doPerstRelease, ← hd, hpd, himg, if_true, tryHalter_verified ⟨hst, hb, hon, href, h3, hrel⟩]
  · have hpd : d.su.powered = true := by subst hd; simp [hp]
    refine upd_completes (doPerstRelease port (seqImage s.sec)) rfl ?_
    simp only [doPerstRelease, ← hd, hpd, himg, if_true, tryHalter_unverified ⟨hst, hb, hon, href, h3, hrel⟩]
  · have hgo : (s.dev.su.powered && s.dev.pw.off != .input) = true := by simp [hp, hin]
    refine upd_completes (doRefclkValid (seqImage s.sec)) rfl ?_
    simp only [doRefclkValid, hgo, if_true]
  · refine updWhole_completes doRefclkRestart rfl ?_
    simp only [doRefclkRestart, hl, hok, hoff, beq_self_eq_true, Bool.and_self, if_true]
  · have hgo : (s.dev.su.powered && s.dev.pw.off == .on && portReleased s.dev port && !portUp s.dev port && (s.dev.su.begun || stage s.dev == 3)) = true := by
      simp [hp, hon, hrel, hup, hb]
    refine upd_completes (doDlUp port) rfl ?_
    simp only [doDlUp, hgo, if_true]
  · have hgo : (!s.dev.su.begun || stepDone s.dev 5) = false := by simp [hb, h5]
    refine upd_completes (doStackTraining (BitVec.allOnes 16).toNat) rfl ?_
    simp only [doStackTraining, hgo, Bool.false_eq_true, if_false]
    rw [foldl_of_fixed]
    intro k hk
    have hlt : k < 16 := by
      rw [List.mem_filter, List.mem_range] at hk
      exact hk.1
    have hbit : (BitVec.allOnes 16).toNat.testBit k = true := by
      rw [BitVec.toNat_allOnes, Nat.testBit_two_pow_sub_one, decide_eq_true hlt]
    exact if_pos hbit
  · exact upd_completes doNearTierZeroing rfl (doNearTierZeroing_zeroes hb h5 h7 hd)
  · have hgo : (!s.dev.su.begun || s.dev.su.farDone.getLsbD f) = false := by rw [hb, hf]; rfl
    subst hd
    refine upd_completes (doFarPortEnumeration f result) rfl ?_
    simp only [doFarPortEnumeration, hgo, Bool.false_eq_true, if_false]
  · refine upd_completes (doRegionSelftestDone r true) rfl ?_
    simp only [doRegionSelftestDone, ht, hturn, halterTest, Bool.false_eq_true, if_false, if_true, ← hd]
  · subst hd
    refine upd_completes doHalterCutoff rfl ?_
    simp only [doHalterCutoff, h1, h12, and_self, if_true]
  · refine upd_completes (doSaddle pmin) rfl ?_
    simp only [doSaddle, h1, h12, hc, List.isEmpty_nil, and_self, if_true]
  · have hgo : (s.dev.su.begun && (stage s.dev == 0 || stage s.dev == 1 || stage s.dev == 4)) = true := by
      have : stage s.dev = 0 ∨ stage s.dev = 1 := by omega
      rcases this with h | h <;> simp [hb, h]
    have htrial : ¬ (s.sec.trial ≠ 0 ∧ s.sec.run = s.sec.trial) := fun ⟨h0, h1⟩ => htrial.elim h0 (fun h => h h1)
    refine updWhole_completes doSaddleTimeout rfl ?_
    simp only [doSaddleTimeout, hgo, if_true, ← hd, if_neg htrial]
  · obtain ⟨_, _, _, _, _, hst, _⟩ := id ht
    have hgo : ¬ (fld (0xD5 : Word) 7 0 ≠ 0xD5 ∨ stage s.dev = 0 ∨ stage s.dev = 4 ∨ getF s.dev fSU_RESET_BUSY = 1) := by
      simp [hst, hbusy, fld, nField]
    refine setupWr_completes rfl ht ?_
    rw [suResetEff, if_neg hgo, deviceReset]

end Sys2Proof.Machine

/-! PROOF. Where the mailbox's opcodes, firmware update, debug authorization, monitoring and trust rows complete (O55 to O58). -/

namespace Sys2Proof.Machine

open Sys2Proof

/-! ## The mailbox -/

/-- A request firmware holds of an opcode is answered as the opcode does. -/
theorem mbxRow_completes {c : Instr} {s t : State} {opc : Nat} {inHalter : Bool} {lenOk : Nat → Bool} {lens : Nat → Prop} (f : State → State)
    (he : exec c s = updWhole s (mbxRow opc inHalter lenOk f)) (hl : ∀ n, lens n → lenOk n = true) (h : MailAsked s opc inHalter lens) (ht : f s = t) :
    CompletesTo c s t :=
  updWhole_completes _ he ((mbxRow_asked hl h).trans ht)

theorem beq_of_length (k n : Nat) (h : n = k) : (n == k) = true := beq_iff_eq.mpr h

/-- Settles O55: each opcode by what it answers. -/
theorem mailboxCompletes : Obligations.MailboxCompletes := by
  unfold Obligations.MailboxCompletes
  refine ⟨fun s h => mbxRow_completes getInfo rfl (beq_of_length 0) h rfl, fun s m d h hm h0 hall hd => ?_,
    fun s h => mbxRow_completes (fun s => { s with dev := selftestResult s.dev }) rfl (beq_of_length 0) h rfl,
    fun s h => mbxRow_completes (fun s => { s with dev := stageLog s.dev }) rfl (beq_of_length 0) h rfl,
    fun s h => mbxRow_completes fwQuery rfl (beq_of_length 0) h rfl, fun s h hu hlen => ?_, fun s u h hu hp hlen => ?_, fun s u h hu hp => ?_, fun s u h hu hp hv => ?_,
    fun s h hok => ?_, fun s h hp => ?_, fun s r d hr hd hirq => ?_⟩
  · refine mbxRow_completes (fun s => { s with dev := selftest s.dev }) rfl (beq_of_length 4) h ?_
    simp only [selftest, ← hm, hall, if_true, ← hd, if_neg h0]
  · refine mbxRow_completes fwBegin rfl (beq_of_length 4) h ?_
    simp only [fwBegin, hu, Option.isSome_none, Bool.false_eq_true, Nat.not_lt.mpr hlen, if_false]
  · refine mbxRow_completes fwWrite rfl (fun n hn => by simp [hn]) h ?_
    simp only [fwWrite, hu, hp, ne_eq, not_true_eq_false, Nat.not_lt.mpr hlen, if_false]
  · refine mbxRow_completes fwVerify rfl (beq_of_length 0) h ?_
    simp only [fwVerify, hu, hp, ne_eq, not_true_eq_false, if_false]
  · refine mbxRow_completes fwActivate rfl (beq_of_length 0) h ?_
    simp only [fwActivate, hu, hp, hv, and_self, if_true]
  · refine mbxRow_completes fwCommit rfl (beq_of_length 0) h ?_
    simp only [fwCommit, hok, if_true]
  · refine mbxRow_completes fwAbort rfl (beq_of_length 0) h ?_
    cases hu : s.sec.update with
    | none => simp only [fwAbort, hu]
    | some u => simp only [fwAbort, hu, hp u hu, if_true]
  · refine upd_completes doMailboxResponse rfl ?_
    simp only [doMailboxResponse, hr, ← hd, hirq, Nat.zero_ne_one, if_false]

/-! ## Firmware update by PLDM, restarts and debug authorization -/

/-- Settles O56: each row by what its command does. -/
theorem updatesAndDebugComplete : Obligations.UpdatesAndDebugComplete := by
  unfold Obligations.UpdatesAndDebugComplete
  refine ⟨fun s len ha hu hlen => ?_, fun s u comp size t ha hu hp h0 hc hlen ht => ?_, fun s u o data t ha hu hp hc hlen ht => ?_, fun s u o data t ha hu hp hc hlen ht => ?_,
    fun s u ha hu hp => ?_, fun s u q ha hu hp hv hq => ?_, fun s ha => ?_, fun s u hu => ?_, fun s hp hup ht hr => ?_, fun s hp hpr => ⟨?_, ?_⟩, fun s nonce ha => ?_,
    fun s serial nonce sig ha => ?_, fun s ha hdbg => ?_⟩
  · refine updWhole_completes (doRequestUpdate len) rfl ?_
    simp only [doRequestUpdate, ha, hu, Option.isSome_none, Bool.not_true, Bool.false_eq_true, Nat.not_lt.mpr hlen, if_false]
  · have hne : comp.val ≠ u.comp := by omega
    have hgo : ¬ (u.path ≠ 2 ∨ comp.val = 0 ∨ 3 < comp.val ∨ (comp.val ≠ u.comp ∧ comp.val ≠ u.comp + 1) ∨ u.len < u.base + u.size + size) := by
      have := comp.isLt
      omega
    refine updWhole_completes (doUpdateComponent comp size) rfl ?_
    simp only [doUpdateComponent, hu, if_neg hne, ha, Bool.not_true, Bool.false_eq_true, if_false, if_neg hgo, ht]
  · have hgo : (!answers s || u.path != 2 || u.comp == 0 || decide (u.size < o + data.length)) = false := by
      simp [ha, hp, hc, Nat.le_of_lt hlen]
    refine updWhole_completes (doFirmwareData o data) rfl ?_
    simp only [doFirmwareData, hu, hgo, Bool.false_eq_true, if_false, if_pos hlen, ← ht]
  · have hgo : (!answers s || u.path != 2 || u.comp == 0 || decide (u.size < o + data.length)) = false := by
      simp [ha, hp, hc, hlen]
    refine updWhole_completes (doFirmwareData o data) rfl ?_
    simp only [doFirmwareData, hu, hgo, Bool.false_eq_true, if_false, if_neg (Nat.not_lt.mpr hlen.ge), ← ht]
  · refine updWhole_completes doCancelUpdate rfl ?_
    simp only [doCancelUpdate, ha, hu, hp, Bool.not_true, Bool.false_eq_true, if_false, if_true]
  · refine updWhole_completes (doActivateFirmware false) rfl ?_
    simp only [doActivateFirmware, ha, hu, hp, hv, hq, Bool.not_true, Bool.false_eq_true, ne_eq, not_true_eq_false, if_false, if_true]
  · refine updWhole_completes (doActivateFirmware true) rfl ?_
    simp only [doActivateFirmware, ha, Bool.not_true, Bool.false_eq_true, if_false, if_true]
  · refine updWhole_completes doUpdateIdleExpiry rfl ?_
    simp only [doUpdateIdleExpiry, hu]
  · have hgo : (s.dev.su.powered && !s.dev.bridle.up && s.sec.trial != 0 && s.sec.run == s.sec.trial) = true := by
      simp [hp, hup, ht, hr]
    refine updWhole_completes doTrialBootFailure rfl ?_
    simp only [doTrialBootFailure, hgo, if_true]
  · have hgo : (!s.dev.su.powered || getF s.dev fSU_FW_PRIMARY == 0) = false := by simp [hp, hpr]
    refine updWhole_completes (doManagementPlaneRestart true) rfl ?_
    simp only [doManagementPlaneRestart, hgo, Bool.false_eq_true, if_false, if_true]
  · have hgo : (!s.dev.su.powered || getF s.dev fSU_FW_PRIMARY == 0) = false := by simp [hp, hpr]
    refine updWhole_completes (doManagementPlaneRestart false) rfl ?_
    simp only [doManagementPlaneRestart, hgo, Bool.false_eq_true, if_false]
  · refine updWhole_completes (doDebugNonce nonce) rfl ?_
    simp only [doDebugNonce, ha, if_true]
  · refine updWhole_completes (doDebugToken serial nonce sig) rfl ?_
    simp only [doDebugToken, ha, Bool.not_true, Bool.false_eq_true, if_false]
  · refine updWhole_completes doDebugDisable rfl ?_
    simp only [doDebugDisable, ha, hdbg, Bool.and_self, if_true]

/-! ## PLDM monitoring, MCTP and I3C -/

/-- Settles O57: each request by what it is answered. -/
theorem monitoringCompletes : Obligations.MonitoringCompletes := by
  unfold Obligations.MonitoringCompletes
  refine ⟨fun s ha => ⟨?_, ?_, ?_, fun type ht => ?_, fun id v hv => ?_, fun id e he => ?_, fun v hlo hhi => ?_, fun v hv => ?_, fun v hv => ?_, fun temps hoff hcool => ?_,
    fun x y l hl => ?_, fun x hx => ?_, fun eid => ?_⟩, fun s ha => ⟨fun eid h0 h255 => ?_, fun pid addr hp => ?_⟩⟩
  · refine updWhole_completes doGetTid rfl ?_
    simp only [doGetTid, ha, if_true]
  · refine updWhole_completes doGetPldmTypes rfl ?_
    simp only [doGetPldmTypes, pldmTypes, ha, if_true]
  · refine updWhole_completes (doGetPldmVersion 5) rfl ?_
    simp only [doGetPldmVersion, ha, Bool.not_true, Bool.false_eq_true, if_false, if_true]
  · refine updWhole_completes (doGetPldmCommands type) rfl ?_
    simp only [doGetPldmCommands, ha, List.contains_iff_mem.mpr ht, if_true]
  · refine updWhole_completes (doGetSensorReading id.toNat) rfl ?_
    simp only [doGetSensorReading, ha, hv, if_true]
  · refine updWhole_completes (doGetStateSensorReadings id.toNat) rfl ?_
    simp only [doGetStateSensorReadings, ha, he, if_true]
  · refine updWhole_completes (doSetNumericEffecterValue 0x80 v.toNat) rfl ?_
    simp only [doSetNumericEffecterValue, setEffecter, ha, hlo, hhi, Bool.not_true, Bool.false_eq_true, and_self, if_false, if_true]
  · refine updWhole_completes (doSetNumericEffecterValue 0x81 v.toNat) rfl ?_
    simp only [doSetNumericEffecterValue, setEffecter, ha, hv, Bool.not_true, Bool.false_eq_true, Nat.reduceEqDiff, false_and, and_self, if_false, if_true]
  · refine updWhole_completes (doSetNumericEffecterValue 0x82 v.toNat) rfl ?_
    simp only [doSetNumericEffecterValue, setEffecter, ha, hv, Bool.not_true, Bool.false_eq_true, Nat.reduceEqDiff, false_and, and_self, if_false, if_true]
  · refine updWhole_completes (doSetStateEffecterStates 0x83 temps) rfl ?_
    simp only [doSetStateEffecterStates, ha, hoff, hcool, ne_eq, not_true_eq_false, Bool.not_true, Bool.false_eq_true, and_self, if_false, if_true]
  · refine updWhole_completes doPlatformEventAck rfl ?_
    simp only [doPlatformEventAck, ha, hl, List.tail_cons, List.isEmpty_cons, Bool.not_true, Bool.false_eq_true, if_false]
  · refine updWhole_completes doPlatformEventAck rfl ?_
    simp only [doPlatformEventAck, ha, hx, List.tail_cons, List.isEmpty_nil, Bool.not_true, Bool.false_eq_true, if_false, if_true]
  · refine updWhole_completes (doSetEventReceiver eid) rfl ?_
    simp only [doSetEventReceiver, ha, if_true]
  · have hne : ¬ (eid.toNat = 0 ∨ eid.toNat = 255) := by bv_omega
    refine updWhole_completes (doSetEndpointId eid.toNat) rfl ?_
    simp only [doSetEndpointId, ha, Bool.not_true, Bool.false_eq_true, if_false, if_neg hne]
  · refine updWhole_completes (doDynamicAddressAssignment pid addr.toNat) rfl ?_
    simp only [doDynamicAddressAssignment, ha, hp, beq_self_eq_true, Bool.and_self, if_true]

/-! ## SPDM and trusted interfaces -/

/-- R723: an SPDM request in its turn is answered. -/
theorem spdm_completes {c : Instr} {s : State} {code : Nat} {ok : Bool} {f : Spdm → Spdm} {data : List Nat} (F : State → State) (he : exec c s = updWhole s F)
    (hF : F s = spdm s code ok f data) (ha : answers s = true) (hok : ok = true) : CompletesTo c s (respond (setSpdm s (f s.dev.mg.spdm)) code data) := by
  refine updWhole_completes F he (hF.trans ?_)
  simp only [spdm, ha, hok, Bool.not_true, Bool.false_eq_true, if_false, if_true]

/-- Settles O58: each request by what it is answered. -/
theorem trustCompletes : Obligations.TrustCompletes := by
  unfold Obligations.TrustCompletes
  refine ⟨fun s ha => ⟨spdm_completes doGetVersion rfl rfl ha rfl, fun hv => spdm_completes doGetCapabilities rfl rfl ha hv,
      fun hv hc => spdm_completes (doNegotiateAlgorithms true true true true) rfl rfl ha (by simp [hv, hc]),
      fun hn => ⟨spdm_completes doGetDigests rfl rfl ha hn, spdm_completes (doGetCertificate 0) rfl rfl ha (by simp [hn]), spdm_completes (doChallenge 0) rfl rfl ha (by simp [hn]),
        spdm_completes (doGetMeasurements 0) rfl rfl ha (by simp [hn]), fun index hlo hhi => ?_, spdm_completes (doGetMeasurements 0xFF) rfl rfl ha (by simp [hn]),
        spdm_completes (f := fun x => { x with handshake := some x.nextId, nextId := x.nextId + 1 }) doKeyExchange rfl rfl ha hn⟩,
      fun id hid => spdm_completes (doFinish id) rfl rfl ha (by simp [hid]),
      fun id hid => ⟨spdm_completes (doHeartbeat id) rfl rfl ha hid, spdm_completes (doKeyUpdate id) rfl rfl ha hid, spdm_completes (doEndSession id) rfl rfl ha hid⟩⟩,
    fun s port ho => ⟨fun slice => ?_, fun session stream hs hk hlt => ?_, fun slice ht => ?_, fun slice ht => ?_, fun slice => ?_⟩⟩
  · have h0 : index.toNat ≠ 0 := by omega
    have hFF : index.toNat ≠ 0xFF := by omega
    refine updWhole_completes (doGetMeasurements index.toNat) rfl ?_
    simp only [doGetMeasurements, spdm, ha, hn, decide_eq_true hhi, h0, hFF, Bool.true_or, Bool.and_self, Bool.not_true, Bool.false_eq_true, if_false, if_true]
    rfl
  · refine updWhole_completes (doGetDeviceInterfaceReport port slice) rfl ?_
    simp only [doGetDeviceInterfaceReport, ho, if_true]
  · have hgo : (!hasSession s.dev.mg.spdm session || (!(getPort s.dev port).ideKeys.contains stream.val && decide (stream.val < 256)
        && decide (8 ≤ ((getPort s.dev port).ideKeys.filter (fun k => decide (k < 256))).length))) = false := by
      rcases hlt with h | h
      · simp [hs, h]
      · simp only [hs, decide_eq_false (Nat.not_le.mpr h), Bool.not_true, Bool.and_false, Bool.or_self]
    refine updWhole_completes (doIdeKm port session stream) rfl ?_
    simp only [doIdeKm, ho, hgo, Bool.not_true, Bool.false_eq_true, if_false]
  · refine updWhole_completes (doLockInterface port slice) rfl ?_
    simp only [doLockInterface, ho, ht, Bool.not_true, Bool.false_eq_true, if_false, if_true]
  · refine updWhole_completes (doStartInterface port slice) rfl ?_
    simp only [doStartInterface, ho, ht, Bool.not_true, Bool.false_eq_true, if_false, if_true]
  · refine updWhole_completes (doStopInterface port slice) rfl ?_
    simp only [doStopInterface, ho, if_true]

end Sys2Proof.Machine

/-! PROOF. Where the scale-out rows complete (O59). -/

namespace Sys2Proof.Machine

open Sys2Proof

/-! ## Frames -/

theorem portHub_lt (p : Fin 48) : portHub p < 2 := by
  unfold portHub
  omega

/-- A frame that is taken acts by its OP, counted in its hub (R741, R742). -/
theorem doPacket_taken {s : Dev} {port : Fin 48} {p q : Packet} {op : Nat} (hq : q = { p with op := BitVec.ofNat 4 op }) (h : FrameTaken s port q) :
    doPacket op port p s = packetIn port q (countHub s (portHub port) 0xC5 (32 + q.payload.length)) := by
  obtain ⟨hen, hup, hhub, hok, hfec, hgood, hw, -⟩ := h
  rw [doPacket, ← hq]
  simp only [hen, hup, hhub, hok, hfec, hgood, hw, ne_eq, not_true_eq_false, Nat.one_ne_zero, Bool.false_eq_true, Bool.true_eq_false, false_and, or_self, if_false]

/-- A frame that is taken is a request or is addressed to the module. -/
theorem frameTaken_addressed {s : Dev} {port : Fin 48} {q : Packet} (h : FrameTaken s port q) :
    ¬ (q.op ≠ 1 ∧ q.op ≠ 2 ∧ q.op ≠ 4 ∧ q.dst.toNat ≠ getF (countHub s (portHub port) 0xC5 (32 + q.payload.length)) fSO_CFG_MODULE_ID) := by
  obtain ⟨-, -, -, -, -, -, -, hdst⟩ := h
  have hreg : getF (countHub s (portHub port) 0xC5 (32 + q.payload.length)) fSO_CFG_MODULE_ID = getF s fSO_CFG_MODULE_ID := by
    rw [getF, reg_countHub_outside s _ _ (portHub_lt port) (by decide), getF]
  rw [hreg]
  exact fun ⟨h1, h2, h4, hd⟩ => hdst.elim h1 (fun h => h.elim h2 (fun h => h.elim h4 hd))

/-! ## Requests of received flows -/

/-- The first element that a predicate takes, after a change the predicate does not see. -/
theorem find?_updAll {α : Type} {p : α → Bool} {f : α → α} (hp : ∀ x, p (f x) = p x) : ∀ {l : List α} {x : α}, l.find? p = some x → (updAll p f l).find? p = some (f x)
  | [], _, h => by simp at h
  | y :: l, x, h => by
    rw [updAll, List.map_cons]
    cases hy : p y with
    | true =>
      rw [List.find?_cons_of_pos hy] at h
      rw [if_pos rfl, List.find?_cons_of_pos ((hp y).trans hy), Option.some.inj h]
    | false =>
      rw [List.find?_cons_of_neg (by simp [hy])] at h
      rw [if_neg Bool.false_ne_true, List.find?_cons_of_neg (by simp [hy])]
      exact find?_updAll hp h

theorem modRx_rx (s : Dev) (k : RxFlow → Bool) (f : RxFlow → RxFlow) : (modRx s k f).tandem.rx = updAll k f s.tandem.rx := rfl

theorem isRx_held (eng src tc : Nat) (f : RxFlow) (l : List Packet) : isRx eng src tc { f with held := l } = isRx eng src tc f := rfl

/-- The next request of a flow is held, performed and acknowledged (R747, R748). -/
theorem rxData_next {s d1 d2 : Dev} {port : Fin 48} {q : Packet} {f : RxFlow} {e : Nat} {l : List RxPart} (h : RxGoes s port q f d1 d2 e l) :
    rxData port q (countHub s (portHub port) 0xC5 (32 + q.payload.length))
      = rxAck port q (rxAnswer port (isRx q.eng.toNat q.src.toNat q.tc.toNat) (rxPerform d1 q).1 q (rxPerform d1 q).2) := by
  obtain ⟨-, hfind, hheld, hexp, hack, hd1, hpg, -, -, -, -⟩ := h
  have hknown := List.any_eq_true.mpr ⟨f, List.mem_of_find?_eq_some hfind, List.find?_some hfind⟩
  have hfind1 : d1.tandem.rx.find? (isRx q.eng.toNat q.src.toNat q.tc.toNat) = some { f with held := f.held ++ [q] } := by
    rw [hd1, modRx_rx]
    exact find?_updAll (f := fun f : RxFlow => { f with held := f.held ++ [q] }) (fun f => isRx_held _ _ _ f _) hfind
  have hzero : (q.psn.toNat + 2 ^ 32 - q.psn.toNat) % 2 ^ 32 = 0 := by omega
  simp only [rxData, hknown, hfind, hheld, hexp, hack, hzero, Bool.not_true, Bool.false_and, Bool.false_eq_true, if_false, if_true, List.any_nil, List.length_nil,
    bne_self_eq_false, Bool.or_self, Nat.ofNat_pos, ← hd1]
  simp only [rxChain, hfind1, hheld, hexp, hpg, List.nil_append, List.find?_cons, beq_self_eq_true, Bool.false_eq_true, if_false]

/-- A request that an export entry admits is performed as its OP says (R747, R751). -/
theorem rxPerform_goes {s d1 d2 : Dev} {port : Fin 48} {q : Packet} {f : RxFlow} {e : Nat} {l : List RxPart} (h : RxGoes s port q f d1 d2 e l) :
    (q.op = 1 → rxPerform d1 q = (rxWrite (getF d1 (fSO_EXP0_SLICE e)) q d2 l, none))
    ∧ (q.op = 4 → rxPerform d1 q = (rxReduce (getF d1 (fSO_EXP0_SLICE e)) q d2 l, none))
    ∧ (q.op = 2 → rxPerform d1 q = ((rxRead (getF d1 (fSO_EXP0_SLICE e)) d2 l).1,
        some { replyTo (rxRead (getF d1 (fSO_EXP0_SLICE e)) d2 l).1 3 q with
          poison := anyPoison (rxRead (getF d1 (fSO_EXP0_SLICE e)) d2 l).2, len := q.len, tag := q.tag, payload := (rxRead (getF d1 (fSO_EXP0_SLICE e)) d2 l).2.map (fun x => x.1) })) := by
  obtain ⟨-, -, -, -, -, -, -, hdst, hexp, hright, hparts⟩ := h
  simp only [rxPerform, hdst, hexp, hright, hparts, ne_eq, not_true_eq_false, if_false]
  refine ⟨fun hop => if_pos hop, fun hop => ?_, fun hop => ?_⟩
  · rw [if_neg (by rw [hop]; decide), if_pos hop]
  · rw [if_neg (by rw [hop]; decide), if_neg (by rw [hop]; decide)]

/-- A request that arrives goes to its flow (R748). -/
theorem packetIn_request {s : Dev} {port : Nat} {q : Packet} (h : q.op = 1 ∨ q.op = 2 ∨ q.op = 4) : packetIn port q s = rxData port q s := by
  rcases h with h | h | h <;> simp only [packetIn, h, ne_eq, not_true_eq_false, false_and, and_false, if_false] <;> rfl

/-- A request of a received flow, from its frame to its acknowledgement. -/
theorem doPacket_request {s d1 d2 : Dev} {port : Fin 48} {p q : Packet} {f : RxFlow} {e op : Nat} {l : List RxPart} (hq : q = { p with op := BitVec.ofNat 4 op })
    (hop : q.op = 1 ∨ q.op = 2 ∨ q.op = 4) (h : RxGoes s port q f d1 d2 e l) :
    doPacket op port p s = rxAck port q (rxAnswer port (isRx q.eng.toNat q.src.toNat q.tc.toNat) (rxPerform d1 q).1 q (rxPerform d1 q).2) := by
  rw [doPacket_taken hq h.1, packetIn_request hop, rxData_next h]

/-- The READ_RSP of a request is kept for its repetition and leaves (R748). -/
theorem rxAnswer_rsp {port : Nat} {k : RxFlow → Bool} {s : Dev} {h r : Packet} (hop : r.op = 3) :
    rxAnswer port k s h (some r) = sendPacket (modRx (modRx s k (fun f => { f with expect := (f.expect + 1) % 2 ^ 32, held := f.held.filter (fun x => x.psn != h.psn) })) k
      (fun f => { f with rsp := f.rsp.filter (fun x => decide ((f.expect + 2 ^ 32 - x.1) % 2 ^ 32 ≤ 65536)) ++ [(h.psn.toNat, r)] })) port r := if_pos hop

/-! ## Answers to this module's packets -/

/-- An acknowledgement with no bitmap (R748): what it covers is done. -/
theorem ackFlow_covers {s : Dev} {eng m tc ack : Nat} {f : TxFlow} (hf : txFlow s eng m tc = some f) :
    ackFlow s eng m tc ack 0 = launchAll (settlePeers (acked (modTx s (isFlow eng m tc) (fun g => { g with
        unacked := f.unacked.filter (fun x => !(psnCovered ack x.pkt.psn.toNat && x.pkt.op != 2)), ackAt := s.now,
        idleAt := if (f.unacked.filter (fun x => !(psnCovered ack x.pkt.psn.toNat && x.pkt.op != 2))).isEmpty then s.now else g.idleAt }))
      ((f.unacked.filter (fun x => psnCovered ack x.pkt.psn.toNat && x.pkt.op != 2)).flatMap (fun x => x.reqs)))) := by
  have hnone : (bitsOf 64 0).getLast? = none := by decide
  simp only [ackFlow, hf, hnone, List.foldl_nil]

/-- A packet that is no request acts by its OP, where its frame is taken. -/
theorem doPacket_answer {s d : Dev} {port : Fin 48} {p q : Packet} {op : Nat} (hq : q = { p with op := BitVec.ofNat 4 op }) (h : FrameTaken s port q)
    (hd : d = countHub s (portHub port) 0xC5 (32 + q.payload.length)) : doPacket op port p s = packetIn port q d := by
  rw [doPacket_taken hq h, hd]

/-- The module a word written to SO_PEER_RESET names. -/
theorem peerResetWord_mod (m : BitVec 12) : fld (m.setWidth 64 : Word) 11 0 = m.toNat := by
  have := m.isLt
  simp only [fld, nField, BitVec.toNat_setWidth]
  omega

/-! ## The rows -/

/-- Settles O59: each row by what its command does. -/
theorem scaleOutCompletes : Obligations.ScaleOutCompletes := by
  unfold Obligations.ScaleOutCompletes
  refine ⟨fun s port data ht hsz => ?_, fun s port p q f d1 d2 d3 e l hq h hd3 => ?_, fun s port p q f d1 d2 d3 e l hq h hd3 => ?_,
    fun s port p q rsp f d1 d2 d3 d4 d5 e l b hq h hread hrsp hd4 hd5 => ?_, fun s port p q r d eng tc x hq h hd hr heng htc hx => ?_,
    fun s port p q f d gone rest hq h hd hf hgone hrest => ?_, fun s port p q d d2 qs hq h hd hqs => ?_, fun s port p q f d hq h hd hf hecn => ?_,
    fun s port p q d hq h hd hdst hlen => ?_, fun s port p q d hq h hd => ?_, fun s port rest d hsrc hup hd => ?_,
    fun s eng m tc f hf => ⟨fun psn q port hq hp => ?_, fun port hp hecn => ?_, fun t ht hp => ?_, fun hne => ?_, fun hnil => ?_⟩,
    fun s port hst => ?_, fun s port hmode hst hhub hon => ?_, fun s port m gone d ht hgone hd => ⟨fun p rest hup => ?_, fun hup => ?_⟩⟩
  · have hsmall : [0, 1].any (fun h => decide (getF s.dev (fSO_RTX_SIZE_MIB h) < 64)) = false := by
      simp [hsz 0, hsz 1]
    refine setupWr_completes rfl ht ?_
    simp only [soCfgEff, hsmall, Bool.and_false, Bool.false_eq_true, if_false]
  · refine completesM (f := doPacket 1 port p) (fun _ => rfl) ?_
    have hop : q.op = 1 := by rw [hq]
    rw [doPacket_request hq (Or.inl hop) h, (rxPerform_goes h).1 hop, hd3]
    rfl
  · refine completesM (f := doPacket 4 port p) (fun _ => rfl) ?_
    have hop : q.op = 4 := by rw [hq]
    rw [doPacket_request hq (Or.inr (Or.inr hop)) h, (rxPerform_goes h).2.1 hop, hd3]
    rfl
  · refine completesM (f := doPacket 2 port p) (fun _ => rfl) ?_
    have hop : q.op = 2 := by rw [hq]
    have hrop : rsp.op = 3 := by rw [hrsp]; rfl
    rw [doPacket_request hq (Or.inr (Or.inl hop)) h, (rxPerform_goes h).2.2 hop, hread]
    dsimp only
    rw [← hrsp, rxAnswer_rsp hrop, hd5, hd4, rxNext]
  · refine completesM (f := doPacket 3 port p) (fun _ => rfl) ?_
    have hop : q.op = 3 := by rw [hq]
    rw [doPacket_answer hq h hd, packetIn, if_neg (hd ▸ frameTaken_addressed h), hop]
    show readRsp d q = _
    simp only [readRsp, hr, ← heng, ← htc, hx]
  · refine completesM (f := doPacket 5 port { p with addr := 0 }) (fun _ => rfl) ?_
    have hop : q.op = 5 := by rw [hq]
    have haddr : q.addr.toNat = 0 := by rw [hq]; rfl
    rw [doPacket_answer hq h hd, packetIn, if_neg (hd ▸ frameTaken_addressed h), hop]
    show ackFlow d q.eng.toNat q.src.toNat q.tc.toNat q.ack.toNat q.addr.toNat = _
    rw [haddr, ackFlow_covers hf, ← hgone, ← hrest]
  · refine completesM (f := doPacket 6 port p) (fun _ => rfl) ?_
    have hop : q.op = 6 := by rw [hq]
    rw [doPacket_answer hq h hd, packetIn, if_neg (hd ▸ frameTaken_addressed h), hop]
    show ackFlow ((psnDone d q.eng.toNat q.src.toNat q.tc.toNat q.psn.toNat).2.foldl peerFaults (psnDone d q.eng.toNat q.src.toNat q.tc.toNat q.psn.toNat).1) _ _ _ _ _ = _
    rw [hqs]
  · refine completesM (f := doPacket 7 port p) (fun _ => rfl) ?_
    have hop : q.op = 7 := by rw [hq]
    rw [doPacket_answer hq h hd, packetIn, if_neg (hd ▸ frameTaken_addressed h), hop]
    simp only [hf, hecn, if_false]
    rfl
  · refine completesM (f := doPacket 8 port p) (fun _ => rfl) ?_
    have hop : q.op = 8 := by rw [hq]
    rw [doPacket_answer hq h hd, packetIn, if_neg (hd ▸ frameTaken_addressed h), hop]
    show rxTime port q d = _
    simp only [rxTime, hdst, hlen, ne_eq, not_true_eq_false, if_false, if_true]
  · refine completesM (f := doPacket 9 port p) (fun _ => rfl) ?_
    have hop : q.op = 9 := by rw [hq]
    rw [doPacket_answer hq h hd, packetIn, if_neg (hd ▸ frameTaken_addressed h), hop]
    rfl
  · refine upd_completes doTimeRequest rfl ?_
    simp only [doTimeRequest, hsrc, hup, ne_eq, not_true_eq_false, if_false, ← hd]
  · refine completesM (f := doResendTimeout eng.toNat m.toNat tc.toNat psn.toNat) (fun _ => rfl) ?_
    simp only [doResendTimeout, hf, hq, hp]
  · refine upd_completes (doRateIncrease eng.toNat m.toNat tc.toNat) rfl ?_
    simp only [doRateIncrease, hf, hp, hecn, if_false]
  · refine completesM (f := doFlowFailExpiry eng.toNat m.toNat tc.toNat) (fun _ => rfl) ?_
    simp only [doFlowFailExpiry, hf, ht, hp]
  · refine completesM (f := doPeerAckTimeout eng.toNat m.toNat tc.toNat) (fun _ => rfl) ?_
    simp only [doPeerAckTimeout, hf, List.isEmpty_iff, hne, if_false]
  · refine upd_completes (doFlowContextFree eng.toNat m.toNat tc.toNat) rfl ?_
    simp only [doFlowContextFree, hf, hnil, List.isEmpty_nil, Bool.not_true, Bool.false_eq_true, if_false]
  · refine completesM (f := doPortDown port) (fun _ => rfl) ?_
    simp only [doPortDown, hst, ne_eq, not_true_eq_false, if_false]
  · have hgo : (!portInMode s.dev port || getF s.dev (fSO_PORT_STATE port) == 2 || hubLost s.dev (portHub port) || s.dev.pw.off != .on) = false := by
      simp [hmode, hst, hhub, hon]
    refine upd_completes (doPortUp port) rfl ?_
    simp only [doPortUp, hgo, Bool.false_eq_true, if_false]
  · dsimp only at hd
    refine setupWr_completesM (fun _ => rfl) ht ?_
    simp only [peerResetEff, peerResetWord_mod, ← hgone, ← hd, hup]
  · dsimp only at hd
    refine setupWr_completesM (fun _ => rfl) ht ?_
    simp only [peerResetEff, peerResetWord_mod, ← hgone, ← hd, hup]

end Sys2Proof.Machine

/-! PROOF. Where the set-up rows complete (O24). -/

namespace Sys2Proof.Machine

open Sys2Proof

/-! ## How a write reaches its register -/

/-- A write of a register that is taken has its effect and no other, from a half or a whole. -/
theorem setupArrives_taken {s : Dev} {port off : Nat} (data : Word) (eff : Dev → Dev) (h : SetupTaken s port off) : setupArrives s port off data eff = eff s := by
  obtain ⟨-, -, hreg, hlease, hw, hst, htdi⟩ := h
  have hearly : ¬ (stage s = 1 ∨ stage s = 3) := by omega
  simp only [setupArrives, setupApply, hreg, hlease, hw, htdi, if_neg hearly, Bool.not_true, Bool.false_and, Bool.false_eq_true, if_false]

/-- The upper half that follows a held lower half makes the write of both (R30). -/
theorem doSetupWrite_upperHalf_taken {s d : Dev} {port off : Nat} {h : HeldHalf} (img : Option Nat) (data : Word) (ho : bar0Open s port = true)
    (hh : (getPort s port).held = some h) (hoff : off = h.off + 4) (ha : off % 8 = 4) (hs : h.off ≠ offID_SEM) (hd : d = modPort s port (fun p => { p with held := none }))
    (ht : SetupTaken d port h.off) :
    doSetupWrite img port off true data s = setupEffect img port h.off (BitVec.ofNat 64 (h.data + 2 ^ 32 * (data.toNat % 2 ^ 32))) d := by
  have hback : off - 4 = h.off := by omega
  simp only [doSetupWrite, ho, hh, ha, hback, wholeWrite, hs, ← hd, Bool.not_true, Bool.false_eq_true, if_false, if_true, setupArrives_taken _ _ ht]

/-- A lower half is held for its upper half (R30). -/
theorem doSetupWrite_lowerHalf {s : Dev} {port off : Nat} (img : Option Nat) (data : Word) (ho : bar0Open s port = true) (hh : (getPort s port).held = none)
    (hreg : regAt s off = true) (ha : off % 8 = 0) :
    doSetupWrite img port off true data s = modPort s port (fun p => { p with held := some { off := off, data := data.toNat % 2 ^ 32, since := s.now } }) := by
  have hgo : ¬ (off % 8 ≠ 0 ∨ regAt s off = false) := by simp [ha, hreg]
  have h4 : off % 8 ≠ 4 := by omega
  simp only [doSetupWrite, ho, dropHeld_none hh, h4, if_neg hgo, Bool.not_true, Bool.false_eq_true, if_false]

/-- A row that makes coherent requests, where the module's own mark of a refused request is clear before and after. -/
theorem completes_of_completesM {c : Instr} {s : State} {d : Dev} (h : CompletesM c s d) (hs : s.dev.ms.blocked = false) (hd : d.ms.blocked = false) : Completes c s d :=
  (h hs s.dev.ms.blocked).1 hd

/-! ## The lease -/

/-- The word of a CLAIM: its bits and its length (R458). -/
theorem claimWord_fields (lease : BitVec 6) :
    (BitVec.ofNat 64 (1 + 16 * lease.toNat)).getLsbD 0 = true ∧ (BitVec.ofNat 64 (1 + 16 * lease.toNat)).getLsbD 1 = false
      ∧ fld (BitVec.ofNat 64 (1 + 16 * lease.toNat)) 9 4 = lease.toNat := by
  have hl := lease.isLt
  have hmod : (1 + 16 * lease.toNat) % 2 ^ 64 = 1 + 16 * lease.toNat := by omega
  refine ⟨?_, ?_, ?_⟩
  · rw [BitVec.getLsbD_ofNat, Nat.testBit_zero]
    simp only [Nat.zero_lt_succ, decide_true, Bool.true_and, decide_eq_true_eq]
    omega
  · rw [BitVec.getLsbD_ofNat, Nat.testBit_succ, Nat.testBit_zero]
    simp only [Nat.one_lt_ofNat, decide_true, Bool.true_and, decide_eq_false_iff_not]
    omega
  · rw [fld, BitVec.toNat_ofNat, hmod, nField]
    omega

/-- A CLAIM whose length is right takes the lease where it is free or the port's own, and does nothing where another port holds it (R458). -/
theorem doClaim_open {s : Dev} {port : Nat} {lease : BitVec 6} (tie : Bool) (ho : bar0Open s port = true) (hh : (getPort s port).held = none) (h0 : lease.toNat ≠ 0) (h60 : lease.toNat ≤ 60) :
    doClaim port lease.toNat tie s = if leaseFree s || getF s fID_SEM_OWNER == port + 1 || tieWins s port tie then
        setF (setF { s with leaseEnd := s.now + 1000000000 * lease.toNat, leaseFresh := leaseFree s } fID_SEM_OWNER (port + 1)) fID_SEM_REMAIN_MS (1000 * lease.toNat)
      else s := by
  obtain ⟨hclaim, hrelease, hlen⟩ := claimWord_fields lease
  have hgo : ¬ (lease.toNat = 0 ∨ 60 < lease.toNat) := by omega
  simp only [doClaim, ho, dropHeld_none hh, semWrite, hclaim, hrelease, hlen, if_neg hgo, Bool.and_false, Bool.false_eq_true, if_false, if_true]

/-! ## RESUME -/

/-- R698: RESUME of a module that no other holds stopped. -/
theorem doSetupWrite_resume {s : Dev} {port : Nat} (img : Option Nat) (ho : bar0Open s port = true) (hh : (getPort s port).held = none) (hreg : regAt s offOBS_WHOA_CTL = true)
    (hl : holdsLease s port = true) (hw : whoaStopped s = true) (hst : stage s = 2) (htdi : tdiHolds s offOBS_WHOA_CTL = false) :
    doSetupWrite img port offOBS_WHOA_CTL false 2 s = resumeEff img port s := by
  have h2 : (2 : Word).getLsbD 1 = true := by decide
  rw [doSetupWrite_whole img port offOBS_WHOA_CTL 2 (by decide) (by decide)]
  simp only [setupWr, ho, dropHeld_none hh, setupArrives, hreg, hl, hw, h2, beq_self_eq_true, setupApply, hst, htdi, setupEffect, Bool.and_self, Bool.not_true, Bool.and_false,
    Bool.false_eq_true, and_self, OfNat.ofNat_ne_one, Nat.reduceEqDiff, or_self, if_false, if_true]

/-! ## The rows -/

/-- Settles O24: each row by what its command does. -/
theorem setupCompletes : Obligations.SetupCompletes := by
  unfold Obligations.SetupCompletes
  refine ⟨fun s port off data ht ha hs => ?_, fun s port off data ho hh hreg ha hb => ?_, fun s port off data h d ho hh hoff ha hs hd ht => ?_, fun s port off len ho hlen ha hreg => ?_,
    fun s port off len write ho hh hbad => ?_, fun s port h hh => ?_, fun s port lease ho hh h0 h60 hfree tie => ?_, fun s port lease ho hh h0 h60 hfree hown => ?_,
    fun s port ho hh hl => ?_, fun s hown => ?_, fun s port ho hh hreg hl hw hst htdi hin => ?_, fun s d hin hd => ?_⟩
  · refine setupWrite_completesM ?_
    rw [doSetupWrite_whole _ _ _ _ ha hs, setupWr_taken _ _ ht]
  · exact completes_of_completesM (setupWrite_completesM (doSetupWrite_lowerHalf _ data ho hh hreg ha)) hb hb
  · exact setupWrite_completesM (doSetupWrite_upperHalf_taken _ data ho hh hoff ha hs hd ht)
  · refine upd_completes (doBar0AccessError port off.toNat len false) rfl ?_
    simp only [doBar0AccessError, ho, hlen, ha, hreg, Bool.not_true, Bool.false_eq_true, and_self, if_false, if_true]
  · refine upd_completes (doBar0AccessError port off.toNat len write) rfl ?_
    simp only [doBar0AccessError, ho, if_neg hbad, dropHeld_none hh, Bool.not_true, Bool.false_eq_true, if_false]
  · have hh' : (getPort { s.dev with now := max s.dev.now (h.since + 1000) } port).held = some h := hh
    refine upd_completes (doLowerHalfExpiry port) rfl ?_
    simp only [doLowerHalfExpiry, hh, dropHeld, hh']
  · have hgo : (leaseFree s.dev || getF s.dev fID_SEM_OWNER == port.val + 1 || tieWins s.dev port tie) = true := by
      rcases hfree with h | h <;> simp [h]
    exact upd_completes (doClaim port lease.toNat tie) rfl ((doClaim_open tie ho hh h0 h60).trans (if_pos hgo))
  · have hgo : ¬ (leaseFree s.dev || getF s.dev fID_SEM_OWNER == port.val + 1 || tieWins s.dev port false) = true := by
      simp [hfree, hown, tieWins]
    exact upd_completes (doClaim port lease.toNat false) rfl ((doClaim_open false ho hh h0 h60).trans (if_neg hgo))
  · have h0 : (2 : Word).getLsbD 0 = false := by decide
    have h1 : (2 : Word).getLsbD 1 = true := by decide
    have h8 : offID_SEM % 8 = 0 := by decide
    refine upd_completes (doSetupWrite (seqImage s.sec) port offID_SEM false 2) rfl ?_
    simp only [doSetupWrite, ho, dropHeld_none hh, h8, wholeWrite, semWrite, h0, h1, hl, endLease, Bool.not_true, Bool.not_false, Bool.false_and, Bool.false_eq_true, ne_eq, not_true_eq_false,
      if_false, if_true]
  · refine upd_completes doLeaseExpiry rfl ?_
    simp only [doLeaseExpiry, hown, endLease, if_false]
  · refine completesM (f := doSetupWrite (seqImage s.sec) port offOBS_WHOA_CTL false 2) (fun _ => rfl) ?_
    rw [doSetupWrite_resume _ ho hh hreg hl hw hst htdi]
    simp only [resumeEff, hw, hin, setF_obs, Bool.not_true, Bool.false_eq_true, Bool.toNat_false, if_false]
  · have hres : d.obs.resuming = s.dev.obs.resuming := by rw [hd]; rfl
    refine completesM (f := doStopIoRelease (seqImage s.sec)) (fun _ => rfl) ?_
    simp only [doStopIoRelease, hin, ← hd, hres, Bool.not_true, Bool.false_eq_true, if_false, Bool.and_eq_true]

end Sys2Proof.Machine

/-! PROOF. Where rings are enabled and disabled, and what an enabled ring holds (O12, O27). -/

namespace Sys2Proof.Machine

open Sys2Proof

/-- The ENABLE bit of a word that a disable writes. -/
theorem getLsbD_clearEnable (data : Word) : (putFld data 0 0 0).getLsbD 0 = false := by
  rw [getLsbD_putFld _ _ _ _ _ (by decide)]
  simp

/-- A ring's size that R506 and R510 admit. -/
theorem sizeOk_of_bounds {n : Nat} (hlo : 6 ≤ n) (hhi : n ≤ 16) : sizeOk n = true := by
  simp only [sizeOk, decide_eq_true hlo, decide_eq_true hhi, Bool.and_self]

theorem portNamed {n : Nat} (h : n = 1 ∨ n = 2) : (n == 1 || n == 2) = true := by simpa using h

/-! ## An enabled ring (R804) -/

/-- A write that leaves ENABLE of a submission ring 1 changes nothing; where it would change another field it is logged. -/
theorem sqCfgEff_held {s : Dev} {port c n : Nat} {data : Word} (h1 : getF s (fCH_SQ_CFG_ENABLE c n) = 1) (hen : data.getLsbD 0 = true) :
    sqCfgEff port c n data s = if othersChange s (offCH_SQ_CFG c n) data then setupError s port (offCH_SQ_CFG c n) else s := by
  simp only [sqCfgEff, h1, hen, if_true]

/-- A write that clears ENABLE of a submission ring ends the ring's state, with the same record. -/
theorem sqCfgEff_disables {s : Dev} {port c n : Nat} {data : Word} (h1 : getF s (fCH_SQ_CFG_ENABLE c n) = 1) (hen : data.getLsbD 0 = false) :
    sqCfgEff port c n data s = setF (setF (setF (modCh (if othersChange s (offCH_SQ_CFG c n) data then setupError s port (offCH_SQ_CFG c n) else s) c
      (fun ch => { ch with reads := ch.reads.filter (fun r => r.ring != n) })) (fCH_SQ_CFG_ENABLE c n) 0) (fCH_SQ_STATE_STATE c n) 0) (fCH_SQ_STATE_CAUSE c n) 0 := by
  simp only [sqCfgEff, h1, hen, if_true, Bool.false_eq_true, if_false]

theorem cqCfgEff_held {s : Dev} {port c n : Nat} {data : Word} (h1 : getF s (fCH_CQ_CFG_ENABLE c n) = 1) (hen : data.getLsbD 0 = true) :
    cqCfgEff port c n data s = if othersChange s (offCH_CQ_CFG c n) data then setupError s port (offCH_CQ_CFG c n) else s := by
  simp only [cqCfgEff, h1, hen, if_true, Bool.not_true, Bool.false_and, Bool.or_false, Bool.true_or]

/-- Settles O12: what a write does to an enabled ring. -/
theorem enabledRingsHeld : Obligations.EnabledRingsHeld := by
  unfold Obligations.EnabledRingsHeld
  intro s port chan ring data d
  refine ⟨fun ht h1 => ⟨fun hd => ?_, fun hd => ?_⟩, fun ht h1 _ hd => ?_⟩
  · exact setupWr_completes rfl ht ((sqCfgEff_held h1 (getLsbD_or_one data)).trans hd.symm)
  · refine setupWr_completes rfl ht ?_
    rw [sqCfgEff_disables h1 (getLsbD_clearEnable data), ← hd]
  · exact setupWr_completes rfl ht ((cqCfgEff_held h1 (getLsbD_or_one data)).trans hd.symm)

/-! ## Enabling and disabling -/

/-- Settles O27: each row by what its command does. -/
theorem ringEnablesComplete : Obligations.RingEnablesComplete := by
  unfold Obligations.RingEnablesComplete
  refine ⟨fun s port chan ring data s1 ht h0 hs1 hlo hhi hport hcq hpasid => ?_, fun s port chan ring data ht h1 hoth => ?_,
    fun s port chan ring data s1 ht h0 hs1 hlo hhi hport hvec hpasid => ?_, fun s port chan ring data ht h1 hoth hnamed => ?_⟩
  · refine setupWr_completes rfl ht ?_
    simp only [sqCfgEff, h0, Nat.zero_ne_one, getLsbD_or_one, ← hs1, sizeOk_of_bounds hlo hhi, portNamed hport, hcq, hpasid, beq_self_eq_true, Bool.and_self, Bool.not_true,
      Bool.false_eq_true, if_false, if_true]
  · refine setupWr_completes rfl ht ?_
    rw [sqCfgEff_disables h1 (getLsbD_clearEnable data), hoth]
    rfl
  · have hvec : (getF s1 (fCH_CQ_CFG_VFV chan ring) == 0 || decide (getF s1 (fCH_CQ_CFG_VECTOR chan ring) < 64)) = true := by simpa using hvec
    refine setupWr_completes rfl ht ?_
    simp only [cqCfgEff, h0, Nat.zero_ne_one, getLsbD_or_one, ← hs1, sizeOk_of_bounds hlo hhi, portNamed hport, hvec, hpasid, Bool.and_self, Bool.not_true,
      Bool.false_eq_true, if_false, if_true]
  · refine setupWr_completes rfl ht ?_
    simp only [cqCfgEff, h1, getLsbD_clearEnable, hoth, hnamed, Bool.and_false, Bool.or_self, Bool.false_eq_true, if_false, if_true]

end Sys2Proof.Machine

/-! PROOF. Where doorbells, fetches, dispatch and the channels' events complete (O25, O26). -/

namespace Sys2Proof.Machine

open Sys2Proof

/-! ## Doorbells -/

/-- A doorbell that is well formed reaches its ring (R466 to R469). -/
theorem doDoorbell_rings {s : Dev} {port page : Nat} {vf : Option (Fin 16)} {data : Word} (hp : pageAnswers s port vf page = true) (hi : page % 256 ≤ 64) (hres : fld data 63 32 = 0)
    (hr : fld data 31 16 < 128) (hring : page % 256 = fld data 31 16 % 64 ∨ page % 256 = 64) :
    doDoorbell port vf page 0 8 data s = ringDoorbell s (page / 256) (fld data 31 16) (fld data 15 0) := by
  have hpage : ¬ ((!pageAnswers s port vf page) = true ∨ 64 < page % 256 ∨ 8 ≤ 0) := by
    rw [hp]
    simp only [Bool.not_true, Bool.false_eq_true, false_or]
    omega
  have hform : ¬ ((0 : Nat) ≠ 0 ∨ (8 : Nat) ≠ 8 ∨ fld data 63 32 ≠ 0 ∨ 127 < fld data 31 16 ∨ (page % 256 < 64 ∧ fld data 31 16 % 64 ≠ page % 256)) := by omega
  simp only [doDoorbell, if_neg hpage, if_neg hform]

/-! ## Fetching -/

theorem getF_dropRead (s : Dev) (c n : Nat) (f : Fld) : getF (dropRead s c n) f = getF s f := rfl

theorem getPort_modCh (s : Dev) (c p : Nat) (f : Channel → Channel) : getPort (modCh s c f) p = getPort s p := rfl

section
variable {s : Dev} {c n p start k : Nat} {key : Nat × Nat} {mapped : Bool} (hp : p = portOf (getF s (fCH_SQ_CFG_PORT c n)))
  (hkey : key = (getF s (fCH_SQ_CFG_PASID c n), ringPage s c n start)) (hlive : chanLive s c n = true) (hst : getF s (fCH_SQ_STATE_STATE c n) = 1) (hup : portUp s p = true)
  (hnext : nextRead s c n = (start, k)) (hk : k ≠ 0)
include hp hkey hlive hst hup hnext hk

/-- A descriptor read whose page needs no translation, or has one, goes out where its port has a read free (R455, R471). -/
theorem doRingFetch_reads (hmap : ringPasid s c n = none ∨ mapped = true ∨ (getPort s p).atc.contains key = true) :
    doRingFetch c n mapped s = if 768 ≤ portReads s p then s else
      emit (modCh (if (ringPasid s c n).isSome then atcPut s p key else s) c (fun ch => { ch with reads := ch.reads ++ [{ ring := n, index := start, count := k, pri := false }] }))
        (.fetch p c n start k) := by
  have hgo : (!(ringPasid s c n).isSome || mapped || (getPort s p).atc.contains key) = true := by
    rcases hmap with h | h | h
    · simp [h]
    · simp [h]
    · rw [h, Bool.or_true]
  simp only [doRingFetch, ← hp, hlive, hst, hup, hnext, hk, ← hkey, hgo, Bool.not_true, Bool.false_eq_true, ne_eq, not_true_eq_false, or_self, if_false, if_true]

/-- A descriptor read whose page the host does not map waits for the page request it sends (R455, R471). -/
theorem doRingFetch_asks (hpasid : (ringPasid s c n).isSome = true) (hmap : mapped = false) (hatc : (getPort s p).atc.contains key = false)
    (hroom : (getPort s p).pageReqs.length < 256) (hnew : (getPort s p).pageReqs.contains key = false) :
    doRingFetch c n mapped s = emit (modPort (modCh s c (fun ch => { ch with reads := ch.reads ++ [{ ring := n, index := start, count := k, pri := true }] })) p
      (fun x => { x with pageReqs := x.pageReqs ++ [key] })) (.ats p 0 (key.1 + 2 ^ 20 * key.2)) := by
  have hgo : (!(ringPasid s c n).isSome || mapped || (getPort s p).atc.contains key) = false := by
    rw [hpasid, hmap, hatc]
    rfl
  subst hkey
  simp only [doRingFetch, ← hp, hlive, hst, hup, hnext, hk, hgo, Nat.not_le.mpr hroom, getPort_modCh, hnew, Bool.not_true, Bool.false_eq_true, ne_eq, not_true_eq_false,
    or_self, if_false]

end

/-! ## Dispatch -/

/-- A channel whose heads all wait for nothing dispatches the one it serves first (R471, R472). -/
theorem doDispatch_serves {s : Dev} {c tag : Nat} {f : Fetched} {heads : List (Nat × Fetched)} (hlast : ¬ (stage s = 1 ∧ stepDone s 12 = true))
    (hheads : heads = (List.range 64).filterMap (fun n => ringHead s c n)) (hcoop : ∀ h ∈ heads, coopWaits s c h.1 h.2 = false)
    (hfirst : firstBy (fun h => ringOrder s c h.2.ring) heads = some (tag, f)) : doDispatch c s = dispatchNow s c tag f := by
  have hgo : (stage s == 1 && stepDone s 12) = false := by
    rw [Bool.and_eq_false_iff, beq_eq_false_iff_ne]
    by_cases h : stage s = 1
    · exact Or.inr (by simpa [h] using hlast)
    · exact Or.inl h
  have hwait : heads.filter (fun h => coopWaits s c h.1 h.2) = [] := List.filter_eq_nil_iff.mpr (fun h hh => by simp [hcoop h hh])
  have hrest : heads.filter (fun h => !coopWaits s c h.1 h.2) = heads := List.filter_eq_self.mpr (fun h hh => by simp [hcoop h hh])
  simp only [doDispatch, hgo, ← hheads, hwait, hrest, List.foldl_nil, hfirst, Bool.false_eq_true, if_false]

/-- Settles O25: each row by what its command does. -/
theorem ringsComplete : Obligations.RingsComplete := by
  unfold Obligations.RingsComplete
  refine ⟨fun s port vf page off len data hp hoff hlen hres hr hring hst hidx => ?_, fun s port vf page off len data hp hoff hlen hres hlo hhi hring hst hidx => ?_,
    fun s chan ring mapped start k p key hp hkey hlive hst hup hnext hk => ⟨fun hmap => ⟨fun hfree => ?_, fun hfull => ?_⟩, fun hpasid hmap hatc hroom hnew => ?_⟩,
    fun s chan ring descs r hr hpri hlen hw hst => ?_, fun s chan ring hr hst => ?_, fun s chan tag f heads hlast hheads hcoop hfirst => ?_⟩
  · refine upd_completes (doDoorbell port vf page off len data) rfl ?_
    rw [hoff, hlen, doDoorbell_rings hp (by omega) hres (by omega) (by omega)]
    simp only [ringDoorbell, hr, hst, Nat.not_le.mpr hidx, ne_eq, not_true_eq_false, if_false, if_true]
  · refine upd_completes (doDoorbell port vf page off len data) rfl ?_
    rw [hoff, hlen, doDoorbell_rings hp (by omega) hres hhi (by omega)]
    simp only [ringDoorbell, Nat.not_lt.mpr hlo, hst, Nat.not_le.mpr hidx, ne_eq, not_true_eq_false, if_false]
  · exact upd_completes (doRingFetch chan ring mapped) rfl ((doRingFetch_reads hp hkey hlive hst hup hnext hk hmap).trans (if_neg (Nat.not_le.mpr hfree)))
  · exact upd_completes (doRingFetch chan ring mapped) rfl ((doRingFetch_reads hp hkey hlive hst hup hnext hk hmap).trans (if_pos hfull))
  · exact upd_completes (doRingFetch chan ring mapped) rfl (doRingFetch_asks hp hkey hlive hst hup hnext hk hpasid hmap hatc hroom hnew)
  · refine upd_completes (doDescriptorArrival chan ring descs) rfl ?_
    simp only [doDescriptorArrival, hr, hpri, hlen, hw, getF_dropRead, hst, Bool.false_eq_true, ne_eq, not_true_eq_false, or_self, if_false]
  · refine upd_completes (fun d => fetchFails d chan ring) rfl ?_
    simp only [fetchFails, hr, if_true]
    exact if_pos hst
  · exact upd_completes (doDispatch chan) rfl (doDispatch_serves hlast hheads hcoop hfirst)

/-! ## Events of channels -/

/-- Settles O26: each row by what its command does. -/
theorem channelEventsComplete : Obligations.ChannelEventsComplete := by
  unfold Obligations.ChannelEventsComplete
  refine ⟨fun s key d c hc hd hw hs hf hst => ?_, fun s chan cq hcnt hmod hirq hst hw => ?_, fun s chan cq hst => ?_, fun s port _ => upd_completes (fun d => linkDown d port) rfl rfl,
    fun s port chan ht => ?_⟩
  · refine upd_completes (doCommandTimeout key) rfl ?_
    simp only [doCommandTimeout, hc, hd, hw, hs, hf, hst, Option.isSome_none, Bool.or_self, Bool.false_eq_true, if_false]
  · refine upd_completes (doModUsExpiry chan cq) rfl ?_
    simp only [doModUsExpiry, hcnt, hmod, hirq, hst, hw, Nat.one_ne_zero, Bool.false_eq_true, ne_eq, not_true_eq_false, or_self, if_false]
  · refine upd_completes (doRecordWriteFailure chan cq) rfl ?_
    simp only [doRecordWriteFailure, hst, ne_eq, not_true_eq_false, if_false]
  · exact setupWr_completes rfl ht (if_neg (by decide))

end Sys2Proof.Machine

/-! PROOF. Where kernels, model switches and the commands a channel carries out itself complete (O28, O29). -/

namespace Sys2Proof.Machine

open Sys2Proof

/-! ## Kernels and model switches -/

/-- Settles O28: each row by what its command does. -/
theorem kernelsComplete : Obligations.KernelsComplete := by
  unfold Obligations.KernelsComplete
  refine ⟨fun s key c c2 d hrun hbad hcoop hd hc2 hnext => ?_, fun s key c d hrun hbad hcoop hd => ?_, fun s owner d hw hf hd => ?_,
    fun s key pin cls c r hrun hbad hidle hpin hcls hr herr hlost hpoison => ?_⟩
  · obtain ⟨hw, hc, hop, hph, hst, hf⟩ := hrun
    refine upd_completes (doKernel key) rfl ?_
    simp only [doKernel, hw, hc, hop, hph, hst, hf, hbad, hcoop, ← hd, hc2, hnext, Option.isSome_none, Bool.false_eq_true, ne_eq, not_true_eq_false, or_self, if_false]
  · obtain ⟨hw, hc, hop, hph, hst, hf⟩ := hrun
    refine upd_completes (doKernel key) rfl ?_
    simp only [doKernel, hw, hc, hop, hph, hst, hf, hbad, hcoop, hd, Option.isSome_none, Bool.false_eq_true, ne_eq, not_true_eq_false, or_self, if_false, if_true]
  · refine upd_completes (doBlockPlacement owner) rfl ?_
    simp only [doBlockPlacement, hw, hf, hd, Bool.false_eq_true, if_false]
  · obtain ⟨hw, hc, hop, hph, hst, hf⟩ := hrun
    refine completesM (f := doModelSwitch key) (fun _ => rfl) ?_
    simp only [doModelSwitch, hw, hc, hop, hph, hst, hf, hbad, hidle, ← hpin, ← hcls, ← hr, herr, hlost, hpoison, Option.isSome_none, Bool.not_true, Bool.false_eq_true, ne_eq,
      not_true_eq_false, or_self, if_false]

/-! ## SIGNAL, WAIT, FENCE and MARK -/

/-- A dispatched command of an opcode runs, where nothing stops the channel. -/
theorem runCmd_runs {s : Dev} {key opcode : Nat} {p : CmdPhase} {c : Cmd} (f : Cmd → Dev) (h : CmdRuns s key opcode p c) : runCmd s key opcode p f = f c := by
  obtain ⟨hw, hc, hop, hph, hst, hf⟩ := h
  simp only [runCmd, hw, hc, hop, hph, hst, hf, Option.isSome_none, Bool.false_eq_true, ne_eq, not_true_eq_false, or_self, if_false]

/-- The end of a SIGNAL whose update has been made. -/
theorem signalDone_made {s : Dev} {c : Cmd} {w : WrRes} (va : Nat) (herr : w.err = none) (hlost : w.lost = false) : signalDone s c w va = finishCmd s c.key := by
  simp only [signalDone, herr, hlost, Option.isSome_none, Bool.false_eq_true, if_false]

/-- A FENCE with no range operation is in order (R484). -/
theorem fenceBad_of_no_range {d : Block64} (h : fnROP d = 0) : fenceBad d = false := by
  simp only [fenceBad, h, bne_self_eq_false, Bool.false_and]

/-- R488: a WAIT's read that meets no error and no poison. -/
theorem waitRead_reads {s s1 s2 : Dev} {c : Cmd} {pa : Nat} {attr : PageAttr} {r : AccRes} (hva : sgADDR c.desc % 8 = 0)
    (htr : translate s c.tag (sgADDR c.desc) false = (s1, .ok pa attr)) (hpl : placeOf s1 pa = .tier) (htag : c.tag < 0x10)
    (hrd : readPa s1 none c.tag pa 8 attr = (s2, r)) (herr : r.err = none) (hpoison : anyPoison r.bytes = false) :
    waitRead c s = if waitMet c.desc (accNat r.bytes) then finishCmd s2 c.key else modCmd s2 c.key (fun c => { c with phase := .running }) := by
  simp only [waitRead, hva, htr, hpl, decide_eq_true htag, hrd, herr, hpoison, Option.isSome_none, Bool.not_true, Bool.false_eq_true, ne_eq, not_true_eq_false, if_false]

/-- Settles O29: each row by what its command does. -/
theorem channelCommandsComplete : Obligations.ChannelCommandsComplete := by
  unfold Obligations.ChannelCommandsComplete
  refine ⟨fun s key pa c s1 s2 attr d m w hrun hkey hva htr hpl hrmw herr hlost => ?_, fun s key pa cl o c s1 s2 attr d m hrun hkey hva htr hpl hl hown hrmw => ?_,
    fun s key pa port h c s1 s2 attr w hrun hkey hva htr hpl htag hop hwr herr hlost => ?_,
    fun s key pa c s1 s2 attr r again hrun hkey hva htr hpl htag hrd herr hpoison => ?_, fun s key c hrun hrop => ?_, fun s key c d hrun hrop hbad hd => ?_, fun s key c hrun => ?_⟩
  · refine completesM (f := doSignal key) (fun _ => rfl) ?_
    rw [doSignal, runCmd_runs _ hrun]
    simp only [signalAt, hva, htr, hpl, hrmw, signalDone_made _ herr hlost, herr, hlost, hkey, Option.isNone_none, Bool.not_false, Bool.and_self, ne_eq, not_true_eq_false, if_false, if_true]
  · refine completesM (f := doSignal key) (fun _ => rfl) ?_
    rw [doSignal, runCmd_runs _ hrun]
    have hdone : signalDone s2 c { err := none, lost := false } (sgADDR c.desc) = finishCmd s2 c.key := signalDone_made _ rfl rfl
    simp only [signalAt, hva, htr, hpl, hl, hown, hrmw, hdone, hkey, Bool.false_eq_true, ne_eq, not_true_eq_false, if_false, if_true]
  · have hgo : ¬ (0x20 ≤ c.tag ∨ sgOP c.desc ≠ 0) := by omega
    refine completesM (f := doSignal key) (fun _ => rfl) ?_
    rw [doSignal, runCmd_runs _ hrun]
    subst hkey
    simp only [signalAt, hva, htr, hpl, if_neg hgo, hwr, signalDone_made _ herr hlost, ne_eq, not_true_eq_false, if_false]
  · subst hkey
    cases again with
    | false =>
      refine completesM (f := doWait c.key) (fun _ => rfl) ?_
      rw [doWait, runCmd_runs (p := .dispatched) _ hrun, waitRead_reads hva htr hpl htag hrd herr hpoison]
    | true =>
      refine completesM (f := doWaitReread c.key) (fun _ => rfl) ?_
      rw [doWaitReread, runCmd_runs (p := .running) _ hrun, waitRead_reads hva htr hpl htag hrd herr hpoison]
  · refine completesM (f := doChanFence key) (fun _ => rfl) ?_
    rw [doChanFence, runCmd_runs _ hrun]
    simp only [fenceBad_of_no_range hrop, hrop, Bool.false_eq_true, if_false, if_true]
  · refine completesM (f := doChanFence key) (fun _ => rfl) ?_
    rw [doChanFence, runCmd_runs _ hrun]
    simp only [hbad, hrop, hd, Bool.false_eq_true, if_false]
  · refine upd_completes (doMark key) rfl ?_
    rw [doMark, runCmd_runs _ hrun]

end Sys2Proof.Machine

/-! PROOF. Where the data movers' operations, DMA instructions and ordered reductions complete (O30, O31). -/

namespace Sys2Proof.Machine

open Sys2Proof

/-! ## The data movers -/

section

variable {s : Dev} {opcode : Nat} {r : OpRef} {o : MvOp}

/-- An operation that nothing holds back moves its data and ends as its transfer did. -/
theorem doMover_runs (h : MoverRuns s opcode r o) :
    doMover opcode r s = moverEnds r o (inFlight o.id (mvTransfer o) s).2 (inFlight o.id (mvTransfer o) s).1 := by
  obtain ⟨hw, ho, hop, hf, hchan, hbehind, hdown⟩ := h
  cases r with
  | cluster cl id =>
    simp only [doMover, hw, ho, hop, hf, hbehind, hdown, Bool.false_or, Bool.false_eq_true, ne_eq, not_true_eq_false, or_self, List.isEmpty_nil, Bool.not_true, if_false]
  | chan key =>
    obtain ⟨hchk, hserves⟩ := hchan key rfl
    simp only [doMover, hw, ho, hop, hf, hchk, hserves, hbehind, hdown, Bool.or_self, Bool.false_eq_true, ne_eq, not_true_eq_false, or_self, List.isEmpty_nil, Bool.not_true,
      if_false]

end

/-- A data-mover command completes where its operation runs, as the transfer `tr` of its opcode ends. -/
theorem mover_completes {c : Instr} {s : State} {opcode : Nat} {op : OpRef} {f : Flaw} {o : MvOp} {d : Dev} {t : MvRes} {tr : Dev → Dev × MvRes}
    (he : ∀ b, exec c (marked s b) = moverStep opcode op f (marked s b)) (h : MoverRuns (flawIn f s.dev) opcode op o)
    (htr : dOpcode o.desc = opcode → mvTransfer o = tr)
    (hd : inFlight o.id tr (flawIn f s.dev) = (d, t)) : CompletesM c s (flawOut f (moverEnds op o t d)) := by
  refine completesM (f := withFlaw f (doMover opcode op)) he ?_
  obtain ⟨-, -, hop, -⟩ := id h
  rw [withFlaw, doMover_runs h, htr hop, hd]

/-- Settles O30: an operation that runs ends as its transfer did, and one whose data has moved completes. -/
theorem moversComplete : Obligations.MoversComplete := by
  unfold Obligations.MoversComplete
  refine ⟨fun s op f o d t h hd => ?_, fun s op f o d t h hd => ?_, fun s op f o d t h hd => ?_, fun s op f o d t h hd => ?_, fun s op f o d t h hd => ?_,
    fun s key e c hw hc hmv hmoved hph hleft he => ?_, fun s cl id o hw ho hph hleft hpeer => ?_⟩
  · exact mover_completes (fun _ => rfl) h (fun hop => funext fun _ => by simp only [mvTransfer, hop]) hd
  · exact mover_completes (fun _ => rfl) h (fun hop => funext fun _ => by simp only [mvTransfer, hop]) hd
  · exact mover_completes (fun _ => rfl) h (fun hop => funext fun _ => by simp only [mvTransfer, hop]) hd
  · exact mover_completes (fun _ => rfl) h (fun hop => funext fun _ => by simp only [mvTransfer, hop]) hd
  · exact mover_completes (fun _ => rfl) h (fun hop => funext fun _ => by simp only [mvTransfer, hop]) hd
  · refine upd_completes (doDmaOpComplete (.chan key)) rfl ?_
    simp only [doDmaOpComplete, hw, hc, hmv, hmoved, bne_iff_ne.mpr hph, hleft, he, Bool.not_false, Bool.and_self, Bool.false_eq_true, if_false, if_true]
  · refine upd_completes (doDmaOpComplete (.cluster cl id)) rfl ?_
    simp only [doDmaOpComplete, hw, ho, hph, hleft, hpeer, Bool.false_eq_true, ne_eq, not_true_eq_false, or_self, if_false]

/-! ## DMA instructions and ordered reductions -/

/-- A home with an entry for the sector, or room for one, takes an ordered operation (R308). -/
theorem ordRoom {s : Dev} {q : OrdOp}
    (h : (ordEntry s q.home (q.pa / 64)).isSome = true ∨ (s.ms.ordSectors.filter (fun x => x.home == q.home)).length < 1024) :
    ((ordEntry s q.home (q.pa / 64)).isNone && decide (1024 ≤ (s.ms.ordSectors.filter (fun x => x.home == q.home)).length)) = false := by
  rcases h with h | h
  · rw [Option.isSome_iff_exists] at h
    obtain ⟨x, hx⟩ := h
    rw [hx]
    rfl
  · rw [decide_eq_false (Nat.not_le.mpr h), Bool.and_false]

/-- Settles O31: a DMA instruction with room is queued, and an ordered operation is applied in its rank's turn or waits. -/
theorem dmaAndOrderedComplete : Obligations.DmaAndOrderedComplete := by
  unfold Obligations.DmaAndOrderedComplete
  refine ⟨fun s iw g c d o qs d1 d2 hi hres hsd1 hsd2 hsc hon hc hd hmv hbad hmcast hlen htok hqs hready ho hd1 hd2 => ?_,
    fun s id n e e2 q d hw hq hn he hroom hrank hd => ?_, fun s id e q hw hq he hroom hrank hlen => ?_⟩
  · refine issued_completesM (F := doDma) (fun _ => rfl) rfl hi ?_
    subst ho hd2 hd1
    simp only [hres, hsd1, hsd2, hsc, hon, hc, ← hd, hmv, hbad, hmcast, Nat.not_le.mpr hlen, htok, ← hqs, hready, bne_self_eq_false, Bool.or_self, Bool.not_true, Bool.false_eq_true,
      or_self, if_false]
  · refine completesM (f := doOrderedReduction id) (fun _ => rfl) ?_
    subst hn
    simp only [doOrderedReduction, hw, hq, ordRoom hroom, Bool.false_eq_true, if_false]
    cases hx : ordEntry s.dev q.home (q.pa / 64) <;> simp only [hx, Option.map_some, Option.map_none, Option.getD_some, Option.getD_none] at he <;> subst he <;>
      simp only [hrank, hd, if_true]
  · refine completesM (f := doOrderedReduction id) (fun _ => rfl) ?_
    simp only [doOrderedReduction, hw, hq, ordRoom hroom, Bool.false_eq_true, if_false]
    cases hx : ordEntry s.dev q.home (q.pa / 64) <;> simp only [hx, Option.map_some, Option.map_none, Option.getD_some, Option.getD_none] at he <;> subst he <;>
      simp only [hrank, Nat.not_le.mpr hlen, if_false] <;> rfl

end Sys2Proof.Machine

/-! PROOF. Where what arrives on a host port, and the slice commands, complete (O32, O33). -/

namespace Sys2Proof.Machine

open Sys2Proof

/-! ## Host ports -/

/-- A read of a ring that fails takes its ACTIVE ring to ERROR (R476). -/
theorem fetchFails_active {s : Dev} {c n : Nat} (hr : (getCh s c).reads.any (fun r => r.ring == n) = true) (hst : getF s (fCH_SQ_STATE_STATE c n) = 1) :
    fetchFails s c n = ringError (modCh s c (fun ch => { ch with reads := ch.reads.filter (fun r => r.ring != n) })) c n 1 false :=
  (if_pos hr).trans (if_pos hst)

/-- Settles O32: each row by what it does on a port that is UP. -/
theorem hostPortsComplete : Obligations.HostPortsComplete := by
  unfold Obligations.HostPortsComplete
  refine ⟨fun s port addr data f d w hup hw hd => ?_, fun s port addr len f d r hup hw hd => ?_, fun s port addr len data hup hw => ⟨?_, ?_⟩, fun s port pasid page count hup => ?_,
    fun s port pasid page d hk hd => ⟨?_, ?_⟩, fun s chan ring hr hst => ?_, fun s core id p h q hq hpl hs => ?_,
    fun s port hup => ⟨fun fn on => ?_, fun vf v => ?_, fun on => ?_, fun on => ?_⟩, fun s port vf v d hup hk hd => ?_⟩
  · refine completesM (f := withFlaw f (doBar4Write port addr data)) (fun _ => rfl) ?_
    simp only [withFlaw, doBar4Write, bar4Write, hup, hw, hd, Bool.not_true, Bool.false_eq_true, if_false]
  · refine completesM (f := withFlaw f (doBar4Read port addr len)) (fun _ => rfl) ?_
    simp only [withFlaw, doBar4Read, bar4Read, hup, hw, hd, Bool.not_true, Bool.false_eq_true, if_false]
  · refine completesM (f := withFlaw .none (doBar4Write port addr data)) (fun _ => rfl) ?_
    simp only [withFlaw_none, doBar4Write, hup, hw, Bool.not_true, Bool.false_eq_true, if_false, if_true]
  · refine completesM (f := withFlaw .none (doBar4Read port addr len)) (fun _ => rfl) ?_
    simp only [withFlaw_none, doBar4Read, hup, hw, Bool.not_true, Bool.false_eq_true, if_false, if_true]
  · refine upd_completes (doAtsInvalidation port pasid page count) rfl ?_
    simp only [doAtsInvalidation, hup, Bool.not_true, Bool.false_eq_true, if_false]
  · refine upd_completes (doPageRequestResponse port pasid page true) rfl ?_
    simp only [doPageRequestResponse, hk, ← hd, Bool.not_true, Bool.false_eq_true, if_false, if_true]
  · refine upd_completes (doPageRequestResponse port pasid page false) rfl ?_
    simp only [doPageRequestResponse, hk, ← hd, Bool.not_true, Bool.false_eq_true, if_false]
  · exact completesM (f := doHostCompletionTimeout (.fetch chan ring)) (fun _ => rfl) (fetchFails_active hr hst)
  · refine completesM (f := doHostCompletionTimeout (.load core id)) (fun _ => rfl) ?_
    simp only [doHostCompletionTimeout, hq, hpl, hs, answerRead, Bool.false_eq_true, if_false]
  · refine upd_completes (doConfigurationWrite port (.msixEnable fn on)) rfl ?_
    simp only [doConfigurationWrite, hup, Bool.not_true, Bool.false_eq_true, if_false]
  · refine upd_completes (doConfigurationWrite port (.maskVector vf v)) rfl ?_
    simp only [doConfigurationWrite, hup, Bool.not_true, Bool.false_eq_true, if_false]
  · refine upd_completes (doConfigurationWrite port (.vfEnable on)) rfl ?_
    simp only [doConfigurationWrite, hup, Bool.not_true, Bool.false_eq_true, if_false]
  · refine upd_completes (doConfigurationWrite port (.atomicEnable on)) rfl ?_
    simp only [doConfigurationWrite, hup, Bool.not_true, Bool.false_eq_true, if_false]
  · refine upd_completes (doMsixVectorUnmask port vf v) rfl ?_
    simp only [doMsixVectorUnmask, hup, hk, ← hd, Bool.not_true, Bool.false_eq_true, or_self, if_false]

/-! ## Slice commands -/

/-- The command field of a SLC_n_CTL word. -/
theorem fld_slcWord {cmd cache : Nat} (save : Bool) (hcmd : cmd < 16) (hcache : cache < 4) : fld (slcWord cmd cache save) 3 0 = cmd := by
  have hsave : save.toNat ≤ 1 := Bool.toNat_le save
  simp only [fld, nField, slcWord, BitVec.toNat_ofNat]
  omega

/-- Settles O33: each command by its effect on a slice in the state it asks for, and the ends of the tasks. -/
theorem sliceCommandsComplete : Obligations.SliceCommandsComplete := by
  unfold Obligations.SliceCommandsComplete
  refine ⟨fun s port slice s1 ht hst hrun hs1 hchk => ?_, fun s port slice cache save ht hst hdump hrun => ?_, fun s slice d hst hd => ?_,
    fun s port slice ht hst hdump hrun => ⟨?_, ?_⟩, fun s port slice ht hst hrun => ?_, fun s port slice regions ht hfix => ?_, fun s slice => ⟨rfl, fun hst => ⟨?_, ?_⟩⟩⟩
  · refine setupWr_completesM (fun _ => rfl) ht ?_
    have hst' : slState s.dev slice = 0 ∨ slState s.dev slice = 1 := by omega
    simp only [slcCtlEff, fld_slcWord false (cmd := 1) (cache := 0) (by decide) (by decide), hrun, hst', ← hs1, hchk, Nat.reduceLeDiff, false_and, or_self, Bool.false_eq_true,
      if_false, if_true]
  · refine setupWr_completesM (fun _ => rfl) ht ?_
    simp only [slcCtlEff, fld_slcWord save (cmd := 2) (by decide) cache.isLt, hrun, hst, hdump, Nat.reduceLeDiff, and_false, and_self, or_self, Bool.false_eq_true, if_false, if_true]
  · refine completesM (f := doHobbleForceAbort slice) (fun _ => rfl) ?_
    simp only [doHobbleForceAbort, hst, ← hd, ne_eq, not_true_eq_false, if_false]
  · refine setupWr_completesM (fun _ => rfl) ht ?_
    simp only [slcCtlEff, fld_slcWord false (cmd := 3) (cache := 0) (by decide) (by decide), hrun, hst, hdump, Nat.reduceLeDiff, and_false, and_self, or_self, Bool.false_eq_true,
      if_false, if_true]
  · refine setupWr_completesM (fun _ => rfl) ht ?_
    simp only [slcCtlEff, fld_slcWord false (cmd := 4) (cache := 0) (by decide) (by decide), hrun, hst, hdump, Nat.reduceLeDiff, and_false, and_self, or_self, Bool.false_eq_true,
      if_false, if_true]
  · refine setupWr_completesM (fun _ => rfl) ht ?_
    simp only [slcCtlEff, fld_slcWord false (cmd := 5) (cache := 0) (by decide) (by decide), hrun, hst, Nat.reduceLeDiff, and_false, false_and, or_self, Bool.false_eq_true, if_false, if_true]
  · refine setupWr_completesM (fun _ => rfl) ht ?_
    simp only [slcRgnEff, hfix, Bool.false_eq_true, if_false]
  · simp only [endTask, hst, if_true]
  · simp only [endTask, hst, if_true]

end Sys2Proof.Machine

/-! PROOF. Where page grooming, times on a region, dirty logging and cyclic schedules complete (O34, O35). -/

namespace Sys2Proof.Machine

open Sys2Proof

/-! ## Page grooming, times on a region and dirty logging -/

/-- The fields of an SLC_PG_CMD word that asks for `n + 1` frames. -/
theorem pgWord_fields (n : BitVec 16) :
    (BitVec.ofNat 64 (n.toNat * 2 ^ 32 + 1)).getLsbD 0 = true ∧ fld (BitVec.ofNat 64 (n.toNat * 2 ^ 32 + 1)) 47 32 = n.toNat := by
  refine ⟨(getLsbD_ofNat_mul_add (by decide) (by decide) (by decide)).trans rfl, ?_⟩
  have hn := n.isLt
  simp only [fld, nField, BitVec.toNat_ofNat]
  omega

/-- A SYNC word sets the EN bits as the word it was made of. -/
theorem syncWord_bits (data : Word) : (data ||| 16).getLsbD 0 = data.getLsbD 0 ∧ (data ||| 16).getLsbD 1 = data.getLsbD 1 ∧ (data ||| 16).getLsbD 2 = data.getLsbD 2
    ∧ (data ||| 16).getLsbD 4 = true := by
  simp

theorem writeReg_pgq (s : Dev) (off : Nat) (val : Word) : (writeReg s off val).pgq = s.pgq := by
  unfold writeReg
  split <;> rfl

/-- A write of every field is the write of the register. -/
theorem writeRegBy_all (s : Dev) (off : Nat) (val : Word) : writeRegBy s off val (fun _ => true) = writeReg s off val := by
  unfold writeRegBy writeReg
  simp only [List.filter_true]

/-- A frame being groomed that is good leaves no error. -/
theorem doPageGroomDone_good {s : Dev} {f n : Nat} {rest : List (Nat × Nat)} (hq : s.pgq = (f, n) :: rest)
    (hgood : (List.range n).find? (fun i => frameBad s (f + i)) = none) :
    doPageGroomDone s
      = showPg (clearMap (zeroFrames { s with pgq := rest } (fun x => decide (f ≤ x) && decide (x < f + n))) (fun x => decide (f ≤ x) && decide (x < f + n))) := by
  simp only [doPageGroomDone, hq, hgood]

/-- Settles O34: each row by what its command does. -/
theorem regionTimesComplete : Obligations.RegionTimesComplete := by
  unfold Obligations.RegionTimesComplete
  refine ⟨fun s port nfm1 ht hlen hgood => ?_, fun s f n rest hq hgood => completesM (f := doPageGroomDone) (fun _ => rfl) (doPageGroomDone_good hq hgood),
    fun s region a b d hw hres hreq hwin hnext hd => ?_, fun s key t c late hw hc hstop hst hlate hne => ?_, fun s port slice data d ht hen hd => ?_, fun s slice map word hnone => ?_⟩
  · refine setupWr_completes rfl ht ?_
    obtain ⟨hgo, hn⟩ := pgWord_fields nfm1
    simp only [pgCmdEff, hgo, hn, hgood, Nat.not_le.mpr hlen, setF_pgq, writeReg_pgq, Bool.true_eq_false, Bool.false_eq_true, if_false]
  · refine completesM (f := doQuantumExpiry region) (fun _ => rfl) ?_
    subst hd
    simp only [doQuantumExpiry, hw, hres, hreq, hwin, hnext, Option.isSome_none, Bool.or_self, Bool.false_eq_true, if_false]
  · refine completesM (f := doPreemptGraceExpiry key) (fun _ => rfl) ?_
    have hsome : late.isEmpty = false := List.isEmpty_eq_false_iff.mpr hne
    simp only [doPreemptGraceExpiry, hw, hc, hstop, hst, ← hlate, hsome, Option.isSome_none, Bool.or_self, Bool.false_eq_true, if_false]
  · refine setupWr_completes rfl ht ?_
    obtain ⟨h0, h1, h2, h4⟩ := syncWord_bits data
    simp only [dlogCtlEff, h0, h1, h2, h4, hen, Bool.false_and, Bool.not_false, writeRegBy_all, ← hd, Bool.false_eq_true, if_false, if_true]
  · refine upd_completes (doDlogStageWrite slice map word) rfl ?_
    simp only [doDlogStageWrite, hnone, Bool.false_eq_true, if_false]

/-! ## Cyclic schedules -/

/-- The word of a CYCLIC_ENABLE has EN set. -/
theorem cycWord_enables (data : Word) : (data ||| BitVec.ofNat 64 (2 ^ 63)).getLsbD 63 = true := by
  simp

/-- Settles O35: each row by what its command does. -/
theorem cyclicComplete : Obligations.CyclicComplete := by
  unfold Obligations.CyclicComplete
  refine ⟨fun s port chan data w d ht hw hok hen hd => ?_, fun s chan r hr hrun hopen hover hmode => ?_, fun s chan r e k d hr hlead hrun hopen hnone hkind hd => ?_,
    fun s chan r e rest hr hrun hopen hframe hnext hkind => ?_, fun s chan r e d hr hrun hopen hd hleft => ?_, fun s hout => ?_⟩
  · refine setupWr_completes rfl ht ?_
    have hbit : w.getLsbD 63 = true := hw ▸ cycWord_enables data
    simp only [cycCfgEff, ← hw, hbit, hok, hen, ← hd, Bool.true_eq_false, if_false, if_true]
  · refine upd_completes (doFrameStart chan) rfl ?_
    simp only [doFrameStart, ← hr, hrun, hopen, Nat.not_lt.mpr hover, decide_false, Option.isSome_none, Bool.not_true, Bool.or_self, Bool.false_eq_true, if_false]
    have hkeeps : getF (satF (advanceTo s.dev (frameStart s.dev chan r.frame)) (fSLC_CYC_STAT_FRAMES chan) 1) fSU_SYNCIO_MODE = getF s.dev fSU_SYNCIO_MODE :=
      getF_setF_other _ _ _ _ (by unfold fSU_SYNCIO_MODE fSLC_CYC_STAT_FRAMES; simp only [offSU_SYNCIO, offSLC_CYC_STAT]; omega)
    exact if_neg (fun h => hmode (hkeeps.symm.trans h.1))
  · refine upd_completes (doWindowLead chan) rfl ?_
    subst hd
    simp only [doWindowLead, hlead, ← hr, hrun, hopen, hnone, hkind, Option.isSome_none, bne_self_eq_false, Bool.not_true, Bool.or_self, Bool.false_eq_true, if_false]
  · refine upd_completes (doWindowOpen chan) rfl ?_
    simp only [doWindowOpen, ← hr, hrun, hopen, beq_eq_false_iff_ne.mpr hframe, hnext, hkind, Option.isSome_none, Bool.not_true, Bool.or_self, Bool.false_eq_true, if_false]
  · refine upd_completes (doWindowClose chan) rfl ?_
    simp only [doWindowClose, ← hr, hrun, hopen, ← hd, hleft, List.foldl_nil, Bool.not_true, Bool.false_eq_true, if_false]
  · refine upd_completes doFrameOutPulseEnd rfl ?_
    simp only [doFrameOutPulseEnd, hout, if_true]

end Sys2Proof.Machine

/-! PROOF. What error records, messages and trace records leave unchanged (R457, R495, R646 to R653, R687 to R691). -/

namespace Sys2Proof.Machine

open Sys2Proof

/-- `d` is `s` after error records, messages and trace records: time, commands, channels, the held halves of the ports and every register below
the FLT_ block are as they were. -/
structure ReportsOnly (s d : Dev) : Prop where
  now : d.now = s.now
  cmds : d.cmds = s.cmds
  chans : d.chans = s.chans
  nextKey : d.nextKey = s.nextKey
  held : ∀ p, (getPort d p).held = (getPort s p).held
  reg : ∀ off, off < 0x600000 → reg d off = reg s off

variable {s d : Dev}

theorem reportsOnly_refl (s : Dev) : ReportsOnly s s := ⟨rfl, rfl, rfl, rfl, fun _ => rfl, fun _ _ => rfl⟩

theorem reportsOnly_foldl {β : Type} {f : Dev → β → Dev} (hf : ∀ d b, ReportsOnly s d → ReportsOnly s (f d b)) {l : List β} (h : ReportsOnly s d) :
    ReportsOnly s (l.foldl f d) :=
  List.foldlRecOn l f (motive := ReportsOnly s) h fun d hd b _ => hf d b hd

theorem reportsOnly_setReg {off : Nat} (w : Word) (ho : 0x600000 ≤ off) (h : ReportsOnly s d) : ReportsOnly s (setReg d off w) :=
  ⟨h.now, h.cmds, h.chans, h.nextKey, h.held, fun o hlt => (reg_setReg_other d _ _ _ (by omega)).trans (h.reg o hlt)⟩

theorem reportsOnly_setF {f : Fld} (v : Nat) (ho : 0x600000 ≤ f.off) (h : ReportsOnly s d) : ReportsOnly s (setF d f v) := reportsOnly_setReg _ ho h

theorem reportsOnly_satF {f : Fld} (n : Nat) (ho : 0x600000 ≤ f.off) (h : ReportsOnly s d) : ReportsOnly s (satF d f n) := reportsOnly_setReg _ ho h

/-- The state of observation, of the error records and of the Bridle is none of it. -/
theorem reportsOnly_obs (o : ObsState) (h : ReportsOnly s d) : ReportsOnly s { d with obs := o } := ⟨h.now, h.cmds, h.chans, h.nextKey, h.held, h.reg⟩

theorem reportsOnly_flt (f : FaultState) (h : ReportsOnly s d) : ReportsOnly s { d with flt := f } := ⟨h.now, h.cmds, h.chans, h.nextKey, h.held, h.reg⟩

theorem reportsOnly_bridle (b : Bridle) (h : ReportsOnly s d) : ReportsOnly s { d with bridle := b } := ⟨h.now, h.cmds, h.chans, h.nextKey, h.held, h.reg⟩

/-- The counters of a hub lie in the OBS_ block, whatever the hub. -/
theorem reportsOnly_countHub (hub code n : Nat) (h : ReportsOnly s d) : ReportsOnly s (countHub d hub code n) := by
  refine ⟨?_, ?_, ?_, ?_, fun p => ?_, fun off ho => ?_⟩
  · rw [countHub_now, h.now]
  · rw [countHub_cmds, h.cmds]
  · rw [countHub_chans, h.chans]
  · rw [countHub_nextKey, h.nextKey]
  · rw [getPort, countHub_ports]
    exact h.held p
  · rw [countHub_reg _ _ _ (.inl (by unfold offOBS_HUB_CTR; omega)), h.reg off ho]

theorem reportsOnly_emit (o : Out) (h : ReportsOnly s d) : ReportsOnly s (emit d o) := by
  have hcount : ReportsOnly s (countOut d o) := by
    unfold countOut
    dsimp only
    split
    case h_7 => split <;> exact reportsOnly_countHub _ _ _ h
    case h_8 => exact h
    all_goals exact reportsOnly_countHub _ _ _ h
  exact ⟨hcount.now, hcount.cmds, hcount.chans, hcount.nextKey, hcount.held, hcount.reg⟩

theorem reportsOnly_hostWrite (p : Nat) (pasid : Option Nat) (addr : Nat) (data : List Byte) (h : ReportsOnly s d) : ReportsOnly s (hostWrite d p pasid addr data) := by
  unfold hostWrite
  split
  · exact reportsOnly_emit _ h
  · exact h

/-- A change of a port that keeps its held half. -/
theorem reportsOnly_modPort (p : Nat) {f : HostPort → HostPort} (hf : ∀ x, (f x).held = x.held) (h : ReportsOnly s d) : ReportsOnly s (modPort d p f) := by
  refine ⟨h.now, h.cmds, h.chans, h.nextKey, fun q => (?_ : _ = (getPort d q).held).trans (h.held q), h.reg⟩
  unfold modPort getPort
  dsimp only
  rw [tabGet_tabSet]
  split
  case isTrue hq => rw [hf, hq]
  case isFalse => rfl

theorem reportsOnly_sendMsix (p : Nat) (vf : Option Nat) (v : Nat) (h : ReportsOnly s d) : ReportsOnly s (sendMsix d p vf v) := by
  unfold sendMsix
  extract_lets port fn
  split
  · exact h
  · split
    · exact reportsOnly_modPort _ (fun _ => rfl) h
    · exact reportsOnly_emit _ h

/-! ## Error records (R646 to R653) -/

theorem reportsOnly_ringDeliver (n : Nat) (rb : Block64) (h : ReportsOnly s d) : ReportsOnly s (ringDeliver d n rb) := by
  unfold ringDeliver
  dsimp only
  split
  · exact reportsOnly_satF _ (Nat.le_add_right_of_le (by decide)) h
  · have hwrites := reportsOnly_hostWrite (portOf (getF d (fFLT_ER_CFG_PORT n))) none (64 * getF d (fFLT_ER_BASE_ADDR n) + 64 * getF d (fFLT_ER_STATE_TAIL n)) (blockBytes rb) h
    have htail := reportsOnly_setF (f := fFLT_ER_STATE_TAIL n) ((getF d (fFLT_ER_STATE_TAIL n) + 1) % 2 ^ getF d (fFLT_ER_CFG_LOG2SZ n)) (Nat.le_add_right_of_le (by decide)) hwrites
    split
    · exact reportsOnly_sendMsix _ _ _ (reportsOnly_hostWrite _ _ _ _ htail)
    · exact reportsOnly_hostWrite _ _ _ _ htail

theorem reportsOnly_backlogPut (hub : Nat) (rb : Block64) (h : ReportsOnly s d) : ReportsOnly s (backlogPut d hub rb) := by
  unfold backlogPut
  split
  · exact reportsOnly_setF _ (by decide) (reportsOnly_flt _ h)
  · exact reportsOnly_satF _ (by decide) h

theorem reportsOnly_bridlePut (hub : Nat) (r : ErrRec) (rb : Block64) (h : ReportsOnly s d) : ReportsOnly s (bridlePut d hub r rb) := by
  unfold bridlePut
  dsimp only
  split
  · exact reportsOnly_bridle _ h
  · split <;> exact reportsOnly_bridle _ h

theorem sevField_off (sev : Nat) : 0x600000 ≤ (sevField sev).off := by
  unfold sevField
  repeat' split
  all_goals decide

/-- The rings, or the backlog, take a record that passes the filter (R650 to R652). -/
theorem reportsOnly_deliver (hub sev : Nat) (rb : Block64) (h : ReportsOnly s d) : ReportsOnly s
    (if sev < getF d fFLT_CFG_MIN_SEV then d
    else
      match activeRings d with
      | [] => backlogPut d hub rb
      | l => l.foldl (fun s n => ringDeliver s n rb) d) := by
  split
  · exact h
  · split
    · exact reportsOnly_backlogPut _ _ h
    · exact reportsOnly_foldl (fun _ _ => reportsOnly_ringDeliver _ _) h

theorem reportsOnly_putRecord (r : ErrRec) (h : ReportsOnly s d) : ReportsOnly s (putRecord d r) := by
  unfold putRecord
  extract_lets seq rb s1 s2 hub s3
  have h1 : ReportsOnly s s1 := reportsOnly_setF _ (by decide) h
  have h2 : ReportsOnly s s2 := reportsOnly_satF _ (sevField_off _) h1
  have h3 : ReportsOnly s s3 := reportsOnly_deliver _ _ _ h2
  split
  · exact h3
  · exact reportsOnly_bridlePut _ _ _ h3

theorem reportsOnly_errRecord (r : ErrRec) (h : ReportsOnly s d) : ReportsOnly s (errRecord d r) := by
  unfold errRecord
  split
  · extract_lets k n flt s1
    have h1 : ReportsOnly s s1 := reportsOnly_flt _ h
    split
    · exact reportsOnly_putRecord _ h1
    · split
      · exact reportsOnly_putRecord _ h1
      · exact h1
  · exact reportsOnly_putRecord _ h

/-! ## Trace records (R687 to R693) -/

theorem reportsOnly_whoaStop (source : Nat) (h : ReportsOnly s d) : ReportsOnly s (whoaStop d source) := by
  unfold whoaStop
  split
  · exact h
  · extract_lets s1 obs s2
    have h1 : ReportsOnly s s1 := reportsOnly_setF _ (by decide) (reportsOnly_setF _ (by decide) h)
    have h2 : ReportsOnly s s2 := reportsOnly_obs _ h1
    split
    · exact reportsOnly_setF _ (by decide) (reportsOnly_obs _ h2)
    · exact h2

theorem reportsOnly_traceDrain (b fuel : Nat) (h : ReportsOnly s d) : ReportsOnly s (traceDrain b fuel d) := by
  induction fuel generalizing d with
  | zero => exact h
  | succ fuel ih =>
    unfold traceDrain
    split
    · exact h
    · extract_lets size tail head p obs s1 s2 s3 s4 used s5
      split
      · exact h
      · have h1 : ReportsOnly s s1 := reportsOnly_obs _ h
        have h3 : ReportsOnly s s3 := reportsOnly_setF _ (Nat.le_add_right_of_le (by decide)) (reportsOnly_hostWrite _ _ _ _ h1)
        have h4 : ReportsOnly s s4 := reportsOnly_hostWrite _ _ _ _ h3
        refine ih ?_
        dsimp only [s5]
        split
        · exact reportsOnly_sendMsix _ _ _ h4
        · exact h4

theorem reportsOnly_traceStage (hub : Nat) (w : BitVec 256) (h : ReportsOnly s d) : ReportsOnly s (traceStage d hub w) := by
  unfold traceStage
  extract_lets n m room obs dropped s1 s2 obs2 staged
  refine reportsOnly_traceDrain _ _ ?_
  dsimp only [staged]
  split
  · exact reportsOnly_obs _ h
  · split
    · exact reportsOnly_obs _ h
    · have hcount := reportsOnly_countHub hub 0xC9 1 (reportsOnly_satF (f := fOBS_TRB_DROPS_DROPS hub) 1 (Nat.le_add_right_of_le (by decide)) h)
      exact reportsOnly_obs _ hcount

theorem reportsOnly_cmpAct (hub c : Nat) (r : TraceRec) (h : ReportsOnly s d) : ReportsOnly s (cmpAct d hub c r) := by
  unfold cmpAct
  extract_lets act s1 s2 s3
  have h1 : ReportsOnly s s1 := by
    dsimp only [s1]
    split
    · exact reportsOnly_traceStage _ _ h
    · exact h
  have h2 : ReportsOnly s s2 := by
    dsimp only [s2]
    split
    · exact reportsOnly_setF _ (by decide) h1
    · exact h1
  have h3 : ReportsOnly s s3 := by
    dsimp only [s3]
    split
    · exact reportsOnly_setF _ (by decide) h2
    · exact h2
  split
  · exact reportsOnly_whoaStop _ h3
  · exact h3

theorem reportsOnly_traceAt (hub : Nat) (r : TraceRec) (time : Word) (h : ReportsOnly s d) : ReportsOnly s (traceAt d hub r time) := by
  unfold traceAt
  split
  · exact reportsOnly_foldl (fun _ _ => reportsOnly_cmpAct _ _ _) (reportsOnly_traceStage _ _ h)
  · exact h

end Sys2Proof.Machine

/-! PROOF. A channel under reset with no command left stays so while commands end and regions save, restore and switch (R504, R533 to R539,
R631). -/

namespace Sys2Proof.Machine

open Sys2Proof

/-- The reset of a channel is in progress, and none of its commands is in flight. -/
structure UnderReset (c : Nat) (d : Dev) : Prop where
  chan : c < 16
  busy : getF d (fCH_RESET_BUSY c) ≠ 0
  idle : ∀ x ∈ d.cmds, x.chan ≠ c

variable {c : Nat} {d : Dev}

/-- It is a matter of the channel's reset register and of the commands alone. -/
theorem underReset_of_kept {e : Dev} (h : UnderReset c d) (hr : reg e (offCH_RESET c) = reg d (offCH_RESET c)) (hc : e.cmds = d.cmds) : UnderReset c e :=
  ⟨h.chan, by rw [getF, show (fCH_RESET_BUSY c).off = offCH_RESET c from rfl, hr]; exact h.busy, hc ▸ h.idle⟩

theorem underReset_reports {e : Dev} (hr : ReportsOnly d e) (h : UnderReset c d) : UnderReset c e :=
  underReset_of_kept h (hr.reg _ (by have hc := h.chan; unfold offCH_RESET; omega)) hr.cmds

theorem underReset_setReg_other {off : Nat} (w : Word) (ho : off ≠ offCH_RESET c) (h : UnderReset c d) : UnderReset c (setReg d off w) :=
  underReset_of_kept h (reg_setReg_other _ _ _ _ ho.symm) rfl

/-- The channels' registers lie below the other blocks that these rows write. -/
theorem underReset_setReg {off : Nat} (w : Word) (ho : 0x200000 ≤ off) (h : UnderReset c d) : UnderReset c (setReg d off w) :=
  underReset_setReg_other w (by have hc := h.chan; unfold offCH_RESET; omega) h

theorem underReset_setF {f : Fld} (v : Nat) (ho : 0x200000 ≤ f.off) (h : UnderReset c d) : UnderReset c (setF d f v) := underReset_setReg _ ho h

theorem underReset_satF {f : Fld} (n : Nat) (ho : 0x200000 ≤ f.off) (h : UnderReset c d) : UnderReset c (satF d f n) := underReset_setReg _ ho h

theorem underReset_foldl {β : Type} {f : Dev → β → Dev} {l : List β} (hf : ∀ d b, UnderReset c d → UnderReset c (f d b)) (h : UnderReset c d) :
    UnderReset c (l.foldl f d) :=
  List.foldlRecOn l f (motive := UnderReset c) h fun d hd b _ => hf d b hd

theorem underReset_ite {p : Prop} [Decidable p] {a b : Dev} (ha : UnderReset c a) (hb : UnderReset c b) : UnderReset c (if p then a else b) := by
  split
  · exact ha
  · exact hb

theorem underReset_emit (o : Out) (h : UnderReset c d) : UnderReset c (emit d o) := underReset_reports (reportsOnly_emit o (reportsOnly_refl d)) h

theorem underReset_errRecord (r : ErrRec) (h : UnderReset c d) : UnderReset c (errRecord d r) := underReset_reports (reportsOnly_errRecord r (reportsOnly_refl d)) h

theorem underReset_countHub (hub code n : Nat) (h : UnderReset c d) : UnderReset c (countHub d hub code n) :=
  underReset_reports (reportsOnly_countHub hub code n (reportsOnly_refl d)) h

theorem underReset_hostWrite (p : Nat) (pasid : Option Nat) (addr : Nat) (data : List Byte) (h : UnderReset c d) : UnderReset c (hostWrite d p pasid addr data) :=
  underReset_reports (reportsOnly_hostWrite p pasid addr data (reportsOnly_refl d)) h

theorem underReset_sendMsix (p : Nat) (vf : Option Nat) (v : Nat) (h : UnderReset c d) : UnderReset c (sendMsix d p vf v) :=
  underReset_reports (reportsOnly_sendMsix p vf v (reportsOnly_refl d)) h

theorem underReset_trace (hub : Nat) (r : TraceRec) (h : UnderReset c d) : UnderReset c (trace d hub r) :=
  underReset_reports (reportsOnly_traceAt hub r _ (reportsOnly_refl d)) h

theorem underReset_bumpFree (h : UnderReset c d) : UnderReset c (bumpFree d) := underReset_of_kept h rfl rfl

theorem underReset_bridle (b : Bridle) (h : UnderReset c d) : UnderReset c { d with bridle := b } := underReset_of_kept h rfl rfl

theorem underReset_noteReplace (b : Nat) (h : UnderReset c d) : UnderReset c (noteReplace d b) := by
  unfold noteReplace
  extract_lets s1 s2 s3
  have h1 : UnderReset c s1 := underReset_ite (underReset_setF _ (by decide) h) h
  exact underReset_setReg _ (by decide) (underReset_setF _ (by decide) (underReset_setF _ (by decide) h1))

theorem underReset_countDie (die code n : Nat) (h : UnderReset c d) : UnderReset c (countDie d die code n) := by
  refine underReset_of_kept h (reg_foldl_of_keeps (fun w hw e => ?_) d) (countDie_cmds d die code n)
  have hc := h.chan
  exact reg_countSel_outside _ _ _ _ _ (.inl (by unfold offOBS_DIE_CTR offCH_RESET; omega))

/-! ## The tiers -/

theorem underReset_sendOn (a b : Nat) (h : UnderReset c d) : UnderReset c (sendOn d a b) :=
  underReset_ite h (underReset_foldl (fun _ _ hd => underReset_ite (underReset_countDie _ _ _ (underReset_of_kept hd rfl rfl)) hd) h)

theorem underReset_sendVia (l : List Nat) (h : UnderReset c d) : UnderReset c (sendVia d l) := by
  induction l generalizing d with
  | nil => exact h
  | cons a l ih =>
    cases l with
    | nil => exact h
    | cons b t => exact ih (underReset_sendOn a b h)

theorem underReset_wakeStacks (b : Nat) (h : UnderReset c d) : UnderReset c (wakeStacks d b) := underReset_ite (underReset_of_kept h rfl rfl) h

theorem underReset_cxlRequest (b : Nat) (write : Bool) (x : BitVec 512) (mask : Nat) (poison : Bool) (h : UnderReset c d) :
    UnderReset c (cxlRequest d b write x mask poison) := by
  unfold cxlRequest
  refine underReset_ite h ?_
  extract_lets s1
  have hsent : UnderReset c s1 := underReset_emit _ h
  split
  · exact underReset_ite hsent (underReset_of_kept hsent rfl rfl)
  · exact hsent

theorem underReset_noteFarOut (b mask : Nat) (h : UnderReset c d) : UnderReset c (noteFarOut d b mask) := by
  obtain ⟨outs, ho⟩ := noteFarOut_farOut_only d b mask
  exact ho ▸ underReset_of_kept h rfl rfl

theorem underReset_tierStore (b : Nat) (x : BitVec 512) (mask : Nat) (poison : Bool) (h : UnderReset c d) : UnderReset c (tierStore d b x mask poison) := by
  have hcount : UnderReset c (tierCount d b mask) := underReset_ite (underReset_countDie _ _ _ (underReset_wakeStacks b h)) h
  have hsent := underReset_noteFarOut b mask (underReset_cxlRequest b true x mask poison hcount)
  exact underReset_ite h (underReset_of_kept hsent rfl rfl)

theorem underReset_adderFlush (b : Nat) (h : UnderReset c d) : UnderReset c (adderFlush d b) := by
  unfold adderFlush
  split
  · exact h
  · exact underReset_tierStore _ _ _ _ (underReset_of_kept h rfl rfl)

theorem underReset_retireFrame (pa cause slice : Nat) (r : ErrRec) (h : UnderReset c d) : UnderReset c (retireFrame d pa cause slice r) := by
  unfold retireFrame
  extract_lets fr s1 n s2 s3 bridle s4
  have h1 : UnderReset c s1 := underReset_of_kept h rfl rfl
  have h3 : UnderReset c s3 := underReset_ite (underReset_setF _ (by decide) (underReset_setReg _ (Nat.le_add_right_of_le (by decide)) h1)) (underReset_satF _ (by decide) h1)
  exact underReset_ite (underReset_satF _ (by decide) h) (underReset_errRecord _ (underReset_bridle _ h3))

theorem underReset_countCe (b kind : Nat) (h : UnderReset c d) : UnderReset c (countCe d b kind) := by
  unfold countCe
  extract_lets u s1
  exact underReset_errRecord _ (underReset_ite (underReset_satF _ (Nat.le_add_right_of_le (by decide)) h) h)

theorem underReset_backingFar (a : Nat) (h : UnderReset c d) : UnderReset c (backingFar d a).1 := by
  unfold backingFar
  split
  · exact h
  · extract_lets s1
    have h1 : UnderReset c s1 := underReset_foldl (fun _ _ hd => underReset_cxlRequest _ _ _ _ _ (underReset_adderFlush _ hd)) h
    clear_value s1
    split <;> exact h1

theorem underReset_backingRead (pa : Nat) (h : UnderReset c d) : UnderReset c (backingRead d pa).1 := by
  unfold backingRead
  split
  · exact h
  · split
    · exact h
    · split
      · exact underReset_backingFar _ h
      · split
        · split
          · exact h
          · exact underReset_bumpFree (underReset_emit _ h)
        · exact h

theorem underReset_farDecode (pa b slice : Nat) (bad : Bool) (h : UnderReset c d) : UnderReset c (farDecode d pa b slice bad).1 := by
  unfold farDecode
  extract_lets s1 x
  have h1 : UnderReset c s1 := underReset_cxlRequest _ _ _ _ _ h
  split
  · exact underReset_retireFrame _ _ _ _ (underReset_of_kept h1 rfl rfl)
  · exact h1

theorem underReset_nearRepair (pa b slice : Nat) (hard : Bool) (h : UnderReset c d) : UnderReset c (nearRepair d pa b slice hard).1 := by
  have hread := underReset_backingRead pa h
  unfold nearRepair
  split
  case h_1 s1 y heq =>
    rw [heq] at hread
    extract_lets s2 u
    dsimp only
    exact underReset_errRecord _ (underReset_foldl (fun _ _ hd => underReset_tierStore _ _ _ _ hd) hread)
  case h_2 s1 heq =>
    rw [heq] at hread
    exact underReset_retireFrame _ _ _ _ (underReset_bumpFree (underReset_tierStore _ _ _ _ hread))

theorem underReset_nearDecode (pa b slice : Nat) (shows : (CxlResp → BitVec 8) → Bool) (h : UnderReset c d) : UnderReset c (nearDecode d pa b slice shows).1 := by
  unfold nearDecode
  extract_lets e s1 s2
  have h1 : UnderReset c s1 := underReset_ite (underReset_countCe _ _ h) h
  split
  · exact underReset_nearRepair _ _ _ _ h1
  · exact underReset_ite (underReset_countCe _ _ (underReset_of_kept h1 rfl rfl)) h1

theorem underReset_tierDecode (pa b slice : Nat) (h : UnderReset c d) : UnderReset c (tierDecode d pa b slice).1 := by
  unfold tierDecode
  extract_lets s1 shows
  have h1 : UnderReset c s1 := underReset_adderFlush _ (underReset_wakeStacks _ h)
  split
  · exact underReset_of_kept h1 rfl rfl
  · split
    · exact underReset_farDecode _ _ _ _ h1
    · exact underReset_nearDecode _ _ _ _ h1

theorem underReset_readRow (b : Nat) (h : UnderReset c d) : UnderReset c (readRow d b) :=
  underReset_foldl (fun _ _ hd => underReset_foldl (fun _ _ he => underReset_tierDecode _ _ _ he) hd) (underReset_of_kept h rfl rfl)

theorem underReset_softPpr (pa b slice : Nat) (h : UnderReset c d) : UnderReset c (softPpr d pa b slice) := by
  unfold softPpr
  extract_lets k st bank s1 s2 spares s3 s4 bridle s5 u s6 s7
  have h1 : UnderReset c s1 := underReset_readRow _ h
  clear_value s1
  have h2 : UnderReset c s2 := underReset_of_kept h1 rfl rfl
  have h4 : UnderReset c s4 := underReset_satF _ (Nat.le_add_right_of_le (by decide)) (underReset_setF _ (Nat.le_add_right_of_le (by decide)) h2)
  have h5 : UnderReset c s5 := underReset_bridle _ h4
  have h6 : UnderReset c s6 := underReset_errRecord _ h5
  exact underReset_ite h (underReset_ite (underReset_retireFrame _ _ _ _ (underReset_retireFrame _ _ _ _ h1))
    (underReset_ite (underReset_errRecord _ (underReset_noteReplace _ h6)) h6))

theorem underReset_countRowFix (pa b slice : Nat) (h : UnderReset c d) : UnderReset c (countRowFix d pa b slice) := by
  unfold countRowFix
  extract_lets k s1 n s2
  have h1 : UnderReset c s1 := underReset_ite h (underReset_of_kept h rfl rfl)
  have h2 : UnderReset c s2 := underReset_of_kept h1 rfl rfl
  exact underReset_ite (underReset_softPpr _ _ _ h2) h2

theorem underReset_tierRead (pa b slice : Nat) (h : UnderReset c d) : UnderReset c (tierRead d pa b slice).1 := by
  have hread := underReset_tierDecode pa b slice (underReset_ite (p := isNear b = true) (underReset_countDie (nField b 39 37) 0x80 64 h) h)
  exact underReset_ite (underReset_softPpr _ _ _ hread) (underReset_ite (underReset_countRowFix _ _ _ hread) hread)

theorem underReset_tierWrite (pa b : Nat) (x : BitVec 512) (mask : Nat) (poison : Bool) (slice : Nat) (h : UnderReset c d) :
    UnderReset c (tierWrite d pa b x mask poison slice) := by
  have hflush := underReset_adderFlush b h
  exact underReset_ite h (underReset_tierStore _ _ _ _ (underReset_ite hflush (underReset_tierRead _ _ _ hflush)))

/-! ## Lines of the coherent domain -/

theorem underReset_writeBack (l : CacheLine) (h : UnderReset c d) : UnderReset c (writeBack d l) :=
  underReset_foldl (fun _ _ hd => underReset_ite hd (underReset_tierWrite _ _ _ _ _ _ hd)) h

theorem underReset_invalCopies (home line : Nat) (keep : Option Nat) (h : UnderReset c d) : UnderReset c (invalCopies d home line keep) := by
  unfold invalCopies
  extract_lets goes s1 s2
  have h1 : UnderReset c s1 := underReset_foldl (fun _ _ hd => underReset_sendVia _ hd) h
  have h2 : UnderReset c s2 := underReset_of_kept h1 rfl rfl
  split
  · exact h2
  · exact underReset_of_kept h2 rfl rfl

theorem underReset_invalLine (l : CacheLine) (h : UnderReset c d) : UnderReset c (invalLine d l) :=
  underReset_of_kept (underReset_invalCopies l.agent l.line none h) rfl rfl

theorem underReset_flushLine (l : CacheLine) (h : UnderReset c d) : UnderReset c (flushLine d l) := by
  unfold flushLine
  refine underReset_ite (underReset_of_kept h rfl rfl) ?_
  extract_lets s1
  have h1 : UnderReset c s1 := by
    dsimp only [s1]
    split
    · exact underReset_of_kept h rfl rfl
    · exact h
  split
  · exact underReset_of_kept (underReset_writeBack _ h1) rfl rfl
  · exact h1

theorem underReset_rangeLine (op : RangeOp) (l : CacheLine) (h : UnderReset c d) : UnderReset c (rangeLine op d l) := by
  have hflush := underReset_flushLine l h
  cases op with
  | flush => exact hflush
  | inval => exact underReset_invalLine l h
  | flushInv =>
    unfold rangeLine
    dsimp only
    split
    · exact underReset_invalLine _ hflush
    · exact hflush

theorem underReset_rangeLines (op : RangeOp) (owner : Nat) (p : CacheLine → Bool) (h : UnderReset c d) : UnderReset c (rangeLines op owner d p) :=
  underReset_foldl (fun _ _ hd => underReset_ite (underReset_of_kept hd rfl rfl) (underReset_rangeLine _ _ hd)) h

end Sys2Proof.Machine

/-! PROOF. A channel under reset stays so while commands end and regions save, restore and switch (R207, R504, R522, R533 to R539, R631). -/

namespace Sys2Proof.Machine

open Sys2Proof

variable {c : Nat} {d : Dev}

theorem underReset_setF_other {f : Fld} (v : Nat) (ho : f.off ≠ offCH_RESET c) (h : UnderReset c d) : UnderReset c (setF d f v) := underReset_setReg_other _ ho h

theorem underReset_modCh (k : Nat) (f : Channel → Channel) (h : UnderReset c d) : UnderReset c (modCh d k f) := underReset_of_kept h rfl rfl

theorem underReset_modMs (f : MemSys → MemSys) (h : UnderReset c d) : UnderReset c (modMs d f) := underReset_of_kept h rfl rfl

theorem underReset_modCore (k : Nat) (f : Core → Core) (h : UnderReset c d) : UnderReset c (modCore d k f) := underReset_of_kept h rfl rfl

theorem underReset_modCl (k : Nat) (f : Cluster → Cluster) (h : UnderReset c d) : UnderReset c (modCl d k f) := underReset_of_kept h rfl rfl

theorem underReset_modRgn (r : Nat) (f : RegionRun → RegionRun) (h : UnderReset c d) : UnderReset c (modRgn d r f) := underReset_of_kept h rfl rfl

theorem underReset_obs (o : ObsState) (h : UnderReset c d) : UnderReset c { d with obs := o } := underReset_of_kept h rfl rfl

theorem underReset_pw (p : Power) (h : UnderReset c d) : UnderReset c { d with pw := p } := underReset_of_kept h rfl rfl

theorem underReset_saved (l : List SavedCtx) (h : UnderReset c d) : UnderReset c { d with saved := l } := underReset_of_kept h rfl rfl

/-! ## Scratchpads -/

theorem underReset_wakeCl (cl : Nat) (h : UnderReset c d) : UnderReset c (wakeCl d cl) := by
  unfold wakeCl
  extract_lets s1
  have h1 : UnderReset c s1 := underReset_modCl _ _ h
  exact underReset_ite h (underReset_ite (underReset_setF _ (Nat.le_add_right_of_le (by decide)) h1) h1)

theorem underReset_spadWrite (cl off data mask n : Nat) (poison : Bool) (thr : Writer) (h : UnderReset c d) :
    UnderReset c (spadWrite d cl off data mask n poison thr) := by
  unfold spadWrite
  extract_lets a s1
  have h1 : UnderReset c s1 := underReset_modMs _ (underReset_wakeCl cl h)
  exact underReset_modMs _ h1

theorem underReset_spadWriteRun (cl off n data : Nat) (pz : Nat → Bool) (h : UnderReset c d) : UnderReset c (spadWriteRun d cl off n data pz) :=
  underReset_ite h (underReset_foldl (fun _ _ hd => underReset_spadWrite _ _ _ _ _ _ _ hd) h)

theorem underReset_cutDrain (key core : Nat) (h : UnderReset c d) : UnderReset c (cutDrain d key core) := by
  unfold cutDrain
  split
  · exact h
  · exact underReset_ite h (underReset_bumpFree (underReset_foldl (fun _ _ hd => underReset_spadWriteRun _ _ _ _ _ hd) h))

theorem underReset_putElems (cl : Nat) (d0 d1 : Word) (w : Nat) (all : Bool) (e : Nat) (l : List (Nat × Bool)) (h : UnderReset c d) :
    UnderReset c (putElems cl d0 d1 w all d e l).1 := by
  fun_induction putElems cl d0 d1 w all d e l with
  | case1 => exact h
  | case2 =>
    dsimp only
    exact underReset_spadWriteRun _ _ _ _ _ h
  | case3 => exact h
  | case4 s e x y t off hw ih => exact ih (underReset_spadWriteRun _ _ _ _ _ h)
  | case5 s e x y t off hw ih => exact ih (underReset_spadWriteRun _ _ _ _ _ h)

theorem underReset_cutRun (key cl : Nat) (h : UnderReset c d) : UnderReset c (cutRun d key cl) := by
  unfold cutRun
  split
  · exact h
  · refine underReset_ite ?_ h
    exact List.foldlRecOn _ _ (motive := fun a : Dev × FabRun => UnderReset c a.1) h fun a ha p _ => underReset_putElems _ _ _ _ _ _ _ ha

/-! ## Commands -/

theorem mem_updFirst {α : Type} {p : α → Bool} {f : α → α} {l : List α} {x : α} (hx : x ∈ updFirst p f l) : ∃ y ∈ l, x = y ∨ x = f y := by
  induction l with
  | nil => exact absurd hx (by simp [updFirst])
  | cons a l ih =>
    unfold updFirst at hx
    split at hx
    · rcases List.mem_cons.mp hx with rfl | hx
      · exact ⟨a, .head _, .inr rfl⟩
      · exact ⟨x, .tail _ hx, .inl rfl⟩
    · rcases List.mem_cons.mp hx with rfl | hx
      · exact ⟨x, .head _, .inl rfl⟩
      · obtain ⟨y, hy, hxy⟩ := ih hx
        exact ⟨y, .tail _ hy, hxy⟩

/-- A change of a command that leaves it on its channel. -/
theorem underReset_modCmd (k : Nat) {f : Cmd → Cmd} (hf : ∀ x, (f x).chan = x.chan) (h : UnderReset c d) : UnderReset c (modCmd d k f) := by
  refine ⟨h.chan, h.busy, fun x hx => ?_⟩
  obtain ⟨y, hy, rfl | rfl⟩ := mem_updFirst hx
  · exact h.idle x hy
  · rw [hf]
    exact h.idle y hy

/-- Commands that leave. -/
theorem underReset_filterCmds (p : Cmd → Bool) (h : UnderReset c d) : UnderReset c { d with cmds := d.cmds.filter p } :=
  ⟨h.chan, h.busy, fun x hx => h.idle x (List.mem_of_mem_filter hx)⟩

theorem underReset_stageBit (n kind page : Nat) (h : UnderReset c d) : UnderReset c (stageBit d n kind page) := by
  unfold stageBit
  extract_lets word used full s1
  have h1 : UnderReset c s1 := underReset_of_kept h rfl rfl
  exact underReset_ite h (underReset_ite (underReset_of_kept h1 rfl rfl) h1)

theorem underReset_dlogStage (tag : Nat) (place : Place) (pa : Nat) (h : UnderReset c d) : UnderReset c (dlogStage d tag place pa) := by
  have hover (f : Fld) (ho : 0x200000 ≤ f.off) : UnderReset c (setF d f 1) := underReset_setF 1 ho h
  unfold dlogStage
  refine underReset_ite h ?_
  split
  · exact underReset_ite (underReset_ite (underReset_stageBit _ _ _ h) (hover _ (Nat.le_add_right_of_le (by decide)))) h
  · exact underReset_ite (underReset_ite (underReset_stageBit _ _ _ h) (hover _ (Nat.le_add_right_of_le (by decide)))) h
  · exact underReset_ite (underReset_stageBit _ _ _ h) h
  · exact h

theorem underReset_cqMessage (k q : Nat) (h : UnderReset c d) : UnderReset c (cqMessage d k q) :=
  underReset_sendMsix _ _ _ (underReset_modCh _ _ h)

theorem underReset_cqCount (k q : Nat) (h : UnderReset c d) : UnderReset c (cqCount d k q) :=
  underReset_ite h (underReset_ite (underReset_cqMessage _ _ h) (underReset_modCh _ _ h))

/-- A completion ring's TAIL is no reset register, whatever the ring. -/
theorem underReset_setTail (k q v : Nat) (h : UnderReset c d) : UnderReset c (setF d (fCH_CQ_STATE_TAIL k q) v) :=
  underReset_setF_other _ (by simp only [fCH_CQ_STATE_TAIL, offCH_CQ_STATE, offCH_RESET]; omega) h

theorem underReset_writeRecord (x : Cmd) (status : Nat) (h : UnderReset c d) : UnderReset c (writeRecord d x status) := by
  unfold writeRecord
  extract_lets q p pas size tail s1 s2 s3 s4 s5
  have h3 : UnderReset c s3 := underReset_hostWrite _ _ _ _ (underReset_setTail _ _ _ (underReset_hostWrite _ _ _ _ h))
  exact underReset_ite h (underReset_cqCount _ _ (underReset_dlogStage _ _ _ (underReset_dlogStage _ _ _ h3)))

theorem underReset_creditJob (slice nj : Nat) (h : UnderReset c d) : UnderReset c (creditJob d slice nj) :=
  underReset_setF _ (Nat.le_add_right_of_le (by decide)) (underReset_pw _ h)

theorem underReset_syncInflight (k : Nat) (h : UnderReset c d) : UnderReset c (syncInflight d k) :=
  underReset_setF_other _ (by simp only [fCH_STATUS_INFLIGHT, offCH_STATUS, offCH_RESET]; omega) h

/-- The end of another channel's reset. -/
theorem underReset_tryChanReset {k : Nat} (hk : k ≠ c) (h : UnderReset c d) : UnderReset c (tryChanReset d k) := by
  unfold tryChanReset
  extract_lets s1 s2
  have h1 : UnderReset c s1 := by
    refine List.foldlRecOn _ _ (motive := UnderReset c) h fun d hd n hn => ?_
    have hset (e : Dev) (f : Fld) (hf : f.off = offCH_SQ_CFG k n ∨ f.off = offCH_SQ_STATE k n ∨ f.off = offCH_CQ_CFG k n ∨ f.off = offCH_CQ_STATE k n)
        (he : UnderReset c e) : UnderReset c (setF e f 0) := by
      have hn64 : n < 64 := List.mem_range.mp hn
      refine underReset_setF_other _ ?_ he
      unfold offCH_SQ_CFG offCH_SQ_STATE offCH_CQ_CFG offCH_CQ_STATE at hf
      unfold offCH_RESET
      omega
    have hsq := hset _ (fCH_SQ_STATE_CAUSE k n) (by simp [fCH_SQ_STATE_CAUSE]) (hset _ (fCH_SQ_STATE_STATE k n) (by simp [fCH_SQ_STATE_STATE])
      (hset _ (fCH_SQ_CFG_ENABLE k n) (by simp [fCH_SQ_CFG_ENABLE]) hd))
    exact hset _ (fCH_CQ_STATE_CAUSE k n) (by simp [fCH_CQ_STATE_CAUSE]) (hset _ (fCH_CQ_STATE_STATE k n) (by simp [fCH_CQ_STATE_STATE])
      (hset _ (fCH_CQ_CFG_ENABLE k n) (by simp [fCH_CQ_CFG_ENABLE]) hsq))
  clear_value s1
  have h2 : UnderReset c s2 := underReset_modCh _ _ h1
  clear_value s2
  refine underReset_ite h (underReset_setF_other _ ?_ (underReset_setF_other _ ?_ h2))
  · simp only [fCH_RESET_BUSY, offCH_RESET]
    omega
  · simp only [fCH_STATUS_DB_DROPS, offCH_STATUS, offCH_RESET]
    omega

theorem underReset_tryTlb (n : Nat) (h : UnderReset c d) : UnderReset c (tryTlb d n) :=
  underReset_ite h (underReset_setF _ (Nat.le_add_right_of_le (by decide)) (underReset_modMs _ h))

theorem underReset_hobbleWalk (n : Nat) (h : UnderReset c d) : UnderReset c (hobbleWalk d n) := by
  unfold hobbleWalk
  dsimp only
  split
  · exact underReset_rangeLines _ _ _ h
  · exact underReset_rangeLines _ _ _ h
  · exact underReset_rangeLines _ _ _ h
  · exact h

theorem underReset_tryHobble (n : Nat) (h : UnderReset c d) : UnderReset c (tryHobble d n) := by
  unfold tryHobble
  extract_lets s1 s2
  have h1 : UnderReset c s1 := underReset_tryTlb _ h
  have h2 : UnderReset c s2 := underReset_hobbleWalk _ h1
  exact underReset_ite h1 (underReset_ite h1 (underReset_ite (underReset_foldl (fun _ _ hd => underReset_modCore _ _ hd) h1) (underReset_ite h1
    (underReset_ite h2 (underReset_setF _ (Nat.le_add_right_of_le (by decide)) h2)))))

theorem getCmd_mem {k : Nat} {x : Cmd} (hx : getCmd d k = some x) : x ∈ d.cmds := List.mem_of_find?_eq_some hx

theorem underReset_retire (key : Nat) (quiet : Bool) (h : UnderReset c d) : UnderReset c (retire d key quiet) := by
  unfold retire
  split
  · exact h
  next x hx =>
    have hchan : x.chan ≠ c := h.idle x (getCmd_mem hx)
    extract_lets st tail y s1 pw s2 s3 s4 s5 s6 s7 obs s8 s9 sq s10
    have h2 : UnderReset c s2 := underReset_ite h (underReset_creditJob _ _ (underReset_pw _ (underReset_bumpFree h)))
    clear_value s2
    have h3 : UnderReset c s3 := underReset_filterCmds _ h2
    have h5 : UnderReset c s5 := underReset_ite h3 (underReset_trace _ _ (underReset_writeRecord _ _ h3))
    have h7 : UnderReset c s7 := underReset_countHub _ _ _ (underReset_syncInflight _ h5)
    clear_value s7
    have h9 : UnderReset c s9 := underReset_modCh _ _ (underReset_obs _ h7)
    clear_value s9
    have h10 : UnderReset c s10 := underReset_ite (underReset_modCh _ _ h9) h9
    exact underReset_tryChanReset hchan (underReset_tryHobble _ h10)

theorem underReset_fixStatus (key status : Nat) (r : Option ErrRec) (h : UnderReset c d) : UnderReset c (fixStatus d key status r) := by
  unfold fixStatus
  split
  · exact h
  · refine underReset_ite h ?_
    extract_lets s1
    have h1 : UnderReset c s1 := underReset_modCmd _ (fun _ => rfl) h
    split
    · exact h1
    · exact underReset_errRecord _ h1

theorem underReset_orphanReqs (core : Nat) (p : MemReq → Bool) (h : UnderReset c d) : UnderReset c (orphanReqs d core p) := by
  unfold orphanReqs
  extract_lets mine lives stcs s1
  exact underReset_modCore _ _ (underReset_modMs _ h)

theorem underReset_sealSb (core : Nat) (p : SbEntry → Bool) (h : UnderReset c d) : UnderReset c (sealSb d core p) := underReset_modCore _ _ h

theorem underReset_leaveCore (key core : Nat) (h : UnderReset c d) : UnderReset c (leaveCore key d core) := by
  unfold leaveCore
  extract_lets s1
  have h1 : UnderReset c s1 := underReset_modMs _ (underReset_orphanReqs _ _ h)
  exact underReset_modCore _ _ (underReset_sealSb _ _ h1)

theorem underReset_stopWork (key : Nat) (h : UnderReset c d) : UnderReset c (stopWork d key) := by
  unfold stopWork
  split
  · exact h
  · extract_lets s1 s2 s3
    have h1 : UnderReset c s1 := underReset_foldl (fun _ _ hd => underReset_modCore _ _ (underReset_cutDrain _ _ hd)) h
    clear_value s1
    have h2 : UnderReset c s2 := underReset_saved _ h1
    clear_value s2
    have h3 : UnderReset c s3 := underReset_foldl (fun _ _ hd => underReset_leaveCore _ _ hd) h2
    exact underReset_foldl (fun _ _ hd => underReset_modCl _ _ (underReset_cutRun _ _ hd)) h3

theorem underReset_finishCmd (key : Nat) (h : UnderReset c d) : UnderReset c (finishCmd d key) := by
  unfold finishCmd
  split
  · exact h
  · extract_lets s1
    have h1 : UnderReset c s1 := underReset_ite (underReset_fixStatus _ _ _ h) h
    exact underReset_ite (underReset_modCmd _ (fun _ => rfl) h) (underReset_retire _ _ h1)

theorem underReset_endCmd (key status : Nat) (r : Option ErrRec) (h : UnderReset c d) : UnderReset c (endCmd d key status r) := by
  unfold endCmd
  split
  · exact h
  · exact underReset_ite h (underReset_finishCmd _ (underReset_stopWork _ (underReset_fixStatus _ _ _ h)))

theorem underReset_failCmd (key status : Nat) (h : UnderReset c d) : UnderReset c (failCmd d key status) := by
  unfold failCmd
  split
  · exact h
  · exact underReset_endCmd _ _ _ h

theorem underReset_requeueCmd (key : Nat) (h : UnderReset c d) : UnderReset c (requeueCmd d key) := by
  unfold requeueCmd
  split
  · exact h
  · extract_lets s1 s2
    have h1 : UnderReset c s1 := underReset_modCmd _ (fun _ => rfl) h
    have h2 : UnderReset c s2 := underReset_finishCmd _ (underReset_stopWork _ h1)
    exact underReset_ite h (underReset_modCh _ _ h2)

theorem underReset_abortOrRequeue (key : Nat) (h : UnderReset c d) : UnderReset c (abortOrRequeue d key) := by
  unfold abortOrRequeue
  split
  · exact h
  · exact underReset_ite (underReset_requeueCmd _ h) (underReset_failCmd _ _ h)

/-! ## Regions -/

theorem underReset_cores (t : Tab Core) (h : UnderReset c d) : UnderReset c { d with cores := t } := underReset_of_kept h rfl rfl

theorem underReset_groomRegion (r : Nat) (h : UnderReset c d) : UnderReset c (groomRegion d r) := by
  unfold groomRegion
  extract_lets s1 old s2 s3 obs s4
  have h2 : UnderReset c s2 := underReset_foldl (fun _ _ hd => underReset_modCl _ _ hd) (underReset_cores _ h)
  clear_value s2
  have h3 : UnderReset c s3 := underReset_modMs _ (underReset_modMs _ (underReset_modMs _ h2))
  clear_value s3
  exact underReset_modRgn _ _ (underReset_obs _ h3)

theorem underReset_dropCtx (slice r ctx : Nat) (h : UnderReset c d) : UnderReset c (dropCtx d slice r ctx) := by
  unfold dropCtx
  extract_lets s1
  have h1 : UnderReset c s1 := underReset_saved _ h
  exact underReset_ite (underReset_setF _ (Nat.le_add_right_of_le (by decide)) h1) h1

theorem underReset_saveCtx (slice r ctx : Nat) (h : UnderReset c d) : UnderReset c (saveCtx d slice r ctx) := by
  unfold saveCtx
  extract_lets s1 s2 x s3 s4 s5
  have h1 : UnderReset c s1 := underReset_modMs _ (underReset_foldl (fun _ _ hd => underReset_modCore _ _ hd) h)
  have h2 : UnderReset c s2 := underReset_dropCtx _ _ _ h1
  have h3 : UnderReset c s3 := underReset_saved _ h2
  have h4 : UnderReset c s4 := underReset_ite (underReset_setF _ (Nat.le_add_right_of_le (by decide)) h3) h3
  have h5 : UnderReset c s5 := underReset_foldl (fun _ _ hd => underReset_modCmd _ (fun _ => rfl) hd) h4
  exact underReset_foldl (fun _ _ hd => underReset_ite (underReset_modCore _ _ hd) hd) h5

theorem underReset_resumeCmds (keys : List Nat) (h : UnderReset c d) : UnderReset c (resumeCmds d keys) :=
  underReset_foldl (fun _ _ hd => underReset_modCmd _ (fun _ => rfl) hd) h

theorem underReset_wakeCoop (keys : List Nat) (h : UnderReset c d) : UnderReset c (wakeCoop d keys) := by
  refine underReset_foldl (fun e k he => ?_) h
  split
  · exact underReset_ite (underReset_foldl (fun _ _ hd => underReset_modCore _ _ hd) he) he
  · exact he

theorem underReset_setCore (k : Nat) (x : Core) (h : UnderReset c d) : UnderReset c (setCore d k x) := underReset_of_kept h rfl rfl

theorem underReset_restoreCtx (slice r ctx : Nat) (h : UnderReset c d) : UnderReset c (restoreCtx d slice r ctx) := by
  unfold restoreCtx
  split
  · exact underReset_groomRegion _ h
  · extract_lets keys s1 s2 run s3 s4 s5 s6 s7 obs s8
    have h1 : UnderReset c s1 := underReset_dropCtx _ _ _ h
    clear_value s1
    have h2 : UnderReset c s2 := underReset_foldl (fun _ _ hd => underReset_abortOrRequeue _ hd) (underReset_groomRegion _ h1)
    have h4 : UnderReset c s4 := underReset_modRgn _ _ (underReset_groomRegion _ h1)
    clear_value s4
    have h5 : UnderReset c s5 := underReset_foldl (fun _ _ hd => underReset_setCore _ _ hd) h4
    clear_value s5
    have h6 : UnderReset c s6 := underReset_foldl (fun _ _ hd => underReset_modCl _ _ hd) h5
    clear_value s6
    have h7 : UnderReset c s7 := underReset_modMs _ h6
    clear_value s7
    exact underReset_ite (underReset_errRecord _ h2) (underReset_wakeCoop _ (underReset_resumeCmds _ (underReset_obs _ h7)))

theorem underReset_askSwitch (r : Nat) (q : SwitchReq) (h : UnderReset c d) : UnderReset c (askSwitch d r q) :=
  underReset_ite h (underReset_foldl (fun _ _ hd => underReset_modCmd _ (fun _ => rfl) hd) (underReset_modRgn _ _ h))

theorem underReset_trySwitch (r : Nat) (h : UnderReset c d) : UnderReset c (trySwitch d r) := by
  unfold trySwitch
  split
  · exact h
  · refine underReset_ite h (underReset_ite (underReset_foldl (fun _ _ hd => underReset_modCore _ _ hd) h) ?_)
    extract_lets s1 s2 s3
    have h1 : UnderReset c s1 := underReset_foldl (fun _ _ hd => underReset_requeueCmd _ hd) h
    have h3 : UnderReset c s3 := underReset_tryHobble _ (underReset_modRgn _ _ (underReset_saveCtx _ _ _ h1))
    clear_value s3
    split
    · exact h3
    · exact underReset_modRgn _ _ (underReset_setF _ (Nat.le_add_right_of_le (by decide)) (underReset_restoreCtx _ _ _ h3))

theorem underReset_tryRestore1 (r : Nat) (h : UnderReset c d) : UnderReset c (tryRestore1 d r) :=
  underReset_ite (underReset_modRgn _ _ (underReset_restoreCtx _ _ _ h)) h

theorem underReset_idleSwitch (r : Nat) (h : UnderReset c d) : UnderReset c (idleSwitch d r) := by
  unfold idleSwitch
  split
  · exact h
  · refine underReset_ite h ?_
    split
    · exact underReset_trySwitch _ (underReset_askSwitch _ _ h)
    · exact h

theorem underReset_pokeRegion (r : Nat) (h : UnderReset c d) : UnderReset c (pokeRegion d r) :=
  underReset_idleSwitch _ (underReset_tryRestore1 _ (underReset_trySwitch _ h))

/-! ## The end of the channel's cyclic schedule -/

theorem underReset_reserveShort (k : Nat) (h : UnderReset c d) : UnderReset c (reserveShort d k) := by
  unfold reserveShort
  extract_lets mine pw s1
  exact underReset_foldl (fun _ _ hd => underReset_errRecord _ hd) (underReset_pw _ h)

theorem underReset_pins (p : Pins) (h : UnderReset c d) : UnderReset c { d with pins := p } := underReset_of_kept h rfl rfl

theorem underReset_stopCyclic (k : Nat) (h : UnderReset c d) : UnderReset c (stopCyclic d k) := by
  unfold stopCyclic
  extract_lets s1 pins s2 s3
  have h1 : UnderReset c s1 := underReset_reserveShort _ h
  clear_value s1
  have h2 : UnderReset c s2 := underReset_ite (underReset_setF _ (by decide) (underReset_pins _ h1)) h1
  have h3 : UnderReset c s3 := underReset_modCh _ _ (underReset_setF _ (Nat.le_add_right_of_le (by decide)) h2)
  exact underReset_foldl (fun _ _ hd => underReset_ite (underReset_pokeRegion _ (underReset_modRgn _ _ hd)) hd) h3

end Sys2Proof.Machine

/-! PROOF. What the set-up and ring rows do to the registers and queues they act on (O60). -/

namespace Sys2Proof.Machine

open Sys2Proof

/-! ## Writes of register fields (R23, R26) -/

/-- The register tables hold 64-bit registers. -/
theorem registerBlocks_fields_msb : ∀ b ∈ registerBlocks, ∀ r ∈ b, ∀ f ∈ r.fields, f.msb < 64 := by
  decide

/-- An RW field takes a listed encoding. -/
theorem fld_writeField_rw (locked : Bool) (w val : Word) {f : FieldSpec} (ha : f.acc = .rw) (hm : f.msb < 64) (hv : legalEnc f (fld val f.msb f.lsb) = true) :
    fld (writeField locked w val f) f.msb f.lsb = fld val f.msb f.lsb := by
  simp only [writeField, ha, hv, if_true]
  rw [fld_putFld_same _ _ _ _ hm]
  exact Nat.mod_eq_of_lt (Nat.mod_lt _ (Nat.two_pow_pos _))

/-- R23: a write of a register gives an RW field a listed encoding of it: what the register's later fields take lies apart. -/
theorem fld_writeReg_rw (s : Dev) {off : Nat} {r : RegSpec} {f : FieldSpec} {val : Word} (hr : regSpecAt off = some r) (hf : f ∈ r.fields) (ha : f.acc = .rw)
    (hv : legalEnc f (fld val f.msb f.lsb) = true) : fld (reg (writeReg s off val) off) f.msb f.lsb = fld val f.msb f.lsb := by
  have hmem : r ∈ blockAt off := List.mem_of_find?_eq_some hr
  have hm : f.msb < 64 := registerBlocks_fields_msb _ (blockAt_mem_registerBlocks off) r hmem f hf
  have hpair := registerBlocks_fields_apart _ (blockAt_mem_registerBlocks off) r hmem
  simp only [writeReg, hr, reg_setReg_same]
  obtain ⟨l1, l2, hl⟩ := List.append_of_mem hf
  rw [hl] at hpair ⊢
  have hapart : ∀ g ∈ l2, f.Apart g := (List.pairwise_cons.mp (List.pairwise_append.mp hpair).2.1).1
  rw [List.foldl_append, List.foldl_cons, fld_foldl_writeField _ _ f l2 (fun g hg w => fld_writeField_apart _ _ _ (hapart g hg)), fld_writeField_rw _ _ _ ha hm hv]

/-! ## Set-up accesses and the lease (R28 to R30, R458, R698) -/

/-- A coherent row whose device keeps the module's own mark clear completes, at whatever the mark stands. -/
theorem exec_of_completesM {c : Instr} {s : State} {d : Dev} (h : CompletesM c (marked s false) d) (hd : d.ms.blocked = false) : exec c s = .next { s with dev := d } :=
  (h rfl s.dev.ms.blocked).1 hd

/-- Another port's record leaves a port without a held half without one. -/
theorem setupError_reports (s : Dev) (port off : Nat) : ReportsOnly s (setupError s port off) := reportsOnly_errRecord _ (reportsOnly_refl s)

/-- What ID_SEM shows after a CLAIM (R458). -/
theorem claimed_fields (s : Dev) {owner ms : Nat} (ho : owner < 4) (hms : ms < 2 ^ 16) :
    getF (setF (setF s fID_SEM_OWNER owner) fID_SEM_REMAIN_MS ms) fID_SEM_OWNER = owner ∧ getF (setF (setF s fID_SEM_OWNER owner) fID_SEM_REMAIN_MS ms) fID_SEM_REMAIN_MS = ms := by
  refine ⟨?_, ?_⟩
  · rw [getF_setF_apart _ _ _ _ (.inl (by decide)), getF_setF_same _ _ _ (by decide)]
    exact Nat.mod_eq_of_lt ho
  · rw [getF_setF_same _ _ _ (by decide)]
    exact Nat.mod_eq_of_lt hms

/-- R698: a resume that another module still holds back. -/
theorem doSetupWrite_resume_held {s : Dev} {port : Nat} (img : Option Nat) (ho : bar0Open s port = true) (hh : (getPort s port).held = none) (hreg : regAt s offOBS_WHOA_CTL = true)
    (hl : holdsLease s port = true) (hw : whoaStopped s = true) (hst : stage s = 2) (htdi : tdiHolds s offOBS_WHOA_CTL = false) (hin : s.obs.stopIn = true) :
    doSetupWrite img port offOBS_WHOA_CTL false 2 s = setF { s with obs := { s.obs with stopOut := false, resuming := true } } fSU_PINS_STOP 1 := by
  rw [doSetupWrite_resume img ho hh hreg hl hw hst htdi, resumeEff, hw, hin]
  simp only [setF_obs, hin, Bool.not_true, Bool.toNat_true, Bool.false_eq_true, if_false, if_true]

theorem whoaStopped_setStop (s : Dev) (v : Nat) : whoaStopped (setF s fSU_PINS_STOP v) = whoaStopped s := by
  rw [whoaStopped, getF_setF_other _ _ _ _ (by decide), ← whoaStopped]

theorem getF_setStop (s : Dev) (b : Bool) : getF (setF s fSU_PINS_STOP b.toNat) fSU_PINS_STOP = b.toNat := by
  rw [getF_setF_same _ _ _ (by decide)]
  cases b <;> rfl

/-! ## Rings -/

theorem getCh_setF (s : Dev) (f : Fld) (v c : Nat) : getCh (setF s f v) c = getCh s c := rfl

theorem getCh_emit (s : Dev) (o : Out) (c : Nat) : getCh (emit s o) c = getCh s c := by
  simp only [getCh, emit_chans]

/-- A ring in ERROR, with its cause (R476). -/
theorem sqError_fields (s : Dev) (c n : Nat) {cause : Nat} (hcause : cause < 2 ^ 8) :
    getF (setF (setF s (fCH_SQ_STATE_STATE c n) 2) (fCH_SQ_STATE_CAUSE c n) cause) (fCH_SQ_STATE_STATE c n) = 2
      ∧ getF (setF (setF s (fCH_SQ_STATE_STATE c n) 2) (fCH_SQ_STATE_CAUSE c n) cause) (fCH_SQ_STATE_CAUSE c n) = cause := by
  refine ⟨?_, ?_⟩
  · rw [getF_setF_apart _ _ _ _ (.inr (show 55 < 62 by decide)), getF_setF_same _ _ _ (show 63 < 64 by decide)]
    rfl
  · rw [getF_setF_same _ _ _ (show 55 < 64 by decide)]
    exact Nat.mod_eq_of_lt hcause

theorem cqError_fields (s : Dev) (c n : Nat) {cause : Nat} (hcause : cause < 2 ^ 8) :
    getF (setF (setF s (fCH_CQ_STATE_STATE c n) 2) (fCH_CQ_STATE_CAUSE c n) cause) (fCH_CQ_STATE_STATE c n) = 2
      ∧ getF (setF (setF s (fCH_CQ_STATE_STATE c n) 2) (fCH_CQ_STATE_CAUSE c n) cause) (fCH_CQ_STATE_CAUSE c n) = cause := by
  refine ⟨?_, ?_⟩
  · rw [getF_setF_apart _ _ _ _ (.inr (show 55 < 62 by decide)), getF_setF_same _ _ _ (show 63 < 64 by decide)]
    rfl
  · rw [getF_setF_same _ _ _ (show 55 < 64 by decide)]
    exact Nat.mod_eq_of_lt hcause

/-- The descriptors of a read, numbered, are the descriptors. -/
theorem map_desc_zip_range (descs : List Block64) (ring : Nat) (index : Nat → Nat) :
    ((descs.zip (List.range descs.length)).map (fun e => { ring := ring, index := index e.2, desc := e.1, requeued := false : Fetched })).map (fun f => f.desc) = descs := by
  rw [List.map_map]
  exact List.map_fst_zip (by simp)

/-- R465, R471, R474: what the arrival of a ring's oldest read leaves. -/
theorem doDescriptorArrival_arrives {s : Dev} {c n : Nat} {descs : List Block64} {r : FetchRead} (hr : (getCh s c).reads.find? (fun x => x.ring == n) = some r) (hpri : r.pri = false)
    (hlen : descs.length = r.count) (hw : whoaStopped s = false) (hst : getF s (fCH_SQ_STATE_STATE c n) = 1) (hsize : getF s (fCH_SQ_CFG_LOG2SZ c n) ≤ 16) :
    ∃ fs, (getCh (doDescriptorArrival c n descs s) c).fetched = (getCh s c).fetched ++ fs ∧ fs.map (fun f => f.desc) = descs
      ∧ (getCh (doDescriptorArrival c n descs s) c).reads = (getCh s c).reads.erase r
      ∧ getF (doDescriptorArrival c n descs s) (fCH_SQ_STATE_HEAD c n) = (r.index + r.count) % 2 ^ getF s (fCH_SQ_CFG_LOG2SZ c n) := by
  have hch : getCh (dropRead s c n) c = { getCh s c with reads := (getCh s c).reads.erase r } := by
    rw [dropRead, getCh_modCh_same, hr]
  refine ⟨(descs.zip (List.range descs.length)).map fun e => { ring := n, index := (r.index + e.2) % 2 ^ getF s (fCH_SQ_CFG_LOG2SZ c n), desc := e.1, requeued := false }, ?_,
    map_desc_zip_range descs n (fun i => (r.index + i) % 2 ^ getF s (fCH_SQ_CFG_LOG2SZ c n)), ?_, ?_⟩ <;>
    simp only [doDescriptorArrival, hr, hpri, ← hlen, hw, getF_dropRead, hst, Bool.false_eq_true, ne_eq, not_true_eq_false, or_self, if_false, getCh_setF, getCh_modCh_same, hch]
  rw [getF_setF_same _ _ _ (show 15 < 64 by decide)]
  exact Nat.mod_eq_of_lt ((Nat.mod_lt _ (Nat.two_pow_pos _)).trans_le (Nat.pow_le_pow_right (by decide) hsize))

/-! ## Dispatch (R472) -/

/-- What taking a descriptor leaves of its channel. -/
def taken (s : Dev) (c : Nat) (f : Fetched) : Channel :=
  { getCh s c with fetched := (getCh s c).fetched.erase f, lastRing := f.ring, lastDone := if s.cmds.any (fun x => x.chan == c) then (getCh s c).lastDone else s.now }

theorem takeFetched_fields (s : Dev) (c tag : Nat) (f : Fetched) : (syncInflight (takeFetched s c tag f) c).cmds = s.cmds ++ [newCmd s c tag f]
    ∧ (syncInflight (takeFetched s c tag f) c).nextKey = s.nextKey + 1 ∧ getCh (syncInflight (takeFetched s c tag f) c) c = taken s c f := by
  refine ⟨?_, ?_, ?_⟩
  · simp only [syncInflight, takeFetched, setF_cmds, modCh_cmds]
  · simp only [syncInflight, takeFetched, setF_nextKey, modCh_nextKey]
  · rw [syncInflight, getCh_setF, takeFetched, getCh_modCh_same, taken]
    rfl

/-- A ring that is not aborting lets any command but a FENCE run (R473). -/
theorem errStop_runs {d : Dev} {c : Nat} {f : Fetched} (habort : (getSqr d c f.ring).aborting = false) (hfence : dOpcode f.desc ≠ 0x0A) : errStop d c f = (d, false) := by
  simp only [errStop, habort, beq_eq_false_iff_ne.mpr hfence, Bool.false_eq_true, if_false]

/-- The in-flight count, the counters and the trace record of a dispatch. -/
def dispatchTraced (s : Dev) (c tag : Nat) (f : Fetched) : Dev :=
  let s := countHub (syncInflight (takeFetched s c tag f) c) (chanHub c) 0xC6 1
  let s := { s with obs := { s.obs with chCount := tabMod (fun _ => 0) s.obs.chCount (2 * c) (fun n => n + 1) } }
  trace s (chanHub c) { kind := 2, job := dJob f.desc, layer := dLayer f.desc, op := dOp f.desc, slice := tagByte tag, chan := c, status := 0, info := f.index, payload := fld f.desc 31 0 }

/-- What a dispatch counts and traces leaves its command and its channel as it took them. -/
theorem reportsOnly_dispatchTraced (s : Dev) (c tag : Nat) (f : Fetched) : ReportsOnly (syncInflight (takeFetched s c tag f) c) (dispatchTraced s c tag f) :=
  reportsOnly_traceAt _ _ _ (reportsOnly_obs _ (reportsOnly_countHub _ _ _ (reportsOnly_refl _)))

theorem dispatchNow_of_errStop {s d : Dev} {c tag : Nat} {f : Fetched} (hrun : errStop (dispatchTraced s c tag f) c f = (d, false))
    (hgood : ¬ (descBad f.desc = true ∨ 0x10 ≤ tag ∧ halterOpcode f.desc = false)) : dispatchNow s c tag f = d := by
  rw [show dispatchNow = _ from by delta dispatchNow; rfl]
  unfold dispatchTraced at hrun
  -- the kernel would evaluate these functions to compare the two sides: the steps below are checked for any functions in their place
  generalize errStop = es at hrun ⊢
  generalize trace = tr at hrun ⊢
  generalize countHub = ct at hrun ⊢
  revert es tr ct
  refine id ?_
  intro es tr ct hrun
  extract_lets key s1 s2 obs s3 s4
  have hes : es s4 c f = (d, false) := hrun
  clear_value s4
  simp only [hes, Bool.false_eq_true, if_false, if_neg hgood]

theorem dispatchNow_runs {s : Dev} {c tag : Nat} {f : Fetched} (habort : (getSqr s c f.ring).aborting = false) (hfence : dOpcode f.desc ≠ 0x0A) (hbad : descBad f.desc = false)
    (htag : tag < 16) : dispatchNow s c tag f = dispatchTraced s c tag f := by
  obtain ⟨-, -, htaken⟩ := takeFetched_fields s c tag f
  have h := reportsOnly_dispatchTraced s c tag f
  have hsqr : getSqr (dispatchTraced s c tag f) c f.ring = getSqr s c f.ring := by
    rw [getSqr, getCh, h.chans, ← getCh, htaken]
    rfl
  refine dispatchNow_of_errStop (errStop_runs (by rw [hsqr]; exact habort) hfence) ?_
  rintro (hb | ⟨hge, -⟩)
  · exact Bool.noConfusion (hbad.symm.trans hb)
  · exact absurd hge (Nat.not_le.mpr htag)

theorem dispatchNow_takes {s : Dev} {c tag : Nat} {f : Fetched} (habort : (getSqr s c f.ring).aborting = false) (hfence : dOpcode f.desc ≠ 0x0A) (hbad : descBad f.desc = false)
    (htag : tag < 16) :
    (dispatchNow s c tag f).cmds = s.cmds ++ [newCmd s c tag f] ∧ (dispatchNow s c tag f).nextKey = s.nextKey + 1
      ∧ (getCh (dispatchNow s c tag f) c).fetched = (getCh s c).fetched.erase f ∧ (getCh (dispatchNow s c tag f) c).lastRing = f.ring := by
  obtain ⟨hcmds, hkey, htaken⟩ := takeFetched_fields s c tag f
  have h := reportsOnly_dispatchTraced s c tag f
  have hch : getCh (dispatchTraced s c tag f) c = taken s c f := by rw [getCh, h.chans, ← getCh, htaken]
  rw [dispatchNow_runs habort hfence hbad htag, hch]
  exact ⟨h.cmds.trans hcmds, h.nextKey.trans hkey, rfl, rfl⟩

/-! ## Messages and the reset of a channel (R495, R504) -/

/-- An unmasked vector of an enabled function sends its message. -/
theorem sendMsix_unmasked {s : Dev} {p v : Nat} (hup : (getPort s p).up = true) (hen : (getPort s p).msixEn.getLsbD 0 = true)
    (hoff : (getPort s p).msixOff.contains (vecKey none v) = false) : sendMsix s p none v = emit s (.msix p none v) := by
  simp only [sendMsix, hup, hen, hoff, Option.isSome_none, Bool.not_true, Bool.false_and, Bool.or_self, Bool.false_eq_true, if_false]

/-- The reset of a channel ends once none of its commands is left. -/
theorem tryChanReset_ends {s : Dev} {c : Nat} (h : UnderReset c s) : getF (tryChanReset s c) (fCH_RESET_BUSY c) = 0 ∧ (getCh (tryChanReset s c) c).fetched = []
    ∧ (getCh (tryChanReset s c) c).reads = [] := by
  have hgo : ¬ (getF s (fCH_RESET_BUSY c) = 0 ∨ s.cmds.any (fun x => x.chan == c) = true) := by
    rintro (hbusy | hany)
    · exact h.busy hbusy
    · obtain ⟨x, hx, hxc⟩ := List.any_eq_true.mp hany
      exact h.idle x hx (beq_iff_eq.mp hxc)
  rw [tryChanReset, if_neg hgo]
  refine ⟨?_, ?_, ?_⟩
  · rw [getF_setF_same _ _ _ (show 63 < 64 by decide)]
    rfl
  · rw [getCh_setF, getCh_setF, getCh_modCh_same]
  · rw [getCh_setF, getCh_setF, getCh_modCh_same]

/-- R504: the reset of an idle channel leaves it empty, and the regions go on. -/
theorem chResetEff_idle {s : Dev} {c : Nat} (hc : c < 16) (hidle : ∀ x ∈ s.cmds, x.chan ≠ c) :
    ∃ d, chResetEff c 1 s = (List.range 32).foldl pokeRegion d ∧ getF d (fCH_RESET_BUSY c) = 0 ∧ (getCh d c).fetched = [] ∧ (getCh d c).reads = [] := by
  have hset : getF (setF s (fCH_RESET_BUSY c) 1) (fCH_RESET_BUSY c) = 1 := by
    rw [getF_setF_same _ _ _ (show 63 < 64 by decide)]
    rfl
  have hbusy : UnderReset c (setF s (fCH_RESET_BUSY c) 1) := ⟨hc, by rw [hset]; exact Nat.one_ne_zero, by simpa only [setF_cmds] using hidle⟩
  have hstop := underReset_setReg (off := offSLC_CYC_STAT c) 0 (by unfold offSLC_CYC_STAT; omega) (underReset_stopCyclic c hbusy)
  have hnone : (setReg (stopCyclic (setF s (fCH_RESET_BUSY c) 1) c) (offSLC_CYC_STAT c) 0).cmds.filter (fun x => x.chan == c) = [] :=
    List.filter_eq_nil_iff.mpr fun x hx => by simp [hstop.idle x hx]
  refine ⟨_, ?_, tryChanReset_ends hstop⟩
  have hgo : (1 : Word).getLsbD 0 = true := by decide
  rw [chResetEff, if_neg (by rw [hgo]; exact Bool.noConfusion)]
  extract_lets s1 s2
  have hs2 : s2 = s1 := by
    simp only [s2, s1, hnone, List.map_nil, List.foldl_nil]
  rw [hs2]

end Sys2Proof.Machine

/-! PROOF. Each set-up and ring row, and O60 from them. -/

namespace Sys2Proof.Machine

open Sys2Proof

/-! ## The rows, one by one -/

theorem holdsLease_of {s : Dev} {port : Nat} (ho : getF s fID_SEM_OWNER = port + 1) (hn : s.now < s.leaseEnd) : holdsLease s port = true := by
  rw [holdsLease, ho, beq_self_eq_true, Bool.true_and, decide_eq_true hn]

theorem getF_endLease (s : Dev) : getF (endLease s) fID_SEM_OWNER = 0 := (claimed_fields s (owner := 0) (ms := 0) (by decide) (by decide)).1

/-- R466: a doorbell of an ACTIVE submission ring moves its TAIL. -/
theorem doDoorbell_moves_tail {s : Dev} {port page chan ring : Nat} {vf : Option (Fin 16)} {data : Word} (hr : ring < 64) (hp : pageAnswers s port vf page = true)
    (hpage : page = 256 * chan + ring ∨ page = 256 * chan + 64) (hres : fld data 63 32 = 0) (hring : fld data 31 16 = ring) (hst : getF s (fCH_SQ_STATE_STATE chan ring) = 1)
    (hidx : fld data 15 0 < 2 ^ getF s (fCH_SQ_CFG_LOG2SZ chan ring)) : doDoorbell port vf page 0 8 data s = setF s (fCH_SQ_STATE_TAIL chan ring) (fld data 15 0) := by
  have hchan : page / 256 = chan := by omega
  rw [doDoorbell_rings hp (by omega) hres (by omega) (by omega), hring, hchan]
  simp only [ringDoorbell, hr, hst, Nat.not_le.mpr hidx, ne_eq, not_true_eq_false, if_false, if_true]

/-- R495: the message of an unmasked vector of the physical function. -/
theorem cqMessage_unmasked {s : Dev} {c q p : Nat} (hvf : getF s (fCH_CQ_CFG_VFV c q) = 0) (hp : p = portOf (getF s (fCH_CQ_CFG_PORT c q))) (hup : (getPort s p).up = true)
    (hen : (getPort s p).msixEn.getLsbD 0 = true) (hoff : (getPort s p).msixOff.contains (vecKey none (getF s (fCH_CQ_CFG_VECTOR c q))) = false) :
    cqMessage s c q = emit (setCqr s c q { count := 0, first := 0 }) (.msix p none (getF s (fCH_CQ_CFG_VECTOR c q))) := by
  have hkept : ∀ f, getF (setCqr s c q { count := 0, first := 0 }) f = getF s f := fun _ => rfl
  have hport : getPort (setCqr s c q { count := 0, first := 0 }) p = getPort s p := rfl
  simp only [cqMessage, hkept, hvf, ← hp, Nat.zero_ne_one, if_false]
  exact sendMsix_unmasked (by rw [hport]; exact hup) (by rw [hport]; exact hen) (by rw [hport]; exact hoff)

/-- R495: the moderation time of an unmasked vector sends the message. -/
theorem doModUsExpiry_sends {s : Dev} {c q p : Nat} (hcnt : (getCqr s c q).count ≠ 0) (hmod : getF s (fCH_CQ_CFG_MOD_US c q) ≠ 0) (hirq : getF s (fCH_CQ_CFG_IRQ_EN c q) = 1)
    (hst : getF s (fCH_CQ_STATE_STATE c q) = 1) (hw : whoaStopped s = false) (hvf : getF s (fCH_CQ_CFG_VFV c q) = 0) (hp : p = portOf (getF s (fCH_CQ_CFG_PORT c q)))
    (hup : (getPort s p).up = true) (hen : (getPort s p).msixEn.getLsbD 0 = true) (hoff : (getPort s p).msixOff.contains (vecKey none (getF s (fCH_CQ_CFG_VECTOR c q))) = false) :
    doModUsExpiry c q s = emit (setCqr { s with now := max s.now ((getCqr s c q).first + 1000 * getF s (fCH_CQ_CFG_MOD_US c q)) } c q { count := 0, first := 0 })
      (.msix p none (getF s (fCH_CQ_CFG_VECTOR c q))) := by
  simp only [doModUsExpiry, hcnt, hmod, hirq, hst, hw, Nat.one_ne_zero, Bool.false_eq_true, ne_eq, not_true_eq_false, or_self, if_false]
  exact cqMessage_unmasked hvf hp hup hen hoff

/-- R698: the release of STOP_IO of a module that does not resume frees its own stop alone. -/
theorem doStopIoRelease_frees {s : Dev} (img : Option Nat) (hin : s.obs.stopIn = true) (hres : s.obs.resuming = false) :
    doStopIoRelease img s = setF { s with obs := { s.obs with stopIn := false } } fSU_PINS_STOP s.obs.stopOut.toNat := by
  simp only [doStopIoRelease, hin, setF_obs, hres, Bool.not_true, Bool.false_and, Bool.false_eq_true, if_false]

/-- The record of a submission ring that ends in ERROR (R476). -/
theorem ringError_sq (s : Dev) (c n cause : Nat) : ∃ r : ErrRec, ringError s c n cause false = errRecord (setF (setF s (fCH_SQ_STATE_STATE c n) 2) (fCH_SQ_STATE_CAUSE c n) cause) r
    ∧ r.sev = 2 ∧ r.cause = 0x14 ∧ r.index = c ∧ r.ring = c + 16 * n := ⟨_, rfl, rfl, rfl, rfl, rfl⟩

theorem ringError_cq (s : Dev) (c n cause : Nat) : ∃ r : ErrRec, ringError s c n cause true = errRecord (setF (setF s (fCH_CQ_STATE_STATE c n) 2) (fCH_CQ_STATE_CAUSE c n) cause) r
    ∧ r.sev = 2 ∧ r.cause = 0x14 ∧ r.index = c := ⟨_, rfl, rfl, rfl, rfl⟩

/-- R494: the record of a lost link. -/
theorem linkDown_up {s : Dev} {p : Nat} (hup : portUp s p = true) :
    ∃ d r, linkDown s p = errRecord d r ∧ r.sev = 2 ∧ r.cause = 0x41 ∧ r.die = 8 + p ∧ r.unit = 0x0A := by
  refine ⟨_, _, if_neg ?_, rfl, rfl, rfl, rfl⟩
  simp [hup]

theorem linkDown_down {s : Dev} {p : Nat} (hdown : portUp s p = false) : linkDown s p = s := if_pos (by simp [hdown])

theorem any_filter_bne (l : List FetchRead) (n : Nat) : (l.filter (fun r => r.ring != n)).any (fun r => r.ring == n) = false := by
  simp

theorem getCqr_setCqr (s : Dev) (c q : Nat) (r : CqRun) : getCqr (setCqr s c q r) c q = r := by
  rw [getCqr, setCqr, getCh_modCh_same, tabGet_tabSet_same]

/-- Settles O60: each row by what its command does, and the fields that this leaves. -/
theorem setupAndRingRowsAct : Obligations.SetupAndRingRowsAct := by
  unfold Obligations.SetupAndRingRowsAct
  obtain ⟨-, -, -, hread, hbad, hexpire, hclaim, -, hrelease, hlease, -, -⟩ := setupCompletes
  refine ⟨fun s port off r f val ht h8 hb h1 h2 hr hf ha hv => ?_, fun s port off len ho hh => ⟨fun hlen ha hreg => ?_, fun hodd => ?_⟩, fun s port h hh => ?_,
    fun s port lease tie ho hh h0 h60 hfree => ?_, fun s port ho hh hl => ?_, fun s hown => ?_, fun s port ho hh hreg hl hw hst htdi hin => ?_, fun s hin hres => ?_,
    fun s port vf chan ring page data hp hpage hres hr hst hidx => ?_, fun s chan ring mapped start k p hp hlive hst hup hfree hnext hk hmap => ?_,
    fun s chan ring descs r hr hpri hlen hw hst hsize => ?_, fun s chan ring hr hst => ?_, fun s chan tag f heads hlast hheads hcoop hfirst habort hfence hgood htag => ?_,
    fun s key d c hc hd hw hs hf hst => ?_, fun s chan cq p hcnt hmod hirq hst hw hvf hp hup hen hoff => ?_, fun s chan cq hst => ?_, fun s port => ⟨fun hup => ?_, fun hdown => ?_⟩,
    fun s port chan ht hidle => ?_⟩
  · exact ⟨_, setupWrite_power_completes val ht h8 hb h1 h2, fld_writeReg_rw (marked s false).dev hr hf ha hv, rfl, rfl⟩
  · refine ⟨_, hread s port off len ho hlen ha hreg, ?_⟩
    simp only [bar0Read, dropHeld_none hh, ite_self, emit_out]
  · refine ⟨_, hbad s port off len false ho hh hodd, ?_⟩
    simp only [Bool.false_eq_true, if_false, emit_out, List.getLast?_concat]
  · refine ⟨_, hexpire s port h hh, ?_, ?_⟩
    · rw [(setupError_reports _ port h.off).held, getPort_modPort_same]
    · rw [(setupError_reports _ port h.off).now]
      exact Nat.le_max_right _ _
  · have hms : 1000 * lease.toNat < 2 ^ 16 := by omega
    obtain ⟨hown, hremain⟩ := claimed_fields { s.dev with leaseEnd := s.dev.now + 1000000000 * lease.toNat, leaseFresh := leaseFree s.dev } (owner := port.val + 1) (by omega) hms
    refine ⟨_, hclaim s port lease ho hh h0 h60 hfree tie, hown, hremain, ?_, holdsLease_of hown ?_⟩
    · simp only [setF_leaseEnd]
    · simp only [setF_now, setF_leaseEnd]
      omega
  · have hown := getF_endLease s.dev
    exact ⟨_, hrelease s port ho hh hl, hown, by rw [leaseFree, Bool.or_eq_true]; exact .inl (beq_iff_eq.mpr hown)⟩
  · exact ⟨_, hlease s hown, getF_endLease _, Nat.le_max_right _ _⟩
  · refine ⟨_, exec_of_completesM (completesM (f := doSetupWrite (seqImage s.sec) port offOBS_WHOA_CTL false 2) (fun _ => rfl)
      (doSetupWrite_resume_held (s := (marked s false).dev) _ ho hh hreg hl hw hst htdi hin)) rfl, rfl, rfl, ?_, getF_setStop _ true⟩
    exact (whoaStopped_setStop _ 1).trans hw
  · refine ⟨_, exec_of_completesM (completesM (f := doStopIoRelease (seqImage s.sec)) (fun _ => rfl) (doStopIoRelease_frees (s := (marked s false).dev) _ hin hres)) rfl, rfl, ?_, ?_⟩
    · exact getF_setStop _ _
    · exact whoaStopped_setStop _ _
  · refine ⟨_, upd_completes (doDoorbell port vf page 0 8 data) rfl (doDoorbell_moves_tail ring.isLt hp hpage hres hr hst hidx), ?_, fun o ho => reg_setF_other _ _ _ _ ho, rfl, rfl, rfl⟩
    rw [getF_setF_same _ _ _ (show 31 < 64 by decide)]
    exact Nat.mod_eq_of_lt (Nat.mod_lt _ (by decide))
  · refine ⟨_, upd_completes (doRingFetch chan ring mapped) rfl ((doRingFetch_reads hp rfl hlive hst hup hnext hk (hmap.imp_right .inl)).trans (if_neg (Nat.not_le.mpr hfree))), ?_, ?_, ?_⟩
    · rw [emit_out, modCh_out]
      split <;> rfl
    · rw [getCh_emit, getCh_modCh_same]
      split <;> rfl
    · rw [getCh_emit, getCh_modCh_same]
      split <;> rfl
  · obtain ⟨fs, hfetched, hdesc, hreads, hhead⟩ := doDescriptorArrival_arrives hr hpri hlen hw hst hsize
    exact ⟨_, fs, upd_completes (doDescriptorArrival chan ring descs) rfl rfl, hfetched, hdesc, hreads, hhead⟩
  · obtain ⟨r, hr', hsev, hcode, hindex, hring⟩ := ringError_sq (modCh s.dev chan (fun ch => { ch with reads := ch.reads.filter (fun r => r.ring != ring.val) })) chan ring 1
    obtain ⟨hstate, hcause⟩ := sqError_fields (modCh s.dev chan (fun ch => { ch with reads := ch.reads.filter (fun r => r.ring != ring.val) })) chan ring (cause := 1) (by decide)
    refine ⟨_, r, upd_completes (fun d => fetchFails d chan ring) rfl ((fetchFails_active hr hst).trans hr'), hstate, hcause, ?_, hsev, hcode, hindex, hring⟩
    rw [getCh_setF, getCh_setF, getCh_modCh_same]
    exact any_filter_bne _ _
  · have hdo := doDispatch_serves hlast hheads hcoop hfirst
    obtain ⟨hcmds, hkey, hfetched, hring⟩ := dispatchNow_takes habort hfence hgood htag
    exact ⟨_, upd_completes (doDispatch chan) rfl hdo, hcmds, hkey, hfetched, hring⟩
  · refine upd_completes (doCommandTimeout key) rfl ?_
    have hc' : getCmd { s.dev with now := max s.dev.now d } key = some c := hc
    simp only [doCommandTimeout, hc, hd, hw, hs, hf, hst, failCmd, endCmd, hc', Option.isSome_none, Bool.or_self, Bool.false_eq_true, if_false]
  · refine ⟨_, upd_completes (doModUsExpiry chan cq) rfl (doModUsExpiry_sends hcnt hmod hirq hst hw hvf hp hup hen hoff), ?_, ?_⟩
    · rw [emit_out]
      rfl
    · rw [getCqr, getCh_emit, ← getCqr, getCqr_setCqr]
  · obtain ⟨r, hr, hsev, hcode, hindex⟩ := ringError_cq s.dev chan cq 4
    obtain ⟨hstate, hcause⟩ := cqError_fields s.dev chan cq (cause := 4) (by decide)
    exact ⟨_, r, upd_completes (doRecordWriteFailure chan cq) rfl ((if_neg (not_not.mpr hst)).trans hr), hstate, hcause, hsev, hcode, hindex⟩
  · obtain ⟨d, r, hd, hfields⟩ := linkDown_up hup
    exact ⟨d, r, upd_completes (fun x => linkDown x port) rfl hd, hfields⟩
  · exact upd_completes (fun x => linkDown x port) rfl (linkDown_down hdown)
  · have ⟨d, hd, hbusy, hfetched, hreads⟩ := chResetEff_idle (s := s.dev) chan.isLt hidle
    exact ⟨_, d, setupWr_completes rfl ht hd, rfl, rfl, hbusy, hfetched, hreads⟩

end Sys2Proof.Machine
